-- ==== Sys2Proof/Word.lean ====
section
/-!
DEFINITION. The word types of the module and little-endian byte sequences.
-/

namespace Sys2Proof

/-- One byte (00 R8). -/
abbrev Byte := BitVec 8

/-- One 32-bit register (00 R8). -/
abbrev Word := BitVec 32

/-- One 64-bit value: an event, an address, a DEVTIME (04 R113, 11 R248, 20 R445). -/
abbrev Dword := BitVec 64

/-- The number that a little-endian byte sequence spells (00 R8). -/
def leNat : List Byte → Nat
  | [] => 0
  | b :: bs => b.toNat + 256 * leNat bs

/-- The `n` bytes of a number, least significant first (00 R8). -/
def leBytes : Nat → Nat → List Byte
  | 0, _ => []
  | n + 1, v => BitVec.ofNat 8 v :: leBytes n (v / 256)

/-- Bits `[hi:lo]` of a number (00 R7). -/
def bits (v hi lo : Nat) : Nat := (v / 2 ^ lo) % 2 ^ (hi + 1 - lo)

/-- Bit `i` of a number (00 R7). -/
def bit (v i : Nat) : Bool := (v / 2 ^ i) % 2 == 1

/-- One where the condition holds, else zero. -/
def b2n (b : Bool) : Nat := if b then 1 else 0

/-- `v` rounded up to a multiple's count: the ceiling of `a / b`. -/
def ceilDiv (a b : Nat) : Nat := (a + b - 1) / b

end Sys2Proof
end

