-- ==== Sys2Proof/Syntax.lean ====
section
/-!
DEFINITION. The commands of the block: one constructor for each row of the table of operations and events.
The table gives no fields; the operands are the model's (assumption 1).
-/

namespace Sys2Proof

/-- The functions that issue commands and accesses: the PF, VF k, the management sideband (02 R43, R54). -/
inductive Fn where
  | pf
  | vf (k : Fin 64)
  | mgmt
  deriving DecidableEq, Repr

/-- What a memory or scratchpad access finds in the code it reads (11 R257, 10 R220). -/
inductive Ecc where
  | clean
  | corrected
  | uncorrectable
  deriving DecidableEq, Repr

/-- An 8-byte word of a scratchpad, by store (0 WS, 1 AS, 2 PS) and number, that an access finds with a wrong code: by
one bit, or uncorrectable (10 R220). -/
structure WordFind where
  store : Fin 3
  word : Nat
  single : Bool
  deriving DecidableEq, Repr

/-- The work of a node instance on the scratchpads: the node of an array pass, or the member of any other instance, and
the wrong words that its accesses find (10 R220). -/
structure UnitWork where
  index : Nat
  finds : List WordFind
  deriving DecidableEq, Repr

/-- What the reads for one unit of the DMA engine find (10 R220, 11 R257): that of its source, and those of the directory
granules of a compressed source and of a compressed destination (11 R271, R274). -/
structure UnitEcc where
  data : Ecc
  srcDir : Ecc
  dstDir : Ecc
  deriving DecidableEq, Repr

/-- A member of a run, and what the reads for the link node's message find. -/
structure MemberWork where
  member : Nat
  finds : UnitEcc
  deriving DecidableEq, Repr

/-- What the reads at the start of a raise find, each the first of its kind (11 R257): `PEG_SRC`, a sequence entry, a
page-table entry, a global list, a record (04 R110, 12 R285, 13 R303). -/
structure StartEcc where
  pegs : Ecc
  entry : Ecc
  table : Ecc
  list : Ecc
  record : Ecc
  deriving DecidableEq, Repr

/-- The status of a PCIe completion (02 R47, R65). -/
inductive CplStatus where
  | success
  | unsupported
  | aborted
  | poisoned
  deriving DecidableEq, Repr

/-- The three kinds of shared arbiter (01 R31). -/
inductive Arbiter where
  | pcieIngress
  | fabric (src dst : Fin 4)
  | port (p : Fin 8)
  deriving DecidableEq, Repr

/-- A register space the host reaches (20, opening): chip space or the BAR0 space of a VF. -/
inductive RegSpace where
  | chip
  | vf (k : Fin 64)
  deriving DecidableEq, Repr

/-- Where an SPDM message came from: the DOE mailbox or MCTP (17 R396). -/
inductive SpdmPort where
  | doe
  | mctp
  deriving DecidableEq, Repr

/-- What a host access to a register does: a write of bytes, or a read of a size (00 R10; assumption 5). -/
inductive RegOp where
  | write (data : List Byte)
  | read (size : Nat)
  deriving DecidableEq, Repr

/-- The command of an IDE key-management message (17 R396, 02 R43). -/
inductive IdeAct where
  | program (key : List Byte)
  | start
  | stop
  deriving DecidableEq, Repr

/-- A directed IDE stream: the link stream or the selective stream of a function (02 R43). -/
inductive IdeStream where
  | link
  | selective (f : Fn)
  deriving DecidableEq, Repr

/-- What the far end of a link announces in training (15 R327): serial hash, port, index, coordinates. -/
structure LinkPartner where
  hash : Nat
  port : Fin 8
  ll : Fin 12
  coordValid : Bool
  x : Fin 16
  y : Fin 16
  z : Fin 16
  lanes : BitVec 4
  deriving DecidableEq, Repr

/-- A frame as the link layer receives it (15 R330): sequence, path, type code, body, and whether its CRC holds. -/
structure LinkFrame where
  seq : BitVec 16
  path : BitVec 12
  type : BitVec 4
  body : List Byte
  crc : BitVec 32
  deriving DecidableEq, Repr

/-- A sealed segment of a sister message as it arrives (15 R339, 16 R361): its bytes, its tag, and whether a frame of it is
marked poisoned. -/
structure SealedSegment where
  body : List Byte
  tag : List Byte
  poison : Bool
  deriving DecidableEq, Repr

/-- A sister message as it arrives (16 R361): the length of its MSG entry, the number of its first segment, and its
segments. -/
structure SisterMsg where
  len : Nat
  first : Nat
  segs : List SealedSegment
  deriving DecidableEq, Repr

/-- What the reads of an apply find (16 R362): of the entry, the page table and the shadow page table. -/
structure ApplyEcc where
  entry : Ecc
  table : Ecc
  shadow : Ecc
  deriving DecidableEq, Repr

/-- This module's part in a time exchange (15 R349): the child, with the lane-skew correction in units of 0.125 ns, or the
parent that answers on a link. -/
inductive TimeRole where
  | child (skew : Int)
  | parent (n : Fin 96)
  deriving DecidableEq, Repr

/-- A message on the management sideband (02 R54, 19 R422): the I3C target address it is sent to, its MCTP message
type, and the bytes that follow the Zynkiune vendor identifier. -/
structure SidebandMsg where
  addr : BitVec 7
  type : BitVec 8
  body : List Byte
  deriving DecidableEq, Repr

/-- The readings of one governor sample (19 R426, R427, R430): V in mV, power in W, temperatures in
eighths of a degree, flow in units of 0.05 L/min. -/
structure Readings where
  vin : Nat
  pin : Nat
  inlet : Int
  flow : Nat
  die : List Int
  deriving DecidableEq, Repr

/-- The command set: one constructor a row of spec/opcode_table.json, in the table's order. -/
inductive Instr where
  /-- R423: `rise`: PWR_EN rises now, after `lowNs` ns held low; else V enters the range. `mv`: V in mV. -/
  | powerEnable (rise : Bool) (mv lowNs : Nat)
  /-- R423: PWR_EN goes low, or a rail leaves regulation. -/
  | powerDisable (railFault : Bool)
  /-- R424: V rises above 56.0 V. -/
  | inputOvervoltage (mv : Nat)
  /-- R424: V has stayed below 42.0 V for 200 microseconds. -/
  | inputUndervoltageTimeout (mv : Nat)
  /-- R424: demand has stayed above 75 A for 100 microseconds. -/
  | inputOvercurrentTimeout (amps : Nat)
  /-- R69: PERST# is asserted and released. -/
  | perst
  /-- R62: the current boot stage finishes; `failed` names the items that failed in it. -/
  | bootStageComplete (failed : List Nat)
  /-- R46. -/
  | vfFlr (k : Fin 64)
  /-- R46. -/
  | pfFlr
  /-- R46. -/
  | vfEnableClear
  /-- R43. -/
  | vfEnableSet
  /-- R43. -/
  | numvfsWrite (n : Nat)
  /-- R48. -/
  | pcieCompletionRx (tag : BitVec 14) (status : CplStatus) (data : List Byte)
  /-- R47. -/
  | completionTimeout (tag : BitVec 14)
  /-- R30, R33. -/
  | arbHoldCutoff (a : Arbiter)
  /-- R52. -/
  | mbxGo (fn : Fn)
  /-- R54. -/
  | mctpMessageRx (msg : SidebandMsg)
  /-- R59. -/
  | messageTimeTakeup
  /-- R56. -/
  | identGet (fn : Fn)
  /-- R56. -/
  | healthGet (fn : Fn)
  /-- R65, from the PF. -/
  | fwLoad
  /-- R65, from the sideband. -/
  | fwLoadChunk
  /-- R65. -/
  | fwLoadChunkTimeout
  /-- R66. -/
  | fwAuthDone
  /-- R371, R372. -/
  | partCreate (fn : Fn)
  /-- R373. -/
  | partDelete (fn : Fn)
  /-- R402. -/
  | partReset (fn : Fn)
  /-- R96. -/
  | ctxCreate (fn : Fn)
  /-- R101; `e` is what the read of the image finds. -/
  | frameLoad (fn : Fn) (e : Ecc)
  /-- R75. -/
  | resvOpen (fn : Fn)
  /-- R77. -/
  | resvClose (fn : Fn)
  /-- R378. -/
  | keyLoadPlain (fn : Fn)
  /-- R379. -/
  | keyLoadWrapped (fn : Fn)
  /-- R380. -/
  | keyLoadGenerate (fn : Fn)
  /-- R381. -/
  | keyBindMem (fn : Fn)
  /-- R381. -/
  | keyUnbindMem (fn : Fn)
  /-- R387. -/
  | pkeOperationDone
  /-- R384. -/
  | keyErase (fn : Fn)
  /-- R385. -/
  | keyEraseNow (fn : Fn)
  /-- R383, R384. -/
  | keyUserEnd (slot : Fin 256)
  /-- R318. -/
  | shardFetch (fn : Fn)
  /-- R318. -/
  | shardCopy (fn : Fn)
  /-- R317. -/
  | shardDetach (fn : Fn)
  /-- R318. -/
  | shardAttachDone (k : Fin 64)
  /-- R338. -/
  | linkGrant (fn : Fn)
  /-- R338. -/
  | linkGrantComplete (job : BitVec 32)
  /-- R338. -/
  | linkRelease (fn : Fn)
  /-- R359. -/
  | sisterBind (fn : Fn)
  /-- R367. -/
  | sisterUnbind (fn : Fn)
  /-- R366. -/
  | sisterTakeover (fn : Fn)
  /-- R359. -/
  | sisBindTimeout (b : Fin 12)
  /-- R409; `e` is what the read of the record finds. -/
  | faultReadPartition (fn : Fn) (e : Ecc)
  /-- R409. -/
  | faultReadModule (fn : Fn)
  /-- R409. -/
  | faultReadSupersedeLog (fn : Fn)
  /-- R394. -/
  | attestGet (fn : Fn)
  /-- R425. -/
  | pwrSet (fn : Fn)
  /-- R396. -/
  | spdmGetVersion (t : SpdmPort) (msg : List Byte)
  /-- R396. -/
  | spdmGetCapabilities (t : SpdmPort) (msg : List Byte)
  /-- R396. -/
  | spdmNegotiateAlgorithms (t : SpdmPort) (msg : List Byte)
  /-- R396. -/
  | spdmGetDigests (t : SpdmPort) (msg : List Byte)
  /-- R396. -/
  | spdmGetCertificate (t : SpdmPort) (msg : List Byte)
  /-- R396. -/
  | spdmChallenge (t : SpdmPort) (msg : List Byte)
  /-- R396. -/
  | spdmGetMeasurements (t : SpdmPort) (msg : List Byte)
  /-- R396. -/
  | spdmKeyExchange (t : SpdmPort) (msg : List Byte)
  /-- R396. -/
  | spdmFinish (t : SpdmPort) (msg : List Byte)
  /-- R396. -/
  | spdmEndSession (t : SpdmPort) (msg : List Byte)
  /-- R105, R106: a write of `data` at byte `off` of the launch windows of context `c` (window q at 64 q). -/
  | launchRecord (fn : Fn) (k : Fin 64) (c : Fin 16) (off : Fin 256) (data : List Byte)
  /-- R108; `e` is what the reads of the start find. -/
  | raiseStart (k : Fin 64) (e : StartEcc)
  /-- R166; `e` is what the reads of the start find. -/
  | gatherWindowEnd (k : Fin 64) (e : StartEcc)
  /-- R100. -/
  | nodeStart (k : Fin 64) (c : Fin 16) (node member : Nat)
  /-- R156. -/
  | arrayPass (k : Fin 64) (c : Fin 16) (node : UnitWork)
  /-- R206. -/
  | vectorAdd (k : Fin 64) (c : Fin 16) (node : Nat) (work : UnitWork)
  /-- R205. -/
  | vectorMul (k : Fin 64) (c : Fin 16) (node : Nat) (work : UnitWork)
  /-- R205. -/
  | vectorFma (k : Fin 64) (c : Fin 16) (node : Nat) (work : UnitWork)
  /-- R139. -/
  | vectorMax (k : Fin 64) (c : Fin 16) (node : Nat) (work : UnitWork)
  /-- R139. -/
  | vectorMin (k : Fin 64) (c : Fin 16) (node : Nat) (work : UnitWork)
  /-- R207. -/
  | convert (k : Fin 64) (c : Fin 16) (node : Nat) (work : UnitWork)
  /-- R191. -/
  | rescale (k : Fin 64) (c : Fin 16) (node : Nat) (work : UnitWork)
  /-- R210. -/
  | vectorFunc (k : Fin 64) (c : Fin 16) (node : Nat) (work : UnitWork)
  /-- R212. -/
  | gate (k : Fin 64) (c : Fin 16) (node : Nat) (work : UnitWork)
  /-- R214. -/
  | softmax (k : Fin 64) (c : Fin 16) (node : Nat) (work : UnitWork)
  /-- R216. -/
  | rmsnorm (k : Fin 64) (c : Fin 16) (node : Nat) (work : UnitWork)
  /-- R216. -/
  | layernorm (k : Fin 64) (c : Fin 16) (node : Nat) (work : UnitWork)
  /-- R217. -/
  | argmax (k : Fin 64) (c : Fin 16) (node : Nat) (work : UnitWork)
  /-- R226. -/
  | dmaTransfer (k : Fin 64) (c : Fin 16) (node member : Nat)
  /-- R225. -/
  | bayDescPushRetry (k : Fin 64) (ch : Fin 16)
  /-- R229; `e` is what the reads for the unit find. -/
  | dmaUnitWritten (k : Fin 64) (ch : Fin 16) (e : UnitEcc)
  /-- R230: a write of `data` at byte `off` of the descriptor windows (channel c at 32 c). -/
  | dmaDescHostPush (fn : Fn) (k : Fin 64) (off : Fin 512) (data : List Byte)
  /-- R238. -/
  | dmaBusError (k : Fin 64) (ch : Fin 16) (cause : Fin 5)
  /-- R238. -/
  | dmaEngineRestart (k : Fin 64)
  /-- R239. -/
  | dmaChDisable (fn : Fn) (k : Fin 64) (ch : Fin 16)
  /-- R239. -/
  | dmaChEnable (fn : Fn) (k : Fin 64) (ch : Fin 16)
  /-- R231: the control word written, with REQ 1. -/
  | dmaWinOpen (fn : Fn) (k : Fin 64) (w : Fin 16) (value : Word)
  /-- R234: the control word written, with CLOSE 1. -/
  | dmaWinClose (fn : Fn) (k : Fin 64) (w : Fin 16) (value : Word)
  /-- R234. -/
  | dmaWinCloseDone (k : Fin 64) (w : Fin 16)
  /-- R233: the head unit of channel `ch` of sender `j` arrives at its window. -/
  | windowUnitRx (j : Fin 64) (ch : Fin 16)
  /-- R236: `off` counts from the start of the aperture. -/
  | hostApertureWrite (k : Fin 64) (off : Fin 4194304) (data : List Byte) (e : Ecc)
  /-- R236. -/
  | hostApertureRead (k : Fin 64) (off : Fin 4194304) (len : Nat) (e : Ecc)
  /-- R236. -/
  | dmaHostSelWrite (fn : Fn) (k : Fin 64) (value : Word)
  /-- R251: `off` counts from the start of BAR2. -/
  | bar2Read (k : Fin 64) (off : BitVec 32) (len : Nat) (e : Ecc)
  /-- R251. -/
  | bar2Write (k : Fin 64) (off : BitVec 32) (data : List Byte) (e : Ecc)
  /-- R259: the scrub reads granule `g` of the near (`ext` false) or external tier. -/
  | patrolScrub (k : Fin 64) (ext : Bool) (g : Nat) (e : Ecc)
  /-- R254. -/
  | memRefresh (k : Fin 64) (ext : Bool) (chan : Fin 4)
  /-- R264: the control word written, with EN 1; `e` is what the read of the table finds. -/
  | cmpRegionEnable (fn : Fn) (k : Fin 64) (r : Fin 16) (value : Word) (e : Ecc)
  /-- R264: the control word written, with EN 0. -/
  | cmpRegionDisable (fn : Fn) (k : Fin 64) (r : Fin 16) (value : Word)
  /-- R287. -/
  | kvRead (k : Fin 64) (c : Fin 16) (node member : Nat) (e : Ecc)
  /-- R290. -/
  | kvAppend (k : Fin 64) (c : Fin 16) (node member : Nat) (e : Ecc)
  /-- R285. -/
  | pageWalkPush (k : Fin 64) (ch : Fin 16)
  /-- R305. -/
  | specMask (k : Fin 64) (c : Fin 16) (node member : Nat)
  /-- R306. -/
  | specAccept (k : Fin 64) (c : Fin 16) (node member : Nat)
  /-- R308. -/
  | specCommit (k : Fin 64) (c : Fin 16) (node member : Nat) (e : Ecc)
  /-- R309. -/
  | specRollback (k : Fin 64) (c : Fin 16) (node member : Nat)
  /-- R311. -/
  | specReconcile (k : Fin 64) (c : Fin 16) (node member : Nat) (e : Ecc)
  /-- R342. -/
  | linkSend (k : Fin 64) (c : Fin 16) (node : Nat) (work : MemberWork)
  /-- R341. -/
  | linkRecv (k : Fin 64) (c : Fin 16) (node member : Nat)
  /-- R342. -/
  | linkExchange (k : Fin 64) (c : Fin 16) (node : Nat) (work : MemberWork)
  /-- R111. -/
  | nodeComplete (k : Fin 64) (c : Fin 16) (node member : Nat)
  /-- R111. -/
  | raiseComplete (k : Fin 64) (c : Fin 16)
  /-- R112. -/
  | cplRecordRetry (k : Fin 64) (c : Fin 16)
  /-- R121. -/
  | cplRdWrite (fn : Fn) (k : Fin 64) (c : Fin 16) (value : Word)
  /-- R121. -/
  | noticeRdWrite (fn : Fn) (k : Fin 64) (value : Word)
  /-- R95. -/
  | noticePushRetry (k : Fin 64)
  /-- R117: `off` counts from the start of the event window. -/
  | eventHostWrite (fn : Fn) (k : Fin 64) (off : Fin 524288) (data : List Byte)
  /-- R117. -/
  | evtCtrlArm (fn : Fn) (k : Fin 64)
  /-- R93. -/
  | admSuspendMemClear (fn : Fn) (k : Fin 64)
  /-- R93. -/
  | peerLateTimeout (k : Fin 64) (c : Fin 16) (node member : Nat)
  /-- R399. -/
  | waitWatchdog (k : Fin 64) (c : Fin 16) (q : Fin 4)
  /-- R399. -/
  | linkWatchdog (k : Fin 64) (c : Fin 16) (node member : Nat)
  /-- R399. -/
  | nodeProgressWatchdog (k : Fin 64) (c : Fin 16) (node member : Nat)
  /-- R399. -/
  | bayAgentHeartbeat (b : Fin 4)
  /-- R399. -/
  | bayControllerWatchdog (b : Fin 4)
  /-- R416. -/
  | chipControllerWatchdog
  /-- R401. -/
  | trussInternalError (k : Fin 64) (t : Fin 2)
  /-- R407; `e` is what the writes of the record meet. -/
  | resetCapture (k : Fin 64) (e : Ecc)
  /-- R410. -/
  | resetEndRaises (k : Fin 64)
  /-- R403. -/
  | resetRetrain (k : Fin 64)
  /-- R403. -/
  | resetScrub (k : Fin 64)
  /-- R403: whether each truss passed. -/
  | resetSelfTest (k : Fin 64) (pass0 pass1 : Bool)
  /-- R404. -/
  | resetRestore (k : Fin 64)
  /-- R415: the two READMIT bits written. -/
  | trussReadmit (fn : Fn) (k : Fin 64) (mask : BitVec 2)
  /-- R415. -/
  | readmitTestDone (k : Fin 64) (t : Fin 2) (pass : Bool)
  /-- R415. -/
  | trussRejoin (k : Fin 64)
  /-- R321. -/
  | shardScrubPassStart (k : Fin 64)
  /-- R321; `e` is what the reads of the shard find. -/
  | shardScrubHashDone (k : Fin 64) (e : Ecc)
  /-- R323. -/
  | scrubLate (k : Fin 64)
  /-- R327. -/
  | linkTrain (n : Fin 96) (p : LinkPartner)
  /-- R331. -/
  | payloadFrameRx (n : Fin 96) (lane : Fin 4) (f : LinkFrame)
  /-- R331. -/
  | laneEntryRx (n : Fin 96) (live standby : BitVec 4) (widen ack quiet : Bool)
  /-- R331. -/
  | nakRx (n : Fin 96) (seqs : List (BitVec 16))
  /-- R331. -/
  | ackRx (n : Fin 96) (seq : BitVec 16)
  /-- R341. -/
  | msgRx (n : Fin 96) (path : BitVec 12) (tag : BitVec 16) (len : Nat) (seq : BitVec 16)
  /-- R341. -/
  | creditRx (n : Fin 96) (path : BitVec 12) (units : Nat)
  /-- R339. -/
  | gtagRx (n : Fin 96) (path : BitVec 12) (segment : Nat) (tag : List Byte)
  /-- R346. -/
  | laneLoss (n : Fin 96) (lane : Fin 4)
  /-- R347. -/
  | linkDownTimeout (n : Fin 96)
  /-- R348. -/
  | laneStandbyReady (n : Fin 96) (lane : Fin 4)
  /-- R348. -/
  | linkWiden (n : Fin 96)
  /-- R348: `ok` is false where a lane failed during the hold. -/
  | linkWidenDone (n : Fin 96) (ok : Bool)
  /-- R354. -/
  | laneHeldRelease (fn : Fn) (n : Fin 96)
  /-- R349: the four stamps in units of 0.125 ns, and the module's part. -/
  | timeExchange (t1 t2 t3 t4 : Int) (role : TimeRole)
  /-- R350: the high half written. -/
  | lnkTimeSetCommit (fn : Fn) (hi : Word)
  /-- R351. -/
  | timeParentLoss
  /-- R361. -/
  | sisHeartbeatTx (b : Fin 12) (n : Fin 96)
  /-- R359: the heartbeat's epoch. -/
  | sisHeartbeatRx (b : Fin 12) (epoch : Word)
  /-- R365. -/
  | sisHeartbeatLoss (b : Fin 12)
  /-- R362: a commit message has arrived whole; `e` is what the apply meets. -/
  | sisCommitApply (b : Fin 12) (msg : SisterMsg) (e : ApplyEcc)
  /-- R363. -/
  | sisAckRx (b : Fin 12) (k : Fin 64)
  /-- R363. -/
  | sisAckTimeout (b : Fin 12) (k : Fin 64)
  /-- R367. -/
  | sisReleaseRx (b : Fin 12) (epoch : Word)
  /-- R365. -/
  | sisBreakRx (b : Fin 12) (epoch : Word) (cause : Fin 8)
  /-- R365. -/
  | sisSettle (b : Fin 12)
  /-- R427. -/
  | governorSample (r : Readings)
  /-- R430: a sensor of bay b reads at or above 95 degrees C. -/
  | thermalThrottle (b : Fin 4) (temp : Int)
  /-- R430: the hottest sensor of bay b reads below 90 degrees C. -/
  | throttleClear (b : Fin 4) (temp : Int)
  /-- R431: trip by the die or the inlet. -/
  | thermalTrip (tdie inlet : Int)
  /-- R430. -/
  | lowFlowTimeout
  /-- R430. -/
  | tripStandingTimeout
  /-- R432: shutdown by a die at or above 115 degrees C. -/
  | thermalShutdown (tdie : Int)
  /-- R430. -/
  | tripClear (tdie inlet : Int) (flow : Nat)
  /-- R10. -/
  | registerWrite (fn : Fn) (space : RegSpace) (off : Nat) (op : RegOp)
  /-- R62. -/
  | bootFatalFault
  /-- R434. -/
  | inletAboveSelfTestLimit (inlet : Int)
  /-- R64. -/
  | selfTestLimitsRestored (tdie inlet : Int)
  /-- R49. -/
  | pcieTagQuarantineEnd (tag : BitVec 14)
  /-- R378. -/
  | keyLoadWrappedResponse
  /-- R396. -/
  | ideKeyManagementMessage (st : IdeStream) (act : IdeAct)
  deriving DecidableEq, Repr

end Sys2Proof
end

