-- ==== Sys2Proof/Decode.lean ====
section
/-!
DEFINITION. The words that spell commands. The table of operations and events gives no row any bits: a command reaches
the block as an access, a message or an event, never as a word it decodes.
-/

namespace Sys2Proof

/-- The command a word spells by the table's bits: none, as no row has bits (assumption 1). -/
def decodeTableWord (_nbits _w : Nat) : Option Instr := none

end Sys2Proof
end

