-- ==== Sys2Proof/Config.lean ====
section
/-!
DEFINITION. What one module fixes and the manual does not give: fused contents, functions that other standards
define, and the free values. None has a body, so no proof can see a value of it (assumptions 7, 11, 14).
-/

namespace Sys2Proof

/-- The `n`-th free choice; every open value of the manual that is not a function of operands is drawn from it
(assumption 7). -/
opaque Config.free : Nat → Nat

/-- The straps `MGMT_ADDR_SEL[2:0]` of the management connector (19 R422). -/
opaque Config.addrSel : Fin 8

/-- Serial number from fuses, 16 bytes (02 R56, R68). -/
opaque Config.serial : List Byte

/-- Silicon revision from fuses (02 R56, R68). -/
opaque Config.siliconRev : Word

/-- Boot ROM version (02 R56). -/
opaque Config.bootRomVer : Word

/-- SHA-384 of the boot ROM (17 R394). -/
opaque Config.romDigest : List Byte

/-- Fused firmware key-hash slot `i` (02 R66, R68). -/
opaque Config.keyHash : Nat → List Byte

/-- Fused revocation bits (02 R66, R68, 17 R394). -/
opaque Config.revoked : BitVec 4

/-- Fused minimum firmware SVN (02 R66, R68). -/
opaque Config.minSvn : Nat

/-- The 64-bit hash of the module's serial number (15 R327). -/
opaque Config.serialHash : Nat

/-- The serial-number hash of the module at torus coordinates x + 16 y + 256 z (15 R327, R339). -/
opaque Config.peerHash : Nat → Nat

/-- The number from which fused key material derives the identity scalar at each power-up (17 R392). -/
opaque Config.identityScalar : Nat

/-- The Zynkiune root certificate held in the boot ROM (17 R392). -/
opaque Config.rootCert : List Byte

/-- The DER X.509 certificate of a public identity key that the boot ROM builds from fused fields, with its fused signature
(17 R392). -/
opaque Config.identityCert : List Byte → List Byte

/-- SHA-384 of a byte string, 48 bytes (02 R66, 14 R317, 17 R387; FIPS 180-4, assumption 11). -/
opaque Config.sha384 : List Byte → List Byte

/-- RFC 6979 nonce with SHA-384: scalar, digest, attempt (17 R391; assumption 11). -/
opaque Config.nonce : Nat → List Byte → Nat → Nat

/-- HKDF-SHA-384 (RFC 5869) of salt, key material and info: the first 32 bytes (17 R379; assumption 11). -/
opaque Config.hkdf : List Byte → List Byte → List Byte → List Byte

/-- AES-256 key unwrap of RFC 3394: the material, or none where the integrity check fails (17 R379; assumption 11). -/
opaque Config.keyUnwrap : List Byte → List Byte → Option (List Byte)

/-- The keystream of AES-GCM-256 (15 R339; assumption 11): the byte at an offset under a key and an IV; sealing and opening
add it. -/
opaque Config.gcmStream : List Byte → List Byte → Nat → Byte

/-- The 16-byte tag of one sealed segment under key and IV (15 R339; assumption 11). -/
opaque Config.gcmTag : List Byte → List Byte → List Byte → List Byte

/-- What the 64 bytes of a data unit read as under a key they were not written with: that of the write, that of the read,
the tweak, the bytes (11 R255, R256; pseudo-random bytes, assumption 10). -/
opaque Config.xtsUnit : Nat → Nat → Nat → List Byte → List Byte

/-- A place of a tree mask that 13 R305 does not state: the tree record, the tree base, the row, the token
(assumption 7). -/
opaque Config.treeMask : List Byte → Nat → Nat → Nat → Word

/-- The choice the special-function unit makes within the bound of R211, by function code and argument
(09 R211; the same bits for the same argument, assumption 13). -/
opaque Config.special : Nat → Word → Nat

/-- The argument, by its place among the finite FP32 values, from which on a monotonic function of the special-function
unit gives at least the FP32 result at a place, where the bound leaves that open (09 R211; assumption 13). -/
opaque Config.specialStep : Nat → Int → Int

/-- The bytes of a response of the SPDM responder: its code, what 17 R396 says it carries, the request it answers; the rest
SPDM 1.3 fixes (17 R396; assumption 15). -/
opaque Config.spdmResponse : Nat → List Byte → List Byte → List Byte

/-- The digest that a signed SPDM response signs: its code, and the messages of the connection (17 R396; assumption 15). -/
opaque Config.spdmDigest : Nat → List Byte → List Byte

/-- Whether an SPDM request is well formed by SPDM 1.3 (17 R396; assumption 15). -/
opaque Config.spdmAccepts : Nat → List Byte → Bool

/-- The fixed hash that spreads granules over banks (11 R253). -/
opaque Config.bankHash : Nat → Nat

/-- A byte of a section of a fault record whose contents the manual names but does not lay out (18 R407): the section, the
values it holds, the progress counters, the offset in the record (assumption 38). -/
opaque Config.recordByte : Nat → List (List Nat) → Nat → Nat → Byte

end Sys2Proof
end

