-- ==== Sys2Proof/Machine/State.lean ====
section
/-!
DEFINITION. The state of the module as plain data, the stops, and the module right after reset.
Numbered things stand in tables: entries by ascending number, an absent entry holding its reset value.
-/

namespace Sys2Proof.Machine

/-- Numbered entries by strictly ascending number; an absent number holds the reset value of its kind. -/
abbrev Table (α : Type) := List (Nat × α)

/-- Words of `w` bits by address, none of them equal to 0, what an unlisted address reads as; with bytes, the
memory form of Host.Cell. -/
abbrev Sparse (w : Nat) := List (Nat × BitVec w)

/-- Bytes by address. -/
abbrev Cells := List Host.Cell

/-- Registers by offset (20 R441, R443, R446, R448); an absent offset holds its reset value. -/
abbrev RegFile := List (Nat × Word)

/-- A landed raise (04 R104, R106). -/
structure Raise where
  /-- The 64 bytes of the launch record. -/
  record : List Byte
  /-- Queue it landed in. -/
  q : Nat
  /-- DEVTIME of the landing cycle. -/
  tLand : Dword
  /-- Landed in a bound queue (R70). -/
  guar : Bool
  /-- Event mode as it stood at landing (R118). -/
  eventMode : Bool
  /-- Landing order within the partition (R119). -/
  serial : Nat
  /-- Condition of R93 that voided the raise's promise. -/
  voided : Option Nat
  /-- A notice of its own names the condition (R94): codes 6 and 7. -/
  noticed : Bool
  /-- Its event has held the value it waits for, at landing or since (R115). -/
  met : Bool
  /-- `WAIT_MS` as the wait began (18 R419). -/
  waitMs : Nat
  deriving DecidableEq, Repr

/-- A launch queue (04 R103, R107): raises in landing order and credits taken. -/
structure Queue where
  landed : List Raise
  taken : Nat
  deriving DecidableEq, Repr

/-- A stored Ranayn frame (04 R97, R102). -/
structure Frame where
  image : List Byte
  /-- The granules of its context's frame store that hold it, in image order (11 R250). -/
  granules : List Nat
  deriving DecidableEq, Repr

/-- How far a node instance has come; an absent instance has not started. -/
inductive NodePhase where
  | running
  | worked
  | done
  deriving DecidableEq, Repr

/-- A member of a run with its patched pegs (04 R110, 06 R166). -/
structure Member where
  raise : Raise
  pegs : List Dword
  deriving DecidableEq, Repr

/-- A sequence that a started raise names (12 R280, R285, 13 R302): peg, member, number, `LT` at the start, the tree base
once an APPEND has latched it, and the page-table entries and shadow page-table entries read at the start, by index. -/
structure KvUse where
  peg : Nat
  member : Nat
  seq : Nat
  lt0 : Nat
  base : Option Nat
  pages : Table Nat
  shadows : Table Nat
  deriving DecidableEq, Repr

/-- A started run: one raise or a gathered run (04 R108, 06 R167). -/
structure Run where
  frame : Nat
  guar : Bool
  /-- Physical truss of role 0 (R109). -/
  truss : Nat
  members : List Member
  /-- Instances by node * 64 + member. -/
  nodes : Table NodePhase
  /-- Status and DETAIL the run will complete with, once its running nodes have ended. -/
  ending : Option (Nat × Nat)
  /-- RESV_CLOSE with ABORT: ends at the next node boundary (R77). -/
  abort : Bool
  /-- Clock step in MHz (R34, R427). -/
  mhz : Nat
  /-- DEVTIME of the start. -/
  tStart : Dword
  kv : List KvUse
  /-- BAR2 bytes since the start (R93). -/
  bar2 : Nat
  /-- Members whose tree was replaced at the start (13 R303). -/
  retreed : List Nat
  /-- Link instances whose send half, and whose receive half, has ended (15 R342). -/
  sent : List Nat
  received : List Nat
  /-- `LT` latched by each READ instance (12 R287), the global positions read for it at the start (12 R285), and the
  records latched for each instance of MASK, ACCEPT and RECONCILE (13 R305, R306, R310). -/
  lts : Table Nat
  globs : Table (List Nat)
  recs : Table (List Byte × List Byte)
  /-- `LINK_MS` as each condition that the link watchdog counts began (18 R399, R419), by 2 * instance, + 1 for the
  receive half. -/
  watch : Table Nat
  /-- Array-pass instances that have run beside a vector instance on their truss (06 R163). -/
  beside : List Nat
  deriving DecidableEq, Repr

/-- A context (04 R96). -/
structure Context where
  created : Bool
  ftz : Bool
  frames : Table Frame
  /-- Last frame handle issued (R102). -/
  lastHandle : Nat
  queues : Table Queue
  /-- The bytes of the four launch windows (R105). -/
  windows : Cells
  /-- Completion records by ring entry (R112). -/
  ring : Table (List Byte)
  /-- Records held for a full ring, with their NOTIFY bits (R112). -/
  held : List (List Byte × Bool)
  run : Option Run
  /-- Runs stopped at a node boundary, by the queue of their leader (R83, R108, rule 6). -/
  parked : Table Run
  deriving DecidableEq, Repr

/-- An open or closed reservation (03 R73, R74, R77, 18 R453). -/
structure Reservation where
  payload : List Byte
  response : List Byte
  /-- Closed and not yet released. -/
  closed : Bool
  /-- Suspended under R87. -/
  suspended : Bool
  /-- Previous accepted landing (R88). -/
  prev : Option Dword
  /-- Order of opening over the module (R87). -/
  serial : Nat
  /-- Longest node of its frame in ns (R84). -/
  longest : Nat
  /-- Fabric slots held, by path (R27, R74). -/
  slots : Table Nat
  deriving DecidableEq, Repr

/-- The array of a truss (06 R147, 07 R172, 08 R195): active and shadow weights of a tile with their LUT blocks, and two
accumulator banks. -/
structure ArrayState where
  active : Sparse 16
  shadow : Sparse 16
  activeLut : Cells
  shadowLut : Cells
  bank0 : Sparse 32
  bank1 : Sparse 32
  deriving DecidableEq, Repr

/-- The scratchpads of a truss with their bad code words, and its array (10 R218, R220). -/
structure Truss where
  ws : Cells
  as : Cells
  ps : Cells
  wsBad : List Nat
  asBad : List Nat
  psBad : List Nat
  array : ArrayState
  deriving DecidableEq, Repr

/-- Who owns a descriptor (10 R225, 14 R318, 12 R285). -/
inductive DescOwner where
  | host
  | node (c node member : Nat)
  | shard (slot : Nat)
  deriving DecidableEq, Repr

/-- A page-walk descriptor (12 R286), with the row its APPEND began at. -/
structure PageDesc where
  loc : Nat
  mask : List Bool
  slot : Nat
  idx : Nat
  seq : Nat
  last : Bool
  zero : Bool
  write : Bool
  /-- Shadow page, where the rows are also written there. -/
  shadow : Option Nat
  /-- `LT` latched by the node. -/
  lt : Nat
  deriving DecidableEq, Repr

/-- What a descriptor does: it moves bytes between its sides, moves the rows of a page (12 R286), moves one token row of a
COMMIT or RECONCILE, the last one or not (13 R308, R311), writes a tree mask (13 R305), or takes choices and writes the
acceptance record (13 R306). -/
inductive DescJob where
  | sides
  | page (g : PageDesc)
  | row (last : Bool)
  | mask
  | accept
  deriving DecidableEq, Repr

/-- A descriptor of a channel queue (10 R226, R230; 13 R299). -/
structure Desc where
  owner : DescOwner
  srcKind : Nat
  dstKind : Nat
  src : Nat
  dst : Nat
  len : Nat
  job : DescJob
  /-- A peg has changed bits [63:40] of a memory side, or a role the frame does not have is named (11 R249, 04 R109). -/
  fault : Bool
  /-- The 32 bytes as pushed, for the fault record (18 R407). -/
  raw : List Byte
  deriving DecidableEq, Repr

/-- A DMA channel (10 R224, R225). -/
structure Channel where
  queue : List Desc
  /-- Descriptors of the bay controller or page walker whose push waits for room, oldest first. -/
  waiting : List Desc
  /-- Bytes of the head descriptor written, in ascending order. -/
  written : Nat
  /-- Units of the head issued beyond those and not written: reads and writes of own stores and memory (R224). -/
  flight : Nat
  /-- Host data that arrived for the head's next unit (R47). -/
  hostData : Option (List Byte)
  /-- The head's unit stands accepted at its window (R233). -/
  winOk : Bool
  /-- Key version latched by the head, by slot (17 R382). -/
  key : Option (Nat × Nat)
  /-- `BYTES` of the most recently dropped or ended descriptor (10 R245). -/
  done : Nat
  /-- The cycle in which `DISABLE` dropped a head, the unit that head had come to, and whether it was host-pushed
  (R241). -/
  cut : Option (Dword × Nat × Bool)
  deriving DecidableEq, Repr

/-- The contents of the sections of a fault record that the manual does not lay out (18 R407): the running state, the state
of the channels, and the progress counters of the running nodes, a free value. -/
structure RecordFacts where
  running : List (List Nat)
  channels : List (List Nat)
  progress : Nat
  deriving DecidableEq, Repr

/-- A host access to the aperture that waits for a free rotation position of its port (10 R232, R236): a read, or the commit
of a gathered row; with store, truss and row. -/
inductive ApWait where
  | read (st truss row off len : Nat) (e : Ecc)
  | commit (st truss row : Nat) (bytes : Table Byte) (e : Ecc)
  deriving DecidableEq, Repr

/-- The gather buffer of the host aperture (10 R236). -/
structure Gather where
  row : Nat
  bytes : Table Byte
  deriving DecidableEq, Repr

/-- The states of an occupied shard slot (14 R316). -/
inductive ShardState where
  | pending
  | attached
  | bad
  deriving DecidableEq, Repr

/-- A shard (14 R315). -/
structure Shard where
  ctx : Nat
  loc : Nat
  len : Nat
  digest : List Byte
  state : ShardState
  /-- COPY with MOVE: the source slot to free. -/
  move : Option Nat
  /-- The transfer's failure, once one is known: status and DETAIL. -/
  failed : Option (Nat × Nat)
  /-- The transfer has written its last unit. -/
  arrived : Bool
  /-- The bytes written so far, as the digest engine hashes them (R318). -/
  hashed : List Byte
  /-- The function that issued the request, whose routing ID a FETCH reads with (R318). -/
  fn : Fn
  deriving DecidableEq, Repr

/-- A scrub pass of the digest engine (14 R321): the slot being hashed, with whether it was hashed to the end. -/
structure ScrubPass where
  slot : Option Nat
  deriving DecidableEq, Repr

/-- A partition reset in progress (18 R401, R403). -/
structure ResetState where
  phase : Nat
  cause : Nat
  cdetail : Nat
  t0 : Dword
  joined : Bool
  /-- Event mode and trusses in service at t0, and the registers and the queue sections of R407 at t0. -/
  mode : Bool
  trusses : Nat
  regs : List Word
  queues : Cells
  deriving DecidableEq, Repr

/-- A best-effort gathering hold (06 R166): the leader's context and queue, and the raises that have joined, by their
landing order. -/
structure Hold where
  ctx : Nat
  q : Nat
  since : Dword
  joined : List Nat
  deriving DecidableEq, Repr

/-- A committing node that waits for the standby (16 R363): its instance, and the entry it will write. -/
structure MirrorWait where
  ctx : Nat
  node : Nat
  member : Nat
  seq : Nat
  lc : Nat
  lt : Nat
  /-- Whether SLC follows LC. -/
  shadow : Bool
  /-- Tokens that `PART_SPEC_STATUS.COMMITTED` counts with the entry write (13 R308, R314). -/
  count : Nat
  deriving DecidableEq, Repr

/-- A partition (01 R14, R25; 17 R370). -/
structure Partition where
  created : Bool
  tenant : BitVec 16
  /-- Registers by block offset (20 R442). -/
  regs : RegFile
  ctxs : Table Context
  events : Sparse 64
  /-- The write-through copy (04 R113, 18 R411). -/
  evCopy : Sparse 64
  resvs : Table Reservation
  /-- Notices waiting for room (03 R95), and the ring's entries. -/
  notices : List (List Byte)
  noticeRing : Table (List Byte)
  trusses : Table Truss
  chans : Table Channel
  /-- Bytes of the descriptor windows (10 R230). -/
  descWin : Cells
  gather : Option Gather
  /-- Aperture accesses that wait for a rotation position (10 R232). -/
  apQueue : List ApWait
  hold : Option Hold
  /-- Context that last started a best-effort raise (04 R108). -/
  lastCtx : Nat
  landSerial : Nat
  near : Cells
  ext : Cells
  nearPoison : List Nat
  extPoison : List Nat
  /-- Number of the XTS key each external granule was written under; 0 for none (11 R256). -/
  extKey : Table Nat
  /-- Code tables of the regions as they were loaded (11 R264). -/
  cmpTables : Table (List Byte)
  /-- Number of the reserved-region key; 0 for none (11 R256). -/
  reservedKey : Nat
  shards : Table Shard
  scrub : Option ScrubPass
  /-- A partition reset in progress (18 R403). -/
  resetting : Option ResetState
  /-- Fault-record slots (18 R406) and records written. -/
  records : Table Cells
  /-- What the two sections of a record hold whose layout the manual does not give (18 R407). -/
  recordFacts : Table RecordFacts
  recordCount : Nat
  /-- A GV_PARTITION_RESET stands: no reservation has been opened since the reset (03 R93). -/
  resetNotice : Bool
  /-- The channel named by the standing GV_MEM_UNCORRECTABLE notice (03 R94). -/
  memObj : Nat
  /-- Commits that wait for the standby's acknowledgement, oldest first (16 R363). -/
  mirrorWait : List MirrorWait
  deriving DecidableEq, Repr

/-- A mailbox request as accepted (02 R50, R52). -/
structure Request where
  /-- Order of acceptance, which names the request. -/
  id : Nat
  fn : Fn
  opcode : Nat
  seq : Nat
  len : Nat
  payload : List Byte
  /-- Message time it belongs to (R58). -/
  mtime : Nat
  deriving DecidableEq, Repr

/-- A PCIe mailbox (02 R51). -/
structure Mailbox where
  reqBuf : Cells
  respBuf : List Byte
  /-- The accepted request whose response is not yet written; BUSY reads 1 while there is one. -/
  cur : Option Nat
  done : Bool
  overrun : Bool
  seqLo : BitVec 16
  irq : Bool
  irqEn : Bool
  deriving DecidableEq, Repr

/-- A read completion the host received (assumption 5): bytes, and whether EP is set. -/
structure ReadData where
  bytes : List Byte
  ep : Bool
  deriving DecidableEq, Repr

/-- Who reads a register with a shadow of its own (00 R9): a function of the host, or a control core: 0 to 3 the bay
controllers, 4 the chip controller (01 R34). -/
inductive Agent where
  | fn (f : Fn)
  | core (i : Fin 5)
  deriving DecidableEq, Repr

/-- The algorithms of the SPDM responder (17 R396). -/
inductive SpdmAlg where
  | ecdsaP384
  | sha384
  | ecdheSecp384r1
  | aes256Gcm
  deriving DecidableEq, Repr

/-- A response of the SPDM responder: what 17 R396 says it carries. A signature is (r, s). -/
inductive SpdmAnswer where
  | error
  | version
  | capabilities
  | algorithms (sign hash exchange aead : SpdmAlg)
  /-- The digest of the chain in certificate slot 0. -/
  | digests (slot0 : List Byte)
  /-- A portion of the chain in certificate slot 0, and how many bytes follow it. -/
  | certificate (portion : List Byte) (remainder : Nat)
  | challengeAuth (slot0 : List Byte) (signature : Nat × Nat)
  /-- Measurement blocks by index, and a signature where one was asked for. -/
  | measurements (blocks : List (Nat × List Byte)) (signature : Option (Nat × Nat))
  | measurementCount (count : Nat)
  /-- The point of this end. -/
  | keyExchange (point : List Byte) (signature : Nat × Nat)
  | finished
  | sessionEnded
  deriving DecidableEq, Repr

/-- What the module has sent to the outside (assumption 6). -/
inductive Sent where
  | msix (fn : Fn) (vector : Nat)
  /-- Configuration Request Retry Status (02 R63). -/
  | configRetry
  | pin (name : String) (level : Bool)
  /-- A read of host memory, with the routing ID of a function. -/
  | readRequest (fn : Fn) (tag addr len : Nat)
  | hostWrite (addr : Nat) (data : List Byte) (ep : Bool)
  | aer (error : String) (tag : Nat)
  | mctp (msg : List Byte)
  | spdm (port : SpdmPort) (answer : SpdmAnswer)
  | linkFrame (n lane : Nat) (f : LinkFrame)
  | linkMsg (n path tag len seq : Nat)
  | linkTag (n path segment : Nat) (tag : List Byte)
  | linkCredit (n path units : Nat)
  | linkNak (n : Nat) (seqs : List Nat)
  | linkAck (n seq : Nat)
  | linkLane (n : Nat) (live standby : BitVec 4) (widen ack quiet : Bool)
  | squelch (n lane : Nat)
  | sisterAck (b k : Nat)
  /-- What this end sends of its identity as a link trains (15 R327): hash, port, ll and `LNK_COORD`. -/
  | linkIdentity (n hash port ll : Nat) (coord : Word)
  /-- A TIME entry with its stamps (15 R349). -/
  | linkTime (n : Nat) (stamps : List Int)
  | agentRestart (bay : Nat)
  deriving DecidableEq, Repr

/-- The power pins and latches (19 R422, R423, R424). -/
structure Power where
  pwrEn : Bool
  pgOut : Bool
  thermtripN : Bool
  /-- A power-down under R424 latched. -/
  latched : Bool
  deriving DecidableEq, Repr

/-- The boot ROM (02 R62, R64). -/
structure Boot where
  stage : Nat
  failCnt : Nat
  authLast : Nat
  /-- A reading exceeds a self-test limit (R64, 19 R434). -/
  paused : Bool
  nearTrained : Bool
  extTrained : Bool
  nearFailed : List Nat
  extFailed : List Nat
  deriving DecidableEq, Repr

/-- Where an image load comes from (02 R65). -/
inductive LoadSource where
  | pf
  | mgmt
  deriving DecidableEq, Repr

/-- An image load in progress (02 R65): source, image length, bytes so far, whether authentication runs. -/
structure FwLoad where
  source : LoadSource
  length : Nat
  addr : Nat
  bytes : List Byte
  auth : Bool
  /-- What the public-key engine answered about the signature (02 R66, 17 R389): 0 valid, else the reason of the
  rejection. -/
  verdict : Option Nat
  deriving DecidableEq, Repr

/-- The running image as measured (02 R67, 17 R394). -/
structure FwImage where
  measurement : List Byte
  build : Nat
  svn : Nat
  keyIndex : Nat
  deriving DecidableEq, Repr

/-- What a device read of host memory serves (02 R47). -/
inductive ReadUse where
  | firmware
  | channel (k ch : Nat)
  /-- The operation ended; its data is not used. -/
  | dropped
  deriving DecidableEq, Repr

/-- An outstanding device read (02 R43, R47). -/
structure ReadReq where
  tag : Nat
  /-- The function whose routing ID it carries (14 R318). -/
  fn : Fn
  serves : ReadUse
  addr : Nat
  len : Nat
  got : List Byte
  deriving DecidableEq, Repr

/-- An MSI-X vector (20 R440, PCIe base specification): address, data, mask, pending. -/
structure Msix where
  addrLo : Word
  addrHi : Word
  data : Word
  masked : Bool
  pend : Bool
  deriving DecidableEq, Repr

/-- An IDE stream (02 R43, 17 R396). -/
structure Ide where
  key : List Byte
  secure : Bool
  deriving DecidableEq, Repr

/-- PCIe functions (02 R43, R46, R49). -/
structure Pcie where
  numVfs : Nat
  vfEnable : Bool
  reads : List ReadReq
  quarantined : List Nat
  /-- IDE streams: 0 the link stream, 1 the PF's selective stream, 2 + k that of VF k. -/
  ide : Table Ide
  /-- Vectors by function * 32 + vector, function 64 for the PF. -/
  msix : Table Msix
  deriving DecidableEq, Repr

/-- A key version (17 R376, R383). -/
structure KeyVer where
  ver : Nat
  material : List Byte
  deriving DecidableEq, Repr

/-- Who uses a key version (17 R382). -/
inductive KeyUse where
  | dma (k ch : Nat)
  | scrub (k : Nat)
  | linkSend (k c node member : Nat)
  | linkRecv (k c q node member : Nat)
  /-- An ATTEST_GET of a function, by its mailbox. -/
  | attest (f : Nat)
  deriving DecidableEq, Repr

/-- The states of a key slot (17 R376). -/
inductive SlotState where
  | free
  | loaded
  | erasing
  deriving DecidableEq, Repr

/-- A key slot (17 R376). -/
structure KeySlot where
  state : SlotState
  kind : Nat
  tenant : BitVec 16
  current : Option KeyVer
  retiring : Option KeyVer
  /-- Version and user. -/
  users : List (Nat × KeyUse)
  deriving DecidableEq, Repr

/-- An operation that stands at the public-key engine (17 R387). -/
inductive PkeJob where
  /-- A WRAPPED or GENERATE load; the free value is that of a generated scalar. -/
  | load (req : Request) (draw : Nat)
  /-- The signature of the image in `fwLoad` (02 R66). -/
  | verify
  /-- A signature of an ATTEST_GET: the report so far, the key version of its signing slot, and the identity signature once
  that is made (17 R394). -/
  | attest (req : Request) (body : List Byte) (key : Option (Nat × Nat)) (idSig : Option (List Byte))
  /-- The signature of an SPDM response; the session secret of a KEY_EXCHANGE (17 R396). -/
  | sign (port : SpdmPort) (msg : List Byte) (answer : SpdmAnswer) (secret : Option Nat)
  /-- The key of this end for a KEY_EXCHANGE, and the ECDH with the requester's point (17 R396). -/
  | share (port : SpdmPort) (msg : List Byte) (draw : Nat)
  | agree (port : SpdmPort) (msg : List Byte) (scalar : Nat)
  deriving DecidableEq, Repr

/-- A WRAPPED load whose engine operation has ended and whose response waits for its fixed time (17 R378). -/
structure WrappedDone where
  req : Request
  status : Nat
  detail : Nat
  payload : List Byte
  deriving DecidableEq, Repr

/-- The SPDM responder on one port (17 R396): requests of the connection so far, and a session with its state. -/
structure Spdm where
  version : Bool
  caps : Bool
  algs : Bool
  /-- 0 no session, 1 handshake, 2 established. -/
  session : Nat
  /-- Requests and responses of the connection. -/
  transcript : List Byte
  /-- The secret that KEY_EXCHANGE agreed. -/
  secret : Nat
  deriving DecidableEq, Repr

/-- A payload frame that waits to be sent (15 R331, R334). -/
structure OutFrame where
  path : Nat
  /-- The partition whose traffic it is; 64 for transit, and for a binding's own messages. -/
  part : Nat
  body : List Byte
  poison : Bool
  /-- First frame of a message: tag and length of its MSG entry. -/
  msg : Option (Nat × Nat)
  /-- Last frame of a segment: its number, and the tag that follows it. -/
  gtag : Option (Nat × List Byte)
  /-- Last frame of its message. -/
  last : Bool
  /-- The send it belongs to: landing order of its raise, and node (R342). -/
  send : Option (Nat × Nat)
  /-- A frame in transit: inbound link and `SEQ` there. -/
  inbound : Option (Nat × Nat)
  deriving DecidableEq, Repr

/-- The best-effort traffic of a link port (15 R352, 01 R30, R31): frames that wait, the partition whose transfer holds the
arbiter, and the link the last frame took. -/
structure Port where
  waiting : List OutFrame
  holder : Option Nat
  lastLink : Nat
  deriving DecidableEq, Repr

/-- A link (15 R325 to R348). -/
structure Link where
  partner : Option LinkPartner
  /-- The link has carried lanes since reset, whether or not it has a partner now (03 R92, R93). -/
  trained : Bool
  miscable : Bool
  coordOk : Bool
  live : BitVec 4
  standby : BitVec 4
  lostLanes : BitVec 4
  /-- Losses of each lane: the DEVTIMEs, newest first (R348). -/
  lossTimes : Table (List Nat)
  /-- The link-layer hold of a widening (R348). -/
  widening : Bool
  peerQuiet : Bool
  txSeq : BitVec 16
  rxSeq : BitVec 16
  /-- Frames ahead of a gap (R331). -/
  ahead : List LinkFrame
  /-- Frames sent and not acknowledged, with the lane each went on (R331). -/
  replay : List (LinkFrame × Nat)
  /-- Payload frames waiting to be sent, and the path whose turn was last (R334). -/
  sendQ : List OutFrame
  lastPath : Nat
  /-- Frames to be replayed once a widening ends (R348). -/
  again : List Nat
  /-- Frames of each lane that failed their CRC: the DEVTIMEs, newest first (R331). -/
  badTimes : Table (List Nat)
  deriving DecidableEq, Repr

/-- An armed receive (15 R341). -/
structure Arm where
  c : Nat
  /-- Queue of the leader of its run. -/
  q : Nat
  node : Nat
  member : Nat
  tag : Nat
  len : Nat
  /-- Link key slot and version latched at arming (17 R382). -/
  slot : Nat
  ver : Nat
  deriving DecidableEq, Repr

/-- A message announced on a path (15 R331, R341): its tag and length, the receive it matched, and what has arrived. -/
structure LinkMsg where
  tag : Nat
  len : Nat
  arm : Option Arm
  /-- Bodies of frames delivered and not yet opened, with their poison. -/
  frames : List (List Byte × Bool)
  /-- Frames delivered so far. -/
  got : Nat
  /-- Segments opened. -/
  segs : Nat
  /-- Segment counter of its first segment (15 R339). -/
  base : Nat
  /-- Its length is not that of the receive it matched: its frames are discarded. -/
  drop : Bool
  deriving DecidableEq, Repr

/-- A path of this module (15 R334, R336; job 0 for sister traffic, 16 R361). -/
structure Path where
  job : Nat
  kind : Nat
  link : Nat
  outLink : Nat
  cls : Nat
  hops : Nat
  owner : Nat
  fibre : Nat
  peer : Nat
  txCount : Nat
  rxCount : Nat
  /-- Credit to send, in bytes (R341). -/
  credit : Nat
  arms : List Arm
  msgs : List LinkMsg
  /-- Bodies delivered ahead of their MSG entry, and tags ahead of their segment's frames. -/
  early : List (List Byte × Bool)
  tags : Table (List Byte)
  closed : Bool
  /-- In transit, by inbound link * 2^16 + inbound `SEQ`: MSG entries ahead of their first frame, and the outbound `SEQ` of
  frames that went ahead of their MSG entry. -/
  fwdMsgs : Table (Nat × Nat)
  passed : Table Nat
  deriving DecidableEq, Repr

/-- A job (15 R334, R335). -/
structure Job where
  parts : Dword
  tenant : BitVec 16
  keySlot : Nat
  links : List Nat
  /-- The request whose GRANT is not complete (R338). -/
  grant : Option Request
  deriving DecidableEq, Repr

/-- The states of a sister binding (16 R360); `pending` is a primary whose BIND waits for the standby's first heartbeat
(R359). -/
inductive BindState where
  | pending
  | waiting
  | active
  | broken
  | orphaned
  | released
  deriving DecidableEq, Repr

/-- A sister binding (16 R358, R360). -/
structure Binding where
  state : BindState
  /-- The 32-byte payload of the BIND. -/
  payload : List Byte
  cause : Nat
  tenant : BitVec 16
  /-- Commits applied under the binding (R366). -/
  applied : Nat
  /-- Frames that wait for a held link, oldest first: the mirror queues (R361, R364). -/
  queue : List OutFrame
  /-- Partition whose frame left last, and the link it took (R363). -/
  lastPart : Nat
  lastLink : Nat
  /-- Lagged commits sent and not acknowledged, by partition (R364). -/
  unacked : Table Nat
  /-- A primary BIND waits for the standby's first heartbeat (R359). -/
  bindReq : Option Request
  /-- The settlement of R365 is due since this DEVTIME. -/
  settling : Option Dword
  deriving DecidableEq, Repr

/-- The power governor and the thermal level (19 R426, R427, R430). -/
structure Governor where
  cap : Nat
  readings : Readings
  /-- Input-power samples of the last 1 ms, newest first. -/
  samples : List Nat
  level : Nat
  hot : BitVec 4
  tripSrc : Nat
  /-- A reading has come since reset; until then the registers show the reset readings (02 R69). -/
  seen : Bool
  deriving DecidableEq, Repr

/-- Time transfer (15 R349 to R351). -/
structure TimeSync where
  /-- Consecutive offsets within 2 ns. -/
  good : Nat
  /-- Picoseconds by which slewing has moved DEVTIME beyond the whole nanosecond (R350). -/
  subPs : Int
  locked : Bool
  holdover : Bool
  altUsed : Bool
  offset : Int
  deriving DecidableEq, Repr

/-- Why the block stops: raised only where no transaction of the module exists. -/
inductive Fault where
  /-- Raised by the rows that carry host bytes: a write of no byte, or of more than the 512 bytes of Max Payload
  Size, is no PCIe write (02 R43). Safe: the module never sees such a transaction. -/
  | illFormedWrite
  deriving DecidableEq, Repr

/-- Why the block refuses a command. -/
inductive Refusal where
  /-- Raised by an arm of exec whose command has no meaning yet. Safe. -/
  | notModelled (mnemonic : String)
  deriving DecidableEq, Repr

/-- The module: everything the manual gives it, the queue of waiting commands apart. -/
structure Mod where
  /-- Everything sent to the outside, oldest first (assumption 6). -/
  out : List Sent
  /-- Free values drawn so far (assumption 7). -/
  fresh : Nat
  /-- The last host read completion (assumption 5). -/
  read : Option ReadData
  power : Power
  devtime : Dword
  time : TimeSync
  boot : Boot
  fwLoad : Option FwLoad
  fw : Option FwImage
  pcie : Pcie
  /-- Chip-space registers by offset (20 R441). -/
  chip : RegFile
  /-- Shadows and staged halves of 64-bit pairs by agent and offset (00 R9). -/
  shadows : Table Word
  staged : Table Word
  /-- Mailboxes: 0-63 of the VFs, 64 of the PF (02 R51). -/
  mbx : Table Mailbox
  /-- The sideband request in progress (02 R54). -/
  mgmtBusy : Option Nat
  /-- Requests accepted so far. -/
  reqSerial : Nat
  /-- Accepted and not taken up, in order of arrival (02 R59). -/
  arrived : List Request
  /-- Taken up, in order, each waiting for its turn. -/
  taken : List Request
  /-- Acting, response not yet sent. -/
  acting : List Request
  supersede : List (List Byte)
  parts : Table Partition
  keys : Table KeySlot
  pke : List PkeJob
  wrapped : List WrappedDone
  /-- Key-agreement scalar of this power-up (17 R392). -/
  kaScalar : Nat
  spdm : Table Spdm
  links : Table Link
  jobs : Table Job
  paths : Table Path
  binds : Table Binding
  gov : Governor
  /-- Module fault records, newest first (18 R408). -/
  modRecords : List (List Byte)
  /-- Fabric slots held on each directed path (01 R27). -/
  fabric : Table Nat
  /-- Best-effort holder of each directed path: partition and channel (01 R30, R31). -/
  holders : Table (Nat × Nat)
  /-- The best-effort traffic of the link ports (15 R352). -/
  ports : Table Port
  /-- DEVTIME of the last heartbeat of each bay agent (18 R399). -/
  beats : Table Dword
  /-- Order of reservations over the module (03 R87). -/
  resvSerial : Nat
  deriving DecidableEq, Repr

/-- The block: the commands that wait, first in, first out, and the module they act on. -/
structure State where
  pending : List Instr
  mod : Mod
  deriving DecidableEq, Repr

/-! ### Reset values -/

/-- An empty queue. -/
def Queue.reset : Queue := { landed := [], taken := 0 }

/-- A context that does not exist (02 R69, 20 R446). -/
def Context.reset : Context :=
  { created := false, ftz := false, frames := [], lastHandle := 0, queues := [], windows := [], ring := [],
    held := [], run := none, parked := [] }

/-- Array state all zero (17 R372). -/
def ArrayState.reset : ArrayState := { active := [], shadow := [], activeLut := [], shadowLut := [], bank0 := [], bank1 := [] }

/-- Scratchpads all zero with a valid code (17 R372; assumption 9). -/
def Truss.reset : Truss :=
  { ws := [], as := [], ps := [], wsBad := [], asBad := [], psBad := [], array := ArrayState.reset }

/-- A channel with an empty queue (10 R225). -/
def Channel.reset : Channel :=
  { queue := [], waiting := [], written := 0, flight := 0, hostData := none, winOk := false, key := none, done := 0,
    cut := none }

/-- A partition that does not exist (02 R69). -/
def Partition.reset : Partition :=
  { created := false, tenant := 0, regs := [], ctxs := [], events := [], evCopy := [], resvs := [], notices := [],
    noticeRing := [], trusses := [], chans := [], descWin := [], gather := none, apQueue := [], hold := none, lastCtx := 15,
    landSerial := 0, near := [], ext := [], nearPoison := [], extPoison := [], extKey := [], cmpTables := [], reservedKey := 0,
    shards := [], scrub := none, resetting := none, records := [], recordFacts := [], recordCount := 0, resetNotice := false,
    memObj := 0, mirrorWait := [] }

/-- A mailbox at reset (02 R51; assumption 8 for its buffers). -/
def Mailbox.reset : Mailbox :=
  { reqBuf := [], respBuf := [], cur := none, done := false, overrun := false, seqLo := 0, irq := false,
    irqEn := false }

/-- A masked vector with nothing pending (assumption 16). -/
def Msix.reset : Msix := { addrLo := 0, addrHi := 0, data := 0, masked := true, pend := false }

/-- A stream without keys (assumption 8). -/
def Ide.reset : Ide := { key := [], secure := false }

/-- A free key slot (17 R376, R397). -/
def KeySlot.reset : KeySlot :=
  { state := .free, kind := 0, tenant := 0, current := none, retiring := none, users := [] }

/-- An SPDM port before GET_VERSION (assumption 15). -/
def Spdm.reset : Spdm := { version := false, caps := false, algs := false, session := 0, transcript := [], secret := 0 }

/-- An untrained link (15 R353), on which no path had a turn (assumption 32). -/
def Link.reset : Link :=
  { partner := none, trained := false, miscable := false, coordOk := false, live := 0, standby := 0, lostLanes := 0, lossTimes := [],
    widening := false, peerQuiet := false, txSeq := 0, rxSeq := 0, ahead := [], replay := [], sendQ := [], lastPath := 4096
    again := [], badTimes := [] }

/-- A port with nothing waiting, on which no link had a turn (assumption 32). -/
def Port.reset : Port := { waiting := [], holder := none, lastLink := 11 }

/-- The governor at its default cap (02 R69), with the readings of assumption 8. -/
def Governor.reset : Governor :=
  { cap := 3200, readings := { vin := 48000, pin := 0, inlet := 240, flow := 60, die := [240, 240, 240, 240] },
    samples := [], level := 0, hot := 0, tripSrc := 0, seen := false }

/-- Time transfer before the first exchange (15 R350). -/
def TimeSync.reset : TimeSync :=
  { good := 0, subPs := 0, locked := false, holdover := false, altUsed := false, offset := 0 }

/-- The boot ROM at stage 0x0 (02 R62). -/
def Boot.reset : Boot :=
  { stage := 0, failCnt := 0, authLast := 0, paused := false, nearTrained := false, extTrained := false,
    nearFailed := [], extFailed := [] }

/-- PCIe functions with no VF (02 R43; assumption 8). -/
def Pcie.reset : Pcie :=
  { numVfs := 0, vfEnable := false, reads := [], quarantined := [], ide := [], msix := [] }

/-- The module right after power-up (02 R69): every register at its reset value, nothing created, the boot ROM in
stage 0x0. That power is good at reset is the model's choice (assumption 8). -/
def Mod.reset : Mod :=
  { out := [], fresh := 0, read := none,
    power := { pwrEn := true, pgOut := true, thermtripN := true, latched := false },
    devtime := 0, time := TimeSync.reset, boot := Boot.reset, fwLoad := none, fw := none, pcie := Pcie.reset,
    chip := [], shadows := [], staged := [], mbx := [], mgmtBusy := none, reqSerial := 0, arrived := [], taken := [], acting := [],
    supersede := [], parts := [], keys := [], pke := [], wrapped := [], kaScalar := 0, spdm := [], links := [],
    jobs := [], paths := [], binds := [], gov := Governor.reset, modRecords := [], fabric := [], holders := [], ports := [], beats := [],
    resvSerial := 0 }

/-- The block right after reset: an empty queue and the module right after power-up. -/
def State.reset : State := { pending := [], mod := Mod.reset }

end Sys2Proof.Machine
end

