-- ==== Sys2Proof/Machine/Tables.lean ====
section
/-!
DEFINITION. Tables of numbered entries, sparse words and byte memories in their one canonical form, and the
bit fields of registers.
-/

namespace Sys2Proof.Machine

/-! ### Tables -/

/-- Entry `n`, or none where the table does not list it. -/
def Table.find {α : Type} (n : Nat) : Table α → Option α
  | [] => none
  | (m, v) :: t => if m = n then some v else Table.find n t

/-- Entry `n`, or the reset value `d` of its kind. -/
def Table.get {α : Type} (d : α) (n : Nat) (t : Table α) : α := (Table.find n t).getD d

/-- The table with entry `n` at `v`, its numbers still rising. -/
def Table.set {α : Type} (n : Nat) (v : α) : Table α → Table α
  | [] => [(n, v)]
  | (m, w) :: t =>
    if n < m then (n, v) :: (m, w) :: t
    else if m = n then (n, v) :: t
    else (m, w) :: Table.set n v t

/-- The table without entry `n`. -/
def Table.erase {α : Type} (n : Nat) : Table α → Table α
  | [] => []
  | (m, w) :: t => if m = n then Table.erase n t else (m, w) :: Table.erase n t

/-- The table with `f` applied to entry `n` (or to the reset value `d`). -/
def Table.modify {α : Type} (d : α) (n : Nat) (f : α → α) (t : Table α) : Table α :=
  Table.set n (f (Table.get d n t)) t

/-! ### Sparse words and byte memories -/

/-- The canonical form: addresses strictly rising and no word equal to 0, what an unlisted address reads as. -/
def Sparse.wf {w : Nat} : Sparse w → Bool
  | [] => true
  | [(_, v)] => v != 0
  | (a, v) :: (b, u) :: t => v != 0 && decide (a < b) && Sparse.wf ((b, u) :: t)

/-- The word at an address. -/
def Sparse.get {w : Nat} (a : Nat) : Sparse w → BitVec w
  | [] => 0
  | (b, v) :: t => if b = a then v else Sparse.get a t

/-- The memory with a word put at address `a`, its addresses still rising. -/
def Sparse.put {w : Nat} (a : Nat) (v : BitVec w) : Sparse w → Sparse w
  | [] => [(a, v)]
  | (b, u) :: t =>
    if a < b then (a, v) :: (b, u) :: t
    else if b = a then (a, v) :: t
    else (b, u) :: Sparse.put a v t

/-- The memory with `v` at address `a`, in the canonical form: a word of 0 is not listed. -/
def Sparse.set {w : Nat} (a : Nat) (v : BitVec w) (m : Sparse w) : Sparse w :=
  if v = 0 then m.filter fun e => e.1 != a else Sparse.put a v m

/-- The canonical form of a byte memory. -/
abbrev Memory.wf (m : Cells) : Bool := Sparse.wf m

/-- The `n` bytes from address `a`. -/
def Cells.read (m : Cells) : Nat → Nat → List Byte
  | _, 0 => []
  | a, n + 1 => Sparse.get a m :: Cells.read m (a + 1) n

/-- The memory with the bytes written from address `a` on. -/
def Cells.write (m : Cells) : Nat → List Byte → Cells
  | _, [] => m
  | a, b :: bs => Cells.write (Sparse.set a b m) (a + 1) bs

/-- The memory with `n` bytes of 0 from address `a` on. -/
def Cells.clear (m : Cells) (a n : Nat) : Cells := m.filter fun c => !(decide (a ≤ c.1) && decide (c.1 < a + n))

/-- The little-endian number in the `n` bytes from address `a` (00 R8). -/
def Cells.num (m : Cells) (a n : Nat) : Nat := leNat (Cells.read m a n)

/-- The `n` bytes from offset `a` of a byte sequence, 0 beyond its end. -/
def slice (bs : List Byte) (a n : Nat) : List Byte :=
  let cut := (bs.drop a).take n
  cut ++ List.replicate (n - cut.length) 0

/-- The little-endian field of `n` bytes at offset `a` of a structure (00 R8). -/
def fld (bs : List Byte) (a n : Nat) : Nat := leNat ((bs.drop a).take n)

/-- The bytes of a structure with `v` in the `n` bytes at offset `a`. -/
def putFld (bs : List Byte) (a n v : Nat) : List Byte := bs.take a ++ leBytes n v ++ bs.drop (a + n)

/-- `n` bytes of 0. -/
def zeros (n : Nat) : List Byte := List.replicate n 0

/-- Whether every byte is 0: reserved bytes must be. -/
def allZero (bs : List Byte) : Bool := bs.all (· == 0)

/-! ### Register fields -/

/-- The field `[hi:lo]` of a register, as a number (00 R7). -/
def getF (r : Word) (hi lo : Nat) : Nat := bits r.toNat hi lo

/-- The register with its field `[hi:lo]` at `v`, cut to the field's width (00 R7). -/
def setF (r : Word) (hi lo v : Nat) : Word :=
  BitVec.ofNat 32 (r.toNat - bits r.toNat hi lo * 2 ^ lo + v % 2 ^ (hi + 1 - lo) * 2 ^ lo)

/-- Bit `i` of a register. -/
def getB (r : Word) (i : Nat) : Bool := bit r.toNat i

/-- The register with bit `i` at `b`. -/
def setB (r : Word) (i : Nat) (b : Bool) : Word := setF r i i (b2n b)

/-- The mask of the bits `[hi:lo]`. -/
def maskF (hi lo : Nat) : Nat := (2 ^ (hi + 1 - lo) - 1) * 2 ^ lo

/-- A counter field one higher, stopping at its largest value. -/
def satIncF (r : Word) (hi lo : Nat) (by' : Nat := 1) : Word :=
  setF r hi lo (min (getF r hi lo + by') (2 ^ (hi + 1 - lo) - 1))

end Sys2Proof.Machine
end

