-- ==== Sys2Proof/Machine/Ops.lean ====
section
/-!
DEFINITION. The operations that several commands share: reaching a partition, context or register, sending to the
outside, interrupts, events, completion records, notices, and the end of raises.
-/

namespace Sys2Proof.Machine

/-! ### How a command acts -/

/-- A command on a module with power; without power (19 R423, R424) nothing is there to act on (assumption 2). -/
def State.act (s : State) (f : Mod → Mod) : Host.Outcome State Fault Refusal :=
  .next { s with mod := if s.mod.power.pgOut then f s.mod else s.mod }

/-- A command that acts with or without power: the power pins. -/
def State.actAlways (s : State) (f : Mod → Mod) : Host.Outcome State Fault Refusal :=
  .next { s with mod := f s.mod }

/-- A command that carries host bytes; their number must be that of a PCIe write (02 R43). -/
def State.actWrite (s : State) (data : List Byte) (f : Mod → Mod) : Host.Outcome State Fault Refusal :=
  if 0 < data.length ∧ data.length ≤ 512 then s.act f else .fault .illFormedWrite

/-- One nanosecond passes in a powered module (20 R445; assumption 3), one more or none where slewing has gathered it
(15 R350). -/
def State.idle (s : State) : Host.Outcome State Fault Refusal :=
  s.act fun m =>
    let d := m.time.subPs
    if 1000 ≤ d then { m with devtime := m.devtime + 2, time := { m.time with subPs := d - 1000 } }
    else if d ≤ -1000 then { m with time := { m.time with subPs := d + 1000 } }
    else { m with devtime := m.devtime + 1 }

/-! ### Status codes (02 R57) -/

def stOk : Nat := 0x0000
def stBadOpcode : Nat := 0x0001
def stBadLength : Nat := 0x0002
def stBadField : Nat := 0x0003
def stNotPermitted : Nat := 0x0004
def stNotReady : Nat := 0x0005
def stNoResource : Nat := 0x0006
def stUnsupported : Nat := 0x0007
def stAuthFail : Nat := 0x0008
def stRefusedBudget : Nat := 0x0010
def stRefusedDeadline : Nat := 0x0011
def stQueueOverflow : Nat := 0x0012
def stSuperseded : Nat := 0x0013
def stKeyRevoked : Nat := 0x0020
def stIntegrity : Nat := 0x0021
def stTimeout : Nat := 0x0022
def stPartitionReset : Nat := 0x0023
def stGuaranteeSuspended : Nat := 0x0024
def stThermal : Nat := 0x0025
def stAborted : Nat := 0x0026

/-! ### Where registers stand (20 R441, R443, R446, R448; a partition's by block offset) -/

def offArbHold : Nat := 0x10
def offArbHoldCnt : Nat := 0x14
def offLateCpl : Nat := 0x18
def offKsStatus64 : Nat := 0x20
def offPwrTherm : Nat := 0x48
def offPwrGovCnt : Nat := 0x4C
def offLinkStatus (n : Nat) : Nat := 0x20000 + 0x10 * n
def offLinkCtrl (n : Nat) : Nat := 0x20004 + 0x10 * n
def offLinkErr (n : Nat) : Nat := 0x20008 + 0x10 * n
def offCoord : Nat := 0x21000
def offTimeCtrl : Nat := 0x21004
def offTimeStatus : Nat := 0x21008
def offTimeSet : Nat := 0x21010
def offSisStatus (b : Nat) : Nat := 0x40000 + 4 * b

def offRefuseCnt : Nat := 0x10
def offNoticePtr : Nat := 0x14
def offSuspend : Nat := 0x18
def offStall (t : Nat) : Nat := 0x20 + 4 * t
def offGather : Nat := 0x28
def offQnt : Nat := 0x2C
def offBar2Sel : Nat := 0x30
def offNmEcc : Nat := 0x40
def offXmEcc : Nat := 0x44
def offNmErr : Nat := 0x48
def offXmErr : Nat := 0x50
def offCmpStatus : Nat := 0x58
def offKvCtrl : Nat := 0x60
def offKvBase : Nat := 0x68
def offKvStatus : Nat := 0x70
def offSpecStatus : Nat := 0x74
def offShardStatus : Nat := 0x78
def offShardScrub : Nat := 0x7C
def offKsStatus : Nat := 0x80
def offResetStatus : Nat := 0x84
def offWdogCfg : Nat := 0x88
def offWdogStatus : Nat := 0x8C
def offTruss : Nat := 0x90
def offCmpBase (r : Nat) : Nat := 0x400 + 0x40 * r
def offCmpLimit (r : Nat) : Nat := 0x408 + 0x40 * r
def offCmpDir (r : Nat) : Nat := 0x410 + 0x40 * r
def offCmpTbl (r : Nat) : Nat := 0x418 + 0x40 * r
def offCmpCtrl (r : Nat) : Nat := 0x420 + 0x40 * r
def offQdCtrl (c q : Nat) : Nat := 0x10108 + 0x1000 * c + 0x10 * q
def offQdDone (c q : Nat) : Nat := 0x1010C + 0x1000 * c + 0x10 * q
def offCplPtr (c : Nat) : Nat := 0x10140 + 0x1000 * c
def offEvtCtrl : Nat := 0x40000
def offEvtStatus : Nat := 0x40004
def offPfSel : Nat := 0x40008
def offDmaEng : Nat := 0x50000
def offDmaErr : Nat := 0x50004
def offSpEcc : Nat := 0x50008
def offChCtrl (ch : Nat) : Nat := 0x50100 + 0x10 * ch
def offChStatus (ch : Nat) : Nat := 0x50104 + 0x10 * ch
def offWinCtrl (w : Nat) : Nat := 0x60000 + 8 * w
def offWinRange (w : Nat) : Nat := 0x60004 + 8 * w
def offHostSel : Nat := 0x60080

/-- Where the partition block of partition `k` stands in chip space (20 R440). -/
def blockBase (k : Nat) : Nat := 0x1000000 + 0x80000 * k

/-- Reset values of a partition's registers; every register not named resets to 0 (20 R443, R446, R448). -/
def partRegReset (off : Nat) : Word :=
  if off = offShardScrub then 0x3C else if off = offKsStatus then 0xFFFF else if off = offWdogCfg then 0x6400 else 0

/-- Reset values of the chip-space registers (20 R441). -/
def chipRegReset (off : Nat) : Word :=
  if off = offKsStatus64 then 0xFFFF else if off = offTimeCtrl then 0x007F007F else 0

/-- The stored value of a partition's register. -/
def Partition.reg (p : Partition) (off : Nat) : Word := Table.get (partRegReset off) off p.regs

/-- The partition with a register at a value. -/
def Partition.setReg (p : Partition) (off : Nat) (v : Word) : Partition := { p with regs := Table.set off v p.regs }

/-- The partition with a field of a register at a value. -/
def Partition.setFld (p : Partition) (off hi lo v : Nat) : Partition := p.setReg off (setF (p.reg off) hi lo v)

/-- The partition with bit `i` of a register set: a sticky flag. -/
def Partition.flag (p : Partition) (off i : Nat) : Partition := p.setFld off i i 1

/-- The partition with a counting field raised by `n`, saturating. -/
def Partition.count (p : Partition) (off hi lo : Nat) (n : Nat := 1) : Partition :=
  p.setReg off (satIncF (p.reg off) hi lo n)

/-- A 64-bit register of a partition. -/
def Partition.pair (p : Partition) (off : Nat) : Nat := (p.reg off).toNat + (p.reg (off + 4)).toNat * 2 ^ 32

/-- The partition with a 64-bit register at a value. -/
def Partition.setPair (p : Partition) (off v : Nat) : Partition :=
  (p.setReg off (BitVec.ofNat 32 v)).setReg (off + 4) (BitVec.ofNat 32 (v / 2 ^ 32))

/-! ### Reaching partitions, contexts and the rest -/

/-- Partition `k`. -/
def Mod.part (m : Mod) (k : Nat) : Partition := Table.get Partition.reset k m.parts

/-- The module with partition `k` changed. -/
def Mod.modPart (m : Mod) (k : Nat) (f : Partition → Partition) : Mod :=
  { m with parts := Table.modify Partition.reset k f m.parts }

/-- Context `c` of a partition. -/
def Partition.ctx (p : Partition) (c : Nat) : Context := Table.get Context.reset c p.ctxs

/-- The partition with context `c` changed. -/
def Partition.modCtx (p : Partition) (c : Nat) (f : Context → Context) : Partition :=
  { p with ctxs := Table.modify Context.reset c f p.ctxs }

/-- Queue `q` of a context. -/
def Context.queue (x : Context) (q : Nat) : Queue := Table.get Queue.reset q x.queues

/-- The context with queue `q` changed. -/
def Context.modQueue (x : Context) (q : Nat) (f : Queue → Queue) : Context :=
  { x with queues := Table.modify Queue.reset q f x.queues }

/-- The module with context `c` of partition `k` changed. -/
def Mod.modCtx (m : Mod) (k c : Nat) (f : Context → Context) : Mod := m.modPart k fun p => p.modCtx c f

/-- Truss `t` of a partition. -/
def Partition.truss (p : Partition) (t : Nat) : Truss := Table.get Truss.reset t p.trusses

/-- The partition with truss `t` changed. -/
def Partition.modTruss (p : Partition) (t : Nat) (f : Truss → Truss) : Partition :=
  { p with trusses := Table.modify Truss.reset t f p.trusses }

/-- Channel `ch` of a partition's engine. -/
def Partition.chan (p : Partition) (ch : Nat) : Channel := Table.get Channel.reset ch p.chans

/-- The partition with channel `ch` changed. -/
def Partition.modChan (p : Partition) (ch : Nat) (f : Channel → Channel) : Partition :=
  { p with chans := Table.modify Channel.reset ch f p.chans }

/-- The stored value of a chip-space register. -/
def Mod.chipReg (m : Mod) (off : Nat) : Word := Table.get (chipRegReset off) off m.chip

/-- The module with a chip-space register at a value. -/
def Mod.setChip (m : Mod) (off : Nat) (v : Word) : Mod := { m with chip := Table.set off v m.chip }

/-- The module with a field of a chip-space register at a value. -/
def Mod.setChipFld (m : Mod) (off hi lo v : Nat) : Mod := m.setChip off (setF (m.chipReg off) hi lo v)

/-- The module with bit `i` of a chip-space register set. -/
def Mod.chipFlag (m : Mod) (off i : Nat) : Mod := m.setChipFld off i i 1

/-- The module with a counting field of a chip-space register raised by `n`, saturating. -/
def Mod.chipCount (m : Mod) (off hi lo : Nat) (n : Nat := 1) : Mod := m.setChip off (satIncF (m.chipReg off) hi lo n)

/-- Link `n`. -/
def Mod.link (m : Mod) (n : Nat) : Link := Table.get Link.reset n m.links

/-- Port `p`. -/
def Mod.port (m : Mod) (p : Nat) : Port := Table.get Port.reset p m.ports

/-- The module with port `p` changed. -/
def Mod.modPort (m : Mod) (p : Nat) (f : Port → Port) : Mod := { m with ports := Table.modify Port.reset p f m.ports }

/-- The module with link `n` changed. -/
def Mod.modLink (m : Mod) (n : Nat) (f : Link → Link) : Mod := { m with links := Table.modify Link.reset n f m.links }

/-- Key slot `i`. -/
def Mod.keySlot (m : Mod) (i : Nat) : KeySlot := Table.get KeySlot.reset i m.keys

/-- The module with key slot `i` changed. -/
def Mod.modKey (m : Mod) (i : Nat) (f : KeySlot → KeySlot) : Mod := { m with keys := Table.modify KeySlot.reset i f m.keys }

/-- The module with `f` applied to it for every number of a list, in order. -/
def Mod.forAll {α : Type} (m : Mod) (f : Mod → α → Mod) (xs : List α) : Mod := xs.foldl f m

/-- The module with one more thing sent to the outside (assumption 6). -/
def Mod.send (m : Mod) (x : Sent) : Mod := { m with out := m.out ++ [x] }

/-- The next free choice and the module that has drawn it (assumption 7). -/
def Mod.draw (m : Mod) : Nat × Mod := (Config.free m.fresh, { m with fresh := m.fresh + 1 })

/-- A counting field of a chip-space register raised by an open number: what it counts is timed by parts the model leaves
out (assumption 7). -/
def Mod.chipCountSome (m : Mod) (off hi lo : Nat) : Mod :=
  let (d, m) := m.draw
  m.chipCount off hi lo d

/-- Message time of now (02 R58). -/
def Mod.mtime (m : Mod) : Nat := m.devtime.toNat / 16384

/-- The number of partitions. -/
def allParts : List Nat := List.range 64

/-- Whether a partition exists. -/
def Mod.exists? (m : Mod) (k : Nat) : Bool := (m.part k).created

/-- Whether two partitions belong to one tenant (17 R370). DESIGN CHOICE (assumption 49): a partition that does not exist
belongs to no tenant, so naming it counts as naming one of another tenant. -/
def Mod.sameTenant (m : Mod) (j k : Nat) : Bool :=
  m.exists? j && m.exists? k && (m.part j).tenant == (m.part k).tenant

/-! ### Functions and interrupts -/

/-- The number of a function's mailbox and vectors: k for VF k, 64 for the PF, 65 for the sideband. -/
def fnIdx : Fn → Nat
  | .vf k => k.val
  | .pf => 64
  | .mgmt => 65

/-- The number by which records name a function (02 R56, R61, 18 R407). -/
def fnCode : Fn → Nat
  | .vf k => k.val
  | .pf => 0xFFFF
  | .mgmt => 0xFFFE

/-- The function of an `idx` below 65. -/
def fnOfIdx (i : Nat) : Fn := if h : i < 64 then .vf ⟨i, h⟩ else .pf

/-- Whether VF `k` exists (02 R43). -/
def Mod.vfExists (m : Mod) (k : Nat) : Bool := m.pcie.vfEnable && decide (k < m.pcie.numVfs)

/-- Whether a function reaches the registers of partition `k` (20 R442, R443): VF k its own space, the PF its block. -/
def Mod.reaches (m : Mod) (f : Fn) (k : Nat) : Bool :=
  match f with
  | .pf => true
  | .vf j => decide (j.val = k) && m.vfExists k
  | .mgmt => false

/-- Signals MSI-X vector `v` of a function (02 R45): a masked vector is left pending (assumption 16); a VF that
does not exist signals nothing. -/
def Mod.msix (m : Mod) (f : Fn) (v : Nat) : Mod :=
  let there := match f with
    | .pf => true
    | .vf k => m.vfExists k.val
    | .mgmt => false
  let key := fnIdx f * 32 + v
  let e := Table.get Msix.reset key m.pcie.msix
  if there then
    if e.masked then { m with pcie := { m.pcie with msix := Table.set key { e with pend := true } m.pcie.msix } }
    else m.send (.msix f v)
  else m

/-- Signals vector `v` of the VF of partition `k`. -/
def Mod.msixPart (m : Mod) (k v : Nat) : Mod := m.msix (fnOfIdx (k % 64)) v

/-! ### Raises (04 R104) -/

def Raise.frame (r : Raise) : Nat := fld r.record 0 4
def Raise.flag (r : Raise) (i : Nat) : Bool := bit (fld r.record 4 2) i
def Raise.waitEn (r : Raise) : Bool := r.flag 0
def Raise.sigEn (r : Raise) : Bool := r.flag 1
def Raise.inlineEn (r : Raise) : Bool := r.flag 2
def Raise.fence (r : Raise) : Bool := r.flag 3
def Raise.fencePart (r : Raise) : Bool := r.flag 4
def Raise.notify (r : Raise) : Bool := r.flag 5
def Raise.inlineIdx (r : Raise) : Nat := fld r.record 6 1
def Raise.waitPart (r : Raise) : Nat := fld r.record 7 1
def Raise.deadline (r : Raise) : Nat := fld r.record 8 8
def Raise.waitVal (r : Raise) : Nat := fld r.record 16 8
def Raise.sigVal (r : Raise) : Nat := fld r.record 24 8
def Raise.waitEvt (r : Raise) : Nat := fld r.record 32 2
def Raise.sigEvt (r : Raise) : Nat := fld r.record 34 2
def Raise.pegCount (r : Raise) : Nat := fld r.record 36 2
def Raise.sigPart (r : Raise) : Nat := fld r.record 38 1
def Raise.pegSrc (r : Raise) : Nat := fld r.record 40 8
def Raise.inlineVal (r : Raise) : Nat := fld r.record 48 8
def Raise.userTag (r : Raise) : Nat := fld r.record 56 8

/-! ### Events (04 R114, 18 R411) -/

/-- The value an event holds: of the store, or of the copy while the partition is under reset (18 R411, R405). -/
def Partition.event (p : Partition) (e : Nat) : Nat :=
  (Sparse.get e (if p.resetting.isSome then p.evCopy else p.events)).toNat

/-- The partition with an event at a value, written through to the copy (04 R113); during a reset the copy is the
event store (18 R411). -/
def Partition.setEvent (p : Partition) (e v : Nat) : Partition :=
  { p with events := if p.resetting.isSome then p.events else Sparse.set e (BitVec.ofNat 64 v) p.events
           evCopy := Sparse.set e (BitVec.ofNat 64 v) p.evCopy }

/-- A signal of value `v` to event `e`, judged against the value `old` that the event held at the start of the cycle
(04 R114). -/
def Partition.signalFrom (p : Partition) (old e v : Nat) : Partition :=
  if old < v then p.setEvent e (max (p.event e) v) else p.flag offEvtStatus 1

/-- A signal that is alone in its cycle. -/
def Partition.signal (p : Partition) (e v : Nat) : Partition := p.signalFrom (p.event e) e v

/-- Whether the event that a raise of partition `k` waits on holds a value of at least `WAIT_VAL` (04 R115); an event of
another tenant's partition, created after the raise landed, meets nothing (17 R374). -/
def Mod.waitMet (m : Mod) (k : Nat) (r : Raise) : Bool :=
  m.sameTenant k r.waitPart && decide (r.waitVal ≤ (m.part r.waitPart).event r.waitEvt)

/-- A raise of partition `k` whose wait is met from now on, where its event holds the value (04 R115): a met wait stays met
(18 R411). -/
def Raise.latch (r : Raise) (m : Mod) (k : Nat) : Raise := { r with met := r.met || m.waitMet k r }

/-- The raises that stand in the queues of a context, each as `f` leaves it. -/
def Context.mapLanded (x : Context) (f : Raise → Raise) : Context :=
  { x with queues := x.queues.map fun e => (e.1, { e.2 with landed := e.2.landed.map f }) }

/-- The module once every wait that the events now meet is met. -/
def Mod.latchWaits (m : Mod) : Mod :=
  { m with parts := m.parts.map fun e => (e.1, { e.2 with ctxs := e.2.ctxs.map fun x =>
      (x.1, x.2.mapLanded fun r => r.latch m e.1) }) }

/-- A signal: partition, event, value. -/
structure Signal where
  part : Nat
  event : Nat
  value : Nat
  deriving DecidableEq, Repr

/-- Signals that take effect at one instant (04 R111, R114): each is judged against the value its event held before any of
them; a partition that does not exist has no events (20 R450). -/
def Mod.signals (m : Mod) (xs : List Signal) : Mod :=
  (m.forAll (fun m' x => m'.modPart x.part fun p =>
    if p.created then p.signalFrom ((m.part x.part).event x.event) x.event x.value else p) xs).latchWaits

/-- A signal to event `e` of partition `k`. -/
def Mod.signal (m : Mod) (k e v : Nat) : Mod := m.signals [{ part := k, event := e, value := v }]

/-! ### Completion records (04 R111, R112, R107) -/

/-- The 32 bytes of a completion record (04 R112). -/
def cplRecord (r : Raise) (now : Dword) (status detail : Nat) : List Byte :=
  leBytes 8 r.userTag ++ leBytes 8 now.toNat ++ leBytes 8 r.tLand.toNat ++ leBytes 2 status ++ leBytes 2 detail ++
    leBytes 1 (r.q + b2n r.guar * 0x80) ++ zeros 3

/-- Read and write counts of a completion ring (04 R103). -/
def Partition.cplRd (p : Partition) (c : Nat) : Nat := getF (p.reg (offCplPtr c)) 24 16
def Partition.cplWr (p : Partition) (c : Nat) : Nat := getF (p.reg (offCplPtr c)) 8 0

/-- Entries that stand in a completion ring. -/
def Partition.cplDepth (p : Partition) (c : Nat) : Nat := (p.cplWr c + 512 - p.cplRd c) % 512

/-- Writes a record into the ring and advances WR (04 R112). -/
def Partition.cplPush (p : Partition) (c : Nat) (body : List Byte) : Partition :=
  let wr := p.cplWr c
  (p.modCtx c fun x => { x with ring := Table.set (wr % 256) body x.ring }).setFld (offCplPtr c) 8 0 (wr + 1)

/-- Returns one credit of queue `q` (04 R107). -/
def Context.credit (x : Context) (q : Nat) : Context := x.modQueue q fun u => { u with taken := u.taken - 1 }

/-- Pushes a completion record: into the ring; held where the ring is full; dropped as a fifth held record, whose
credit returns (04 R112). The context vector follows once the record stands in the ring (04 R111). -/
def Mod.pushRecord (m : Mod) (k c : Nat) (body : List Byte) (notify : Bool) : Mod :=
  let p := m.part k
  if (p.ctx c).held.isEmpty && decide (p.cplDepth c < 256) then
    let m := m.modPart k fun p => p.cplPush c body
    if notify then m.msixPart k (2 + c) else m
  else if (p.ctx c).held.length < 4 then
    m.modCtx k c fun x => { x with held := x.held ++ [(body, notify)] }
  else
    m.modPart k fun p => (p.modCtx c fun x => x.credit (fld body 28 1 % 4)).flag offEvtStatus 3

/-- A raise at its end: status and DETAIL. -/
structure Ending where
  raise : Raise
  status : Nat
  detail : Nat
  deriving DecidableEq, Repr

/-- The signal of a raise as it ends, with ST_OK and ST_GUARANTEE_SUSPENDED only (04 R111). -/
def Ending.signal (x : Ending) : Option Signal :=
  if x.raise.sigEn && (x.status == stOk || x.status == stGuaranteeSuspended) then
    some { part := x.raise.sigPart, event := x.raise.sigEvt, value := x.raise.sigVal }
  else none

/-- The completion instant of raises that have left their queues (04 R111): QD_DONE counts each, their signals take effect
together, and the records are written in order. A signal reaches partitions of the same tenant only (17 R374): one created
for another tenant since the raise landed takes none (DESIGN CHOICE, assumption 52). -/
def Mod.completeAll (m : Mod) (k c : Nat) (xs : List Ending) : Mod :=
  let m := m.modPart k fun p =>
    xs.foldl (fun p x => p.setReg (offQdDone c x.raise.q) (p.reg (offQdDone c x.raise.q) + 1)) p
  let m := m.signals ((xs.filterMap Ending.signal).filter fun x => m.sameTenant k x.part)
  m.forAll (fun m x => m.pushRecord k c (cplRecord x.raise m.devtime x.status x.detail) x.raise.notify) xs

/-- The completion instant of one raise. -/
def Mod.complete (m : Mod) (k c : Nat) (r : Raise) (status detail : Nat) : Mod :=
  m.completeAll k c [{ raise := r, status := status, detail := detail }]

/-- Rank of a status among several that apply to one raise (03 R72): the lowest is carried. -/
def statusRank (st : Nat) : Nat :=
  ([stPartitionReset, stThermal, stKeyRevoked, stAborted, stTimeout, stIntegrity, stNotPermitted, stBadField,
    stNoResource, stGuaranteeSuspended, stOk].findIdx (· == st))

/-- The first of two endings by 03 R72; between equal ones the earlier. -/
def worseEnding (a : Option (Nat × Nat)) (b : Nat × Nat) : Option (Nat × Nat) :=
  match a with
  | none => some b
  | some x => if statusRank b.1 < statusRank x.1 then some b else some x

/-- The status and DETAIL a raise completes with (03 R72): its run's ending, else by its promise. -/
def finalStatus (r : Raise) (ending : Option (Nat × Nat)) : Nat × Nat :=
  match ending with
  | some e => e
  | none => if r.voided.isSome then (stGuaranteeSuspended, 0) else (stOk, 0)

/-! ### Reservations (03 R73, R74, R77) -/

def Reservation.ctxNo (r : Reservation) : Nat := fld r.payload 0 2 % 16
def Reservation.queueNo (r : Reservation) : Nat := fld r.payload 2 1
def Reservation.frameNo (r : Reservation) : Nat := fld r.payload 4 4
def Reservation.period (r : Reservation) : Nat := fld r.payload 8 8
def Reservation.deadline (r : Reservation) : Nat := fld r.payload 16 8
def Reservation.skew (r : Reservation) : Nat := fld r.payload 24 4
def Reservation.beSlice (r : Reservation) : Nat := fld r.payload 28 4
def Reservation.hostBw (r : Reservation) : Nat := fld r.payload 32 4
def Reservation.job (r : Reservation) : Nat := fld r.payload 36 4
def Reservation.w (r : Reservation) : Nat := fld r.response 8 8
def Reservation.kerf (r : Reservation) : Nat := fld r.response 16 8
def Reservation.lane (r : Reservation) : Nat := fld r.response 24 8
def Reservation.energy (r : Reservation) : Nat := fld r.response 32 4
def Reservation.block (r : Reservation) : Nat := fld r.response 40 8

/-- The reservation that binds queue `q` of context `c`, with its slot. -/
def Partition.resvOf (p : Partition) (c q : Nat) : Option (Nat × Reservation) :=
  p.resvs.find? fun e => e.2.ctxNo == c && e.2.queueNo == q

/-- Whether a queue is bound (04 R103, BOUND). -/
def Partition.bound (p : Partition) (c q : Nat) : Bool := (p.resvOf c q).isSome

/-- Whether a run has a raise from queue `q`. -/
def Run.hasQueue (u : Run) (q : Nat) : Bool := u.members.any fun mb => mb.raise.q == q

/-- The queue of a run's leader, which names the run in its context. -/
def Run.q (u : Run) : Nat :=
  match u.members with
  | [] => 0
  | mb :: _ => mb.raise.q

/-- The started runs of a context: the one that runs, then those stopped at a node boundary. -/
def Context.started (x : Context) : List Run := x.run.toList ++ x.parked.map fun e => e.2

/-- Whether a raise from queue `q` runs in a context (04 R103, RUNNING). -/
def Context.runsQueue (x : Context) (q : Nat) : Bool := x.run.any fun u => u.hasQueue q

/-- Whether a raise from queue `q` has started and not completed. -/
def Context.startedQueue (x : Context) (q : Nat) : Bool := x.started.any fun u => u.hasQueue q

/-- Releases a closed reservation once every raise that landed before the closing has completed (03 R77). -/
def Mod.releaseResv (m : Mod) (k c q : Nat) : Mod :=
  let p := m.part k
  match p.resvOf c q with
  | some (i, r) =>
    if r.closed && ((p.ctx c).queue q).landed.isEmpty && !(p.ctx c).startedQueue q then
      let m := m.modPart k fun p => { p with resvs := Table.erase i p.resvs }
      { m with fabric := r.slots.foldl (fun t e => Table.modify 0 e.1 (· - e.2) t) m.fabric }
    else m
  | none => m

/-! ### Standing conditions (03 R93) -/

/-- Whether a thermal trip stands (19 R430, R431). -/
def Mod.tripStands (m : Mod) : Bool := decide (2 ≤ m.gov.level)

/-- Whether Shutdown stands (19 R432). -/
def Mod.shutStands (m : Mod) : Bool := m.gov.level == 3

/-- Number of set bits of a 4-bit lane mask. -/
def lanesUp (b : BitVec 4) : Nat := b2n (bit b.toNat 0) + b2n (bit b.toNat 1) + b2n (bit b.toNat 2) + b2n (bit b.toNat 3)

/-- Whether a link has two or fewer lanes after it trained (03 R92, R93). -/
def Mod.laneSecond (m : Mod) (n : Nat) : Bool :=
  (m.link n).trained && decide (lanesUp (m.link n).live ≤ 2)

/-- Links of a job. -/
def Mod.jobLinks (m : Mod) (job : Nat) : List Nat :=
  match Table.find job m.jobs with
  | some j => j.links
  | none => []

/-- Whether a link that a job holds has two or fewer lanes. -/
def Mod.jobLaneSecond (m : Mod) (job : Nat) : Bool := job != 0 && (m.jobLinks job).any fun n => m.laneSecond n

/-- The condition that voids raises of a reservation that run now (03 R93): one of those that name running raises, lowest
code first. -/
def Mod.runVoid (m : Mod) (r : Reservation) : Option Nat :=
  if m.tripStands then some 1
  else if m.jobLaneSecond r.job then some 2
  else if r.suspended then some 5
  else none

/-- The condition that voids raises of a reservation that land now (03 R93), lowest code first. -/
def Mod.standing (m : Mod) (k : Nat) (r : Reservation) : Option Nat :=
  if m.tripStands then some 1
  else if m.jobLaneSecond r.job then some 2
  else if getB ((m.part k).reg offSuspend) 3 then some 3
  else if r.suspended then some 5
  else none

/-- Unfinished raises of a queue: those running from it and those landed. -/
def Context.unfinished (x : Context) (q : Nat) : List Raise :=
  (x.started.flatMap fun u => (u.members.map (·.raise)).filter fun r => r.q == q) ++ (x.queue q).landed

/-- Whether a reservation stands suspended by some condition of 03 R93. -/
def Mod.isSuspended (m : Mod) (k : Nat) (r : Reservation) : Bool :=
  (m.standing k r).isSome ||
    (((m.part k).ctx r.ctxNo).unfinished r.queueNo).any fun x => x.voided == some 6 || x.voided == some 7

/-! ### Readings of the sensors (19 R426 to R434) -/

/-- The hottest die sensor, in eighths of a degree (02 R56, 19 R430). -/
def hottest (r : Readings) : Int :=
  match r.die with
  | [] => 0
  | d :: ds => ds.foldl max d

/-- Readings whose hottest die sensor is `t`: the one that was hottest reads it, and no other reads more. -/
def withHottest (r : Readings) (t : Int) : Readings :=
  { r with die := (r.die.map (min t)).set (r.die.findIdx (· == hottest r)) t }

/-- Whether a reading exceeds a self-test limit: inlet above 45 degrees C, or a die at or above 95 (19 R434). -/
def overTestLimit (r : Readings) : Bool := decide (360 < r.inlet) || decide (760 ≤ hottest r)

/-- The module with new readings; every self-test stands paused while one exceeds a limit (02 R64). -/
def Mod.setReadings (m : Mod) (r : Readings) : Mod :=
  { m with gov := { m.gov with readings := r, seen := true }, boot := { m.boot with paused := overTestLimit r } }

/-! ### Notices (03 R94, R95) -/

/-- The 32 bytes of a notice (03 R94). -/
def noticeBytes (now : Dword) (code resv obj state : Nat) : List Byte :=
  leBytes 8 now.toNat ++ leBytes 2 code ++ leBytes 2 resv ++ leBytes 4 obj ++ leBytes 4 state ++ zeros 12

def Partition.noticeRd (p : Partition) : Nat := getF (p.reg offNoticePtr) 22 16
def Partition.noticeWr (p : Partition) : Nat := getF (p.reg offNoticePtr) 6 0
def Partition.noticeDepth (p : Partition) : Nat := (p.noticeWr + 128 - p.noticeRd) % 128

/-- The bit of ADM_SUSPEND that a notice sets as it is written (03 R95): PEER and BAR2. -/
def Partition.noticeMark (p : Partition) (body : List Byte) : Partition :=
  if fld body 8 2 = 7 then p.flag offSuspend 6 else if fld body 8 2 = 6 then p.flag offSuspend 5 else p

/-- Writes a notice into the ring, advances WR and signals vector 18 (03 R94). -/
def Mod.noticePush (m : Mod) (k : Nat) (body : List Byte) : Mod :=
  (m.modPart k fun p =>
    let wr := p.noticeWr
    (({ p with noticeRing := Table.set (wr % 64) body p.noticeRing }).noticeMark body).setFld offNoticePtr 6 0
      (wr + 1)).msixPart k 18

/-- A notice to partition `k`: written, kept pending where the ring is full, dropped beyond 16 (03 R95). -/
def Mod.notice (m : Mod) (k code resv obj state : Nat) : Mod :=
  let p := m.part k
  let body := noticeBytes m.devtime code resv obj state
  if !p.created then m
  else if p.notices.isEmpty && decide (p.noticeDepth < 64) then m.noticePush k body
  else if p.notices.length < 16 then m.modPart k fun p => { p with notices := p.notices ++ [body] }
  else m.modPart k fun p => p.flag offSuspend 7

/-- A notice to every existing partition (19 R431). -/
def Mod.noticeAll (m : Mod) (code state : Nat) : Mod :=
  m.forAll (fun m k => if m.exists? k then m.notice k code 0xFFFF 0 state else m) allParts

/-- Whether the `JOB` of a reservation holds a link. -/
def Mod.resvHolds (m : Mod) (n : Nat) (r : Reservation) : Bool := r.job != 0 && (m.jobLinks r.job).contains n

/-- A notice of one link's condition to every partition with a reservation whose JOB holds the link (03 R93, R94): one for
all where every reservation of the partition is affected, else one each. -/
def Mod.noticeLink (m : Mod) (n state : Nat) : Mod :=
  m.forAll (fun m k =>
    let all := (m.part k).resvs
    let hit := all.filter fun e => m.resvHolds n e.2
    if hit.isEmpty then m
    else if hit.length = all.length then m.notice k 2 0xFFFF n state
    else m.forAll (fun m (e : Nat × Reservation) => m.notice k 2 (16 * k + e.1) n state) hit) allParts

/-! ### Voiding promises (03 R93) -/

/-- A guaranteed-class raise voided by a condition; the first condition stays. -/
def Raise.void (r : Raise) (code : Nat) : Raise :=
  if r.guar && r.voided.isNone then { r with voided := some code } else r

/-- A run whose members `sel` names have their promise voided; a member's promise is its own (06 R169). -/
def Run.void (u : Run) (sel : Raise → Bool) (code : Nat) : Run :=
  { u with members := u.members.map fun mb => if sel mb.raise then { mb with raise := mb.raise.void code } else mb }

/-- The run with the promise of member `i` voided. -/
def Run.voidMember (u : Run) (i code : Nat) : Run :=
  match u.members[i]? with
  | some mb => u.void (fun r => r.serial == mb.raise.serial) code
  | none => u

/-- A raise voided by a condition that it starts itself, with a notice of its own (03 R93, R94: codes 6 and 7). -/
def Raise.voidOwn (r : Raise) (code : Nat) : Raise :=
  if r.guar && r.voided.isNone then { r with voided := some code, noticed := true } else r

/-- The started raises of a context voided where they belong to queue `q`. -/
def Context.voidRun (x : Context) (q code : Nat) : Context :=
  let f (u : Run) : Run := u.void (fun r => r.q == q) code
  { x with run := x.run.map f, parked := x.parked.map fun e => (e.1, f e.2) }

/-- The running raise of a queue and those landed in it voided (19 R431). -/
def Context.voidAll (x : Context) (q code : Nat) : Context :=
  (x.voidRun q code).modQueue q fun u => { u with landed := u.landed.map fun r => r.void code }

/-- The promise of every unfinished guaranteed-class raise of the module voided by a trip (19 R431). -/
def Mod.voidTrip (m : Mod) : Mod :=
  { m with parts := m.parts.map fun e => (e.1, { e.2 with ctxs := e.2.ctxs.map fun x =>
      (x.1, [0, 1, 2, 3].foldl (fun y q => y.voidAll q 1) x.2) }) }

/-- The running raises of the reservations that hold link `n` voided by GV_LANE_SECOND. -/
def Mod.voidLane (m : Mod) (n : Nat) : Mod :=
  m.forAll (fun m k =>
    m.forAll (fun m (e : Nat × Reservation) =>
      if m.resvHolds n e.2 then
        m.modCtx k e.2.ctxNo fun x => x.voidRun e.2.queueNo 2
      else m) (m.part k).resvs) allParts

/-! ### Module fault records (18 R408) -/

/-- Writes a module fault record and signals PF vector 1 (18 R408). -/
def Mod.moduleRecord (m : Mod) (mcause bay parts seq cause : Nat) (t0 : Dword := m.devtime) : Mod :=
  let body := leBytes 4 0x464C544D ++ leBytes 1 mcause ++ leBytes 1 bay ++ zeros 2 ++ leBytes 8 t0.toNat ++
    leBytes 8 parts ++ leBytes 4 seq ++ leBytes 4 cause ++ zeros 2016
  ({ m with modRecords := (body :: m.modRecords).take 16 }).msix .pf 1

/-! ### Users of keys (17 R382) -/

/-- Adds a user of a key version. -/
def Mod.keyUse (m : Mod) (slot ver : Nat) (u : KeyUse) : Mod :=
  m.modKey slot fun s => if s.users.contains (ver, u) then s else { s with users := s.users ++ [(ver, u)] }

/-- Ends the uses that `f` names, in every slot. -/
def Mod.keyRelease (m : Mod) (f : KeyUse → Bool) : Mod :=
  { m with keys := m.keys.map fun e => (e.1, { e.2 with users := e.2.users.filter fun u => !f u.2 }) }

/-! ### Ending raises -/

/-- Whether a descriptor belongs to a node of a context's running raise. -/
def Desc.ofCtx (d : Desc) (c : Nat) : Bool :=
  match d.owner with
  | .node c' _ _ => c' == c
  | _ => false

/-- A channel without the descriptors `f` names; what the head had begun ends with it. -/
def Channel.without (h : Channel) (f : Desc → Bool) : Channel :=
  let gone := match h.queue.head? with
    | some d => f d
    | none => false
  let h0 := h
  let h := { h with queue := h.queue.filter fun d => !f d, waiting := h.waiting.filter fun d => !f d }
  if gone then
    { h with written := 0, flight := 0, hostData := none, winOk := false, key := none, done := h0.written }
  else h

/-- The partition's channels without the descriptors of a context's nodes (10 R240). -/
def Partition.dropCtxDescs (p : Partition) (c : Nat) : Partition :=
  { p with chans := p.chans.map fun e => (e.1, e.2.without fun d => d.ofCtx c) }

/-- Whether every frame of a discarded message has arrived. -/
def LinkMsg.gone (g : LinkMsg) : Bool := g.drop && decide (g.len ≤ 256 * g.got)

/-- A path without the receives of one run of a context; a message that one of them had matched is discarded. -/
def Path.dropRun (p : Path) (c q : Nat) : Path :=
  { p with
    arms := p.arms.filter fun a => !(a.c == c && a.q == q)
    msgs := (p.msgs.map fun g => match g.arm with
      | some a => if a.c = c ∧ a.q = q then { g with arm := none, drop := true, frames := [] } else g
      | none => g).filter fun g => !g.gone }

/-- Whether the run named by leader queue `q` is the one that runs. -/
def Context.current (x : Context) (q : Nat) : Bool := x.run.any fun u => u.q == q

/-- The module without a started run: its descriptors, its armed receives and the uses of keys by its link nodes go with
it, and so do its commits that wait for the standby (15 R341, R344, 17 R382, 12 R297, 13 R313). -/
def Mod.dropRun (m : Mod) (k c q : Nat) : Mod :=
  let cur := ((m.part k).ctx c).current q
  let m := if cur then m.modPart k fun p => p.dropCtxDescs c else m
  let m := { m with paths := m.paths.map fun (e : Nat × Path) =>
    (e.1, if e.2.owner = k then e.2.dropRun c q else e.2) }
  let m := m.keyRelease fun u => match u with
    | .linkSend k' c' _ _ => cur && k' == k && c' == c
    | .linkRecv k' c' q' _ _ => k' == k && c' == c && q' == q
    | _ => false
  let m := if cur then m.modPart k fun p => { p with mirrorWait := p.mirrorWait.filter fun w => w.ctx != c } else m
  m.modCtx k c fun x => if cur then { x with run := none } else { x with parked := Table.erase q x.parked }

/-- What `f` does with the run named by leader queue `q` as the one that runs; a stopped run stays stopped. -/
def Mod.within (m : Mod) (k c q : Nat) (f : Mod → Mod) : Mod :=
  let x := (m.part k).ctx c
  if x.current q then f m
  else
    match Table.find q x.parked with
    | none => m
    | some u =>
      let m := f (m.modCtx k c fun y => { y with run := some u, parked := Table.erase q y.parked })
      m.modCtx k c fun y =>
        { y with run := x.run
                 parked := match y.run with
                   | some v => Table.set q v y.parked
                   | none => y.parked }

/-- The notice that the condition of a raise ends with it, where the raise had started it (03 R93, R94, codes 6 and 7). -/
def Mod.noticeRaiseEnd (m : Mod) (k c : Nat) (r : Raise) : Mod :=
  match r.voided, (m.part k).resvOf c r.q with
  | some code, some (i, _) => if r.noticed then m.notice k code (16 * k + i) 0 0 else m
  | _, _ => m

/-- Completes the run of a context: every member in landing order by its final status (04 R111, 06 R169). The queues
give up their members as the raises complete, and a closed reservation without raises is released (03 R77). -/
def Mod.completeRun (m : Mod) (k c : Nat) (u : Run) (ending : Option (Nat × Nat)) : Mod :=
  let xs := u.members.map fun mb =>
    let st := finalStatus mb.raise ending
    let x : Ending := { raise := mb.raise, status := st.1, detail := st.2 }
    x
  let m := (m.dropRun k c u.q).completeAll k c xs
  let m := m.forAll (fun m (mb : Member) => m.noticeRaiseEnd k c mb.raise) u.members
  m.forAll (fun m q => m.releaseResv k c q) [0, 1, 2, 3]

/-- Ends the run of a context at once with a status, whatever its nodes do. -/
def Mod.endRun (m : Mod) (k c status detail : Nat) : Mod :=
  match ((m.part k).ctx c).run with
  | none => m
  | some u => m.completeRun k c u (worseEnding u.ending (status, detail))

/-- Ends the landed raises of one queue at once with a status, in landing order. -/
def Mod.endQueue (m : Mod) (k c q status detail : Nat) : Mod :=
  let rs := (((m.part k).ctx c).queue q).landed
  let m := m.modCtx k c fun x => x.modQueue q fun u => { u with landed := [] }
  let m := m.forAll (fun m r => (m.complete k c r status detail).noticeRaiseEnd k c r) rs
  m.releaseResv k c q

/-- Ends the started runs of a context at once with a status: the running one first, then those stopped. -/
def Mod.endStarted (m : Mod) (k c status detail : Nat) : Mod :=
  let m := m.endRun k c status detail
  m.forAll (fun m (e : Nat × Run) => m.completeRun k c e.2 (worseEnding e.2.ending (status, detail)))
    ((m.part k).ctx c).parked

/-- The raises of queue `q` that stopped runs hold: heads of the queue again (04 R108, rule 6). -/
def Context.stopped (x : Context) (q : Nat) : List Raise :=
  (x.parked.flatMap fun e => e.2.members.map (·.raise)).filter fun r => r.q == q

/-- The raises that stand in queue `q` of a context: those of a stopped run, then those landed. -/
def Context.standing (x : Context) (q : Nat) : List Raise := x.stopped q ++ (x.queue q).landed

/-- Ends every raise of a context: the running one first, then, queue by queue, those that stand in it (18 R410). -/
def Mod.endCtx (m : Mod) (k c status detail : Nat) : Mod :=
  let m := m.endRun k c status detail
  let x := (m.part k).ctx c
  let m := m.forAll (fun m (e : Nat × Run) => m.dropRun k c e.1) x.parked
  let m := m.modCtx k c fun y => { y with queues := y.queues.map fun e => (e.1, { e.2 with landed := [] }) }
  m.forAll (fun m q =>
    let m := m.forAll (fun m r => (m.complete k c r status detail).noticeRaiseEnd k c r) (x.standing q)
    m.releaseResv k c q) [0, 1, 2, 3]

/-- Marks the run of a context to end with a status once its running nodes have ended (03 R72). -/
def Mod.markRun (m : Mod) (k c status detail : Nat) : Mod :=
  m.modCtx k c fun x => { x with run := x.run.map fun u => { u with ending := worseEnding u.ending (status, detail) } }

/-- Writes a node instance's phase: index node * 64 + member. -/
def Run.setNode (u : Run) (node member : Nat) (ph : NodePhase) : Run :=
  { u with nodes := Table.set (node * 64 + member) ph u.nodes }

/-- A node instance's phase, none before it starts. -/
def Run.phase (u : Run) (node member : Nat) : Option NodePhase := Table.find (node * 64 + member) u.nodes

/-- Trusses of a partition in service (18 R420). -/
def Partition.inService (p : Partition) (t : Nat) : Bool := getB (p.reg offTruss) t

/-- Whether a partition is under reset (18 R405). -/
def Partition.underReset (p : Partition) : Bool := p.resetting.isSome

end Sys2Proof.Machine
end

