-- ==== Sys2Proof/Machine/Mailbox.lean ====
section
/-!
DEFINITION. The mailbox protocol (02 R50 to R61): acceptance, take-up by message time, contradictory orders,
responses, and the identity and health answers.
-/

namespace Sys2Proof.Machine

/-- Whether the PCIe link is up: from the end of stage 0x1 (02 R62, R63) until HALTED. -/
def Mod.pcieUp (m : Mod) : Bool := decide (2 ≤ m.boot.stage) && decide (m.boot.stage ≤ 8)

/-- Whether Molique runs (02 R62). -/
def Mod.running (m : Mod) : Bool := m.boot.stage == 8

/-- A host access acts only while the PCIe link is up. -/
def Mod.host (m : Mod) (f : Mod → Mod) : Mod := if m.pcieUp then f m else m

/-- A configuration request: Configuration Request Retry Status answers it before stage 0x1 ends (02 R63). -/
def Mod.config (m : Mod) (f : Mod → Mod) : Mod := if m.boot.stage < 2 then m.send .configRetry else m.host f

/-- Work of Molique, its agents and the engines they run: only in stage 0x8. -/
def Mod.molique (m : Mod) (f : Mod → Mod) : Mod := if m.running then f m else m

/-- Work of the engines and links: none once the module has halted (02 R62, 18 R416). -/
def Mod.alive (m : Mod) (f : Mod → Mod) : Mod := if m.boot.stage = 0xF then m else f m

/-- Mailbox `i` (02 R51). -/
def Mod.mailbox (m : Mod) (i : Nat) : Mailbox := Table.get Mailbox.reset i m.mbx

/-- The bytes of a response message (02 R50). -/
def responseBytes (r : Request) (status detail : Nat) (payload : List Byte) : List Byte :=
  leBytes 2 r.opcode ++ leBytes 2 0 ++ leBytes 4 r.seq ++ leBytes 4 payload.length ++ leBytes 2 status ++
    leBytes 2 detail ++ payload

/-- Sends the response to a request: over the sideband, or into the response buffer with DONE, BUSY and SEQ_LO in one
step (02 R52, R54). A request whose mailbox was reset since has no one to answer (02 R46). -/
def Mod.respond (m : Mod) (r : Request) (status detail : Nat) (payload : List Byte := []) : Mod :=
  let msg := responseBytes r status detail payload
  match r.fn with
  | .mgmt =>
    if m.mgmtBusy = some r.id then ({ m with mgmtBusy := none }).send (.mctp msg) else m
  | f =>
    let b := m.mailbox (fnIdx f)
    if b.cur = some r.id then
      let b := { b with respBuf := msg ++ b.respBuf.drop msg.length, cur := none, done := true
                        seqLo := BitVec.ofNat 16 r.seq, irq := true }
      let m := { m with mbx := Table.set (fnIdx f) b m.mbx }
      if b.irqEn then m.msix f 0 else m
    else m

/-- Ends an acting request with a response. -/
def Mod.finish (m : Mod) (r : Request) (status detail : Nat) (payload : List Byte := []) : Mod :=
  ({ m with acting := m.acting.filter fun x => x.id != r.id }).respond r status detail payload

/-- The mailbox request that an operation of the public-key engine serves. -/
def PkeJob.request (j : PkeJob) : Option Request :=
  match j with
  | .load r _ => some r
  | .attest r _ _ _ => some r
  | .verify | .sign _ _ _ _ | .share _ _ _ | .agree _ _ _ => none

/-- The length an opcode requires (02 R53), from the request's own fields where it depends on one. -/
def lengthOk (r : Request) : Bool :=
  r.payload.length == r.len &&
  (match r.opcode with
   | 0x01 => r.len == 0
   | 0x02 => r.len == 0
   | 0x03 => if r.fn = .mgmt then decide (12 ≤ r.len) && decide (r.len ≤ 1032) else r.len == 16
   | 0x10 => r.len == 8
   | 0x11 => r.len == 8
   | 0x12 => r.len == 8
   | 0x20 => r.len == 32
   | 0x21 => r.len == 64
   | 0x22 => r.len == 8
   | 0x30 => r.len == 256
   | 0x31 => r.len == 8
   | 0x40 => r.len == 96
   | 0x50 => decide (20 ≤ r.len) && r.len == 32 + 16 * fld r.payload 18 2
   | 0x51 => r.len == 32
   | 0x60 => r.len == 16
   | 0x70 => r.len == 40
   | 0x80 => r.len == 8
   | _ => false)

/-- The opcodes (02 R55). -/
def opcodes : List Nat :=
  [0x01, 0x02, 0x03, 0x10, 0x11, 0x12, 0x20, 0x21, 0x22, 0x30, 0x31, 0x40, 0x50, 0x51, 0x60, 0x70, 0x80]

/-- Whether an opcode is permitted to an issuer (02 R55). -/
def permitted (f : Fn) (op : Nat) : Bool :=
  match f with
  | .pf => true
  | .vf _ => [0x01, 0x02, 0x11, 0x12, 0x20, 0x21, 0x22, 0x30, 0x31, 0x40, 0x60, 0x70].contains op
  | .mgmt => [0x01, 0x02, 0x03, 0x11, 0x31, 0x60, 0x70, 0x80].contains op

/-- Commands that only read (02 R60). -/
def readOnly (op : Nat) : Bool := [0x01, 0x02, 0x60, 0x70].contains op

/-- Whether the current stage answers an opcode (02 R62, R63). -/
def stageAnswers (stage op : Nat) : Bool :=
  if stage = 8 then true
  else if stage = 0xF then op == 0x01
  else [0x01, 0x02, 0x70].contains op || (op == 0x03 && decide (6 ≤ stage))

/-- Whether a request comes from a VF whose partition does not exist, and is none that such a VF may send (17 R373). -/
def Mod.orphan (m : Mod) (r : Request) : Bool :=
  match r.fn with
  | .vf k => !m.exists? k.val && !([0x01, 0x02, 0x70].contains r.opcode)
  | _ => false

/-- The header checks of an accepted request, in order (02 R53): a VF without a partition is refused with DETAIL 0x10
(17 R373). Under Molique a VF's partition is looked for when the request's turn comes, since an earlier command of its
message time may have created it (assumption 20). -/
def Mod.headerCheck (m : Mod) (r : Request) : Option (Nat × Nat) :=
  if !opcodes.contains r.opcode then some (stBadOpcode, 0)
  else if r.len % 4 != 0 || decide (4080 < r.len) || !lengthOk r then some (stBadLength, 0)
  else if !permitted r.fn r.opcode then some (stNotPermitted, if m.orphan r then 0x10 else 0)
  else if !m.running && m.orphan r then some (stNotPermitted, 0x10)
  else if !stageAnswers m.boot.stage r.opcode then some (stNotReady, 0)
  else none

/-- The partitions a request targets (02 R60, 18 R405): a VF acts on its own, the PF on those its payload names. -/
def targets (r : Request) (k : Nat) : Bool :=
  match r.fn with
  | .vf j => j.val == k
  | _ =>
    match r.opcode with
    | 0x10 => fld r.payload 0 1 == k
    | 0x11 => fld r.payload 0 1 == k
    | 0x12 => fld r.payload 0 2 / 16 == k
    | 0x20 => fld r.payload 0 2 / 16 == k
    | 0x21 => fld r.payload 0 2 / 16 == k
    | 0x22 => fld r.payload 0 4 / 16 == k
    | 0x30 => (fld r.payload 0 1 == 4 || fld r.payload 0 1 == 5) && fld r.payload 6 1 == k
    | 0x40 => fld r.payload 2 2 / 16 == k
    | 0x50 => bit (fld r.payload 8 8) k
    | 0x51 => bit (fld r.payload 8 8) k
    | _ => false

/-! ### Contradictory orders (02 R60, R61) -/

/-- Whether a host request acts on the object of a management request, and the number that names the object in the log:
partition, key slot, 0xFFFE for the cap, 0xFFFD for the firmware image. -/
def contradicts (mg h : Request) : Option Nat :=
  match mg.opcode with
  | 0x11 => if !readOnly h.opcode && targets h (fld mg.payload 0 1) then some (fld mg.payload 0 1) else none
  | 0x31 =>
    let s := fld mg.payload 0 2
    if (h.opcode == 0x30 && fld h.payload 2 2 == s) || (h.opcode == 0x31 && fld h.payload 0 2 == s) then some s
    else none
  | 0x80 => if h.opcode == 0x80 then some 0xFFFE else none
  | 0x03 => if h.opcode == 0x03 then some 0xFFFD else none
  | _ => none

/-- The object for which request `mg` supersedes request `h`: a management command, a host command of the same message
time (02 R60). -/
def supersedes (mg h : Request) : Option Nat :=
  if mg.fn = .mgmt ∧ h.fn ≠ .mgmt ∧ mg.mtime = h.mtime then contradicts mg h else none

/-- Writes one entry of the supersede log and signals PF vector 2; the oldest of 256 entries goes (02 R61). It is
written as the winner takes effect, so that DEVTIME is that instant. -/
def Mod.logSupersede (m : Mod) (mg h : Request) (obj : Nat) : Mod :=
  let entry := leBytes 8 m.devtime.toNat ++ leBytes 4 h.mtime ++ leBytes 2 mg.opcode ++ leBytes 2 h.opcode ++
    leBytes 4 mg.seq ++ leBytes 4 h.seq ++ leBytes 2 (fnCode h.fn) ++ leBytes 2 obj ++ zeros 4
  let log := m.supersede ++ [entry]
  ({ m with supersede := log.drop (log.length - 256) }).msix .pf 2

/-- Takes up one request of a message time: refused by its header, or left to act in its turn. -/
def Mod.takeOne (m : Mod) (r : Request) : Mod :=
  match m.headerCheck r with
  | some (st, d) => m.respond r st d
  | none => { m with taken := m.taken ++ [r] }

/-- The take-up of the oldest past message time: management commands first, then host commands, each in order of
arrival (02 R59). -/
def Mod.takeUp (m : Mod) : Mod :=
  let past := m.arrived.filter fun r => decide (r.mtime < m.mtime)
  match past.foldl (fun (a : Option Nat) r => some (match a with | none => r.mtime | some t => min t r.mtime)) none with
  | none => m
  | some t =>
    let now := past.filter fun r => r.mtime == t
    let m := { m with arrived := m.arrived.filter fun r => r.mtime != t }
    let mgs := now.filter fun r => r.fn == .mgmt
    let hosts := now.filter fun r => r.fn != .mgmt
    (mgs ++ hosts).foldl Mod.takeOne m

/-! ### Acting on a request -/

/-- A host request meets the management request `mg` that has just acted: superseded, with its log entry, or left
(02 R60, R61). Whatever `mg` answered, it supersedes once it has passed its header's checks: the manual does not say what
a refusal by the opcode's own checks changes here (DESIGN CHOICE, assumption 44). -/
def Mod.supersedeOne (mg : Request) (m : Mod) (h : Request) : Mod :=
  match supersedes mg h with
  | none => m
  | some o =>
    let m := { m with taken := m.taken.filter fun x => x.id != h.id }
    if m.orphan h then m.respond h stNotPermitted 0x10 else (m.logSupersede mg h o).respond h stSuperseded 0

/-- The host requests of a message time that a management request has superseded by taking effect (02 R60). -/
def Mod.supersedeBy (m : Mod) (mg : Request) : Mod := m.taken.foldl (Mod.supersedeOne mg) m

/-- Whether a request meets a partition under reset (18 R405). A DELETE judges that itself, by check 3 of 17 R371
(DEDUCED, assumption 52). -/
def Mod.resetBlocks (m : Mod) (r : Request) : Bool :=
  !([0x01, 0x02, 0x11, 0x60, 0x70].contains r.opcode) && !(r.opcode == 0x10 && fld r.payload 1 1 == 2) &&
    allParts.any fun k => targets r k && (m.part k).underReset

/-- A command of the mailbox: it acts where the first taken request is its own, by issuer, opcode and sub-operation;
else nothing is there to do (assumption 2). -/
def Mod.mbxRow (m : Mod) (f : Fn) (op : Nat) (sub : Request → Bool) (act : Mod → Request → Mod) : Mod :=
  match m.taken with
  | [] => m
  | r :: rest =>
    if r.fn = f ∧ r.opcode = op ∧ sub r = true then
      let m := { m with taken := rest }
      (if m.orphan r then m.respond r stNotPermitted 0x10
       else if m.resetBlocks r then m.respond r stNotPermitted 0x11
       else act m r).supersedeBy r
    else m

/-- A request that answers later joins those in progress. -/
def Mod.hold (m : Mod) (r : Request) : Mod := { m with acting := m.acting ++ [r] }

/-- A response by the first failing check, or by what follows when all pass. -/
def Mod.judge (m : Mod) (r : Request) (bad : Option (Nat × Nat)) (ok : Mod → Mod) : Mod :=
  match bad with
  | some (st, d) => m.respond r st d
  | none => ok m

/-- The first check of a list that fails, as status and DETAIL. -/
def firstBad (checks : List (Bool × Nat × Nat)) : Option (Nat × Nat) :=
  (checks.find? fun c => c.1).map fun c => c.2

/-- Field checks of a payload: the first broken field by byte offset, as ST_BAD_FIELD. -/
def fieldBad (checks : List (Bool × Nat)) : Option (Nat × Nat) :=
  (checks.find? fun c => c.1).map fun c => (stBadField, c.2)

/-- The first failure of two check lists in order. -/
def orBad (a b : Option (Nat × Nat)) : Option (Nat × Nat) :=
  match a with
  | some x => some x
  | none => b

/-! ### Accepting requests (02 R52, R54) -/

/-- The request that a message spells: its header, and as many payload bytes as LENGTH gives and the message has. -/
def requestOf (id : Nat) (f : Fn) (mtime : Nat) (msg : List Byte) : Request :=
  { id := id, fn := f, opcode := fld msg 0 2, seq := fld msg 4 4, len := fld msg 8 4
    payload := (msg.drop 16).take (min (fld msg 8 4) 4080), mtime := mtime }

/-- A write of 1 to GO (02 R52): the request buffer is copied whole, or OVERRUN is set. -/
def Mod.go (m : Mod) (f : Fn) : Mod :=
  let i := fnIdx f
  let b := m.mailbox i
  if b.cur.isSome then { m with mbx := Table.set i { b with overrun := true } m.mbx }
  else
    let r := requestOf m.reqSerial f m.mtime (Cells.read b.reqBuf 0 4096)
    { m with mbx := Table.set i { b with cur := some m.reqSerial, done := false } m.mbx
             arrived := m.arrived ++ [r], reqSerial := m.reqSerial + 1 }

/-- Whether a function has a mailbox now. -/
def Mod.hasMailbox (m : Mod) (f : Fn) : Bool :=
  match f with
  | .pf => true
  | .vf k => m.vfExists k.val
  | .mgmt => false

/-- MBX_GO (02 R52). -/
def execMbxGo (f : Fn) (s : State) : Host.Outcome State Fault Refusal :=
  s.act fun m => m.host fun m => if m.hasMailbox f then m.go f else m

/-- The static I3C address of the module (19 R422). -/
def i3cAddr : BitVec 7 := BitVec.ofNat 7 (0x40 + Config.addrSel.val)

/-- The level of `MOD_PRSNT_N`, tied to return (19 R422). -/
def modPrsntN : Bool := false

/-- Whether a sideband message is a mailbox message for this module: its I3C address and MCTP type 0x7E (02 R54,
19 R422). -/
def forMailbox (x : SidebandMsg) : Bool := x.addr == i3cAddr && x.type == 0x7E

/-- A mailbox message over the sideband (02 R54): from the end of stage 0x0; a second request while one stands is refused
with DETAIL 1; in HALTED only IDENT_GET is answered (02 R62). The manual gives no answer to a message shorter than the
header of 16 bytes, nor a meaning to bytes beyond `LENGTH`: the first is dropped without a response, the others are
ignored (DESIGN CHOICE, assumption 45). -/
def Mod.mctpRx (m : Mod) (msg : List Byte) : Mod :=
  if m.boot.stage = 0 ∨ msg.length < 16 ∨ (m.boot.stage = 0xF ∧ fld msg 0 2 ≠ 1) then m
  else
    let r := requestOf m.reqSerial .mgmt m.mtime msg
    if m.mgmtBusy.isSome then m.send (.mctp (responseBytes r stNotPermitted 1 []))
    else { m with mgmtBusy := some m.reqSerial, arrived := m.arrived ++ [r], reqSerial := m.reqSerial + 1 }

/-- MCTP_MESSAGE_RX (02 R54). -/
def execMctpMessageRx (msg : SidebandMsg) (s : State) : Host.Outcome State Fault Refusal :=
  s.act fun m => if forMailbox msg then m.mctpRx msg.body else m

/-- MESSAGE_TIME_TAKEUP (02 R59). -/
def execMessageTimeTakeup (s : State) : Host.Outcome State Fault Refusal := s.act fun m => m.takeUp

/-! ### IDENT_GET and HEALTH_GET (02 R56) -/

/-- The ASCII order code of 00 R2. -/
def orderCode : List Byte := [0x5A, 0x42, 0x58, 0x37, 0x2D, 0x4D, 0x39, 0x36]

/-- The 64-byte identity payload (02 R56). -/
def Mod.identity (m : Mod) (f : Fn) : List Byte :=
  slice orderCode 0 16 ++ slice Config.serial 0 16 ++ leBytes 4 Config.siliconRev.toNat ++
    leBytes 4 Config.bootRomVer.toNat ++
    leBytes 8 (if m.running then (match m.fw with | some i => i.build | none => 0) else 0) ++
    leBytes 4 m.boot.stage ++ leBytes 4 (fnCode f) ++ zeros 8

/-- A signed number as the bytes of its two's complement. -/
def sleBytes (n : Nat) (v : Int) : List Byte := leBytes n (v % (2 : Int) ^ (8 * n)).toNat

/-- Links trained with four lanes (02 R56). -/
def Mod.linksUp (m : Mod) : Nat := (m.links.filter fun e => e.2.partner.isSome && lanesUp e.2.live == 4).length

/-- The 32-byte health payload (02 R56). -/
def Mod.health (m : Mod) (f : Fn) : List Byte :=
  let own (n : Nat) : Bool := match f with
    | .vf k => n / 2 == k.val
    | _ => true
  let trussOk := (List.range 128).foldl
    (fun a n => a + b2n (own n && (m.part (n / 2)).inService (n % 2)) * 2 ^ n) 0
  let chansOk (trained : Bool) (failed : List Nat) (per : Nat) : Bool :=
    trained && (match f with
      | .vf k => failed.all fun n => n / per != k.val
      | _ => failed.isEmpty)
  leBytes 16 trussOk ++
    leBytes 4 (b2n m.boot.nearTrained + 2 * b2n m.boot.extTrained +
      4 * b2n (chansOk m.boot.nearTrained m.boot.nearFailed 4) +
      8 * b2n (chansOk m.boot.extTrained m.boot.extFailed 3)) ++
    leBytes 4 m.linksUp ++ sleBytes 4 (hottest m.gov.readings) ++ sleBytes 4 m.gov.readings.inlet

/-- IDENT_GET (02 R56). -/
def execIdentGet (f : Fn) (s : State) : Host.Outcome State Fault Refusal :=
  s.act fun m => m.mbxRow f 0x01 (fun _ => true) fun m r => m.respond r stOk 0 (m.identity f)

/-- HEALTH_GET (02 R56). -/
def execHealthGet (f : Fn) (s : State) : Host.Outcome State Fault Refusal :=
  s.act fun m => m.mbxRow f 0x02 (fun _ => true) fun m r => m.respond r stOk 0 (m.health f)

end Sys2Proof.Machine
end

