-- ==== Sys2Proof/Machine/ResetStart.lean ====
section
/-!
DEFINITION. What holds raises back, the queue registers, and how a partition reset begins, shared by every trigger
(04 R103, R107, R119, 18 R401, R403, R407, R411, R454).
-/

namespace Sys2Proof.Machine

/-! ### Fences (04 R119) -/

/-- Every raise of a partition that has landed and not completed, with its context. -/
def Partition.unfinishedAll (p : Partition) : List (Nat × Raise) :=
  p.ctxs.flatMap fun e => ([0, 1, 2, 3].flatMap fun q => e.2.unfinished q).map fun r => (e.1, r)

/-- Whether a fence holds back a raise of context `c`: its own, or that of a best-effort raise that landed earlier. -/
def Partition.fenced (p : Partition) (c : Nat) (r : Raise) : Bool :=
  !r.guar && p.unfinishedAll.any fun x =>
    decide (x.2.serial < r.serial) &&
      (r.fencePart || (r.fence && x.1 == c) || (!x.2.guar && (x.2.fencePart || (x.2.fence && x.1 == c))))

/-- Whether a best-effort raise waits on its event (04 R115). -/
def Raise.waits (r : Raise) : Bool := r.waitEn && !r.guar && !r.met

/-- Whether a queue is held by `QD_CTRL.HOLD`; the bit has no effect on a bound queue (04 R103). -/
def Partition.queueHeld (p : Partition) (c q : Nat) : Bool := getB (p.reg (offQdCtrl c q)) 0 && !p.bound c q

/-! ### Queue registers (04 R103, R107) -/

/-- `QD_CREDIT` (04 R107). -/
def Partition.qdCredit (p : Partition) (c q : Nat) : Word :=
  if (p.ctx c).created then BitVec.ofNat 32 (64 - ((p.ctx c).queue q).taken) else 0

/-- `QD_STATUS` (04 R103). -/
def Mod.qdStatus (m : Mod) (k c q : Nat) : Word :=
  let p := m.part k
  let x := p.ctx c
  let waiting := match (x.queue q).landed with
    | [] => false
    | r :: _ => (x.stopped q).isEmpty && (r.waits || p.fenced c r)
  BitVec.ofNat 32 (min 64 (x.standing q).length + 0x100 * b2n waiting +
    0x200 * b2n (x.runsQueue q) + 0x400 * b2n (p.bound c q))

/-! ### What a fault record takes at t0 (18 R407, R454) -/

/-- What holds the head raise of a queue (18 R454): the lowest code that applies. -/
def Mod.holdCode (m : Mod) (k c q : Nat) (r : Raise) : Nat :=
  let p := m.part k
  let earlier := p.unfinishedAll.filter fun e => decide (e.2.serial < r.serial)
  if r.waits then 1
  else if !r.guar && r.fence && earlier.any fun e => e.1 == c then 2
  else if !r.guar && r.fencePart && !earlier.isEmpty then 3
  else if p.queueHeld c q then 4
  else 0

/-- A queue-status entry (18 R454). -/
def Mod.queueEntry (m : Mod) (k c q : Nat) : List Byte :=
  let p := m.part k
  let x := p.ctx c
  let head := if (x.stopped q).isEmpty then (x.queue q).landed.head? else none
  let tail := match head with
    | none => leBytes 4 0 ++ zeros 12
    | some r =>
      let code := m.holdCode k c q r
      leBytes 4 code ++ (if code = 1 then leBytes 8 r.waitVal ++ leBytes 2 r.waitEvt ++ leBytes 1 r.waitPart ++ zeros 1
        else zeros 12)
  leBytes 4 (m.qdStatus k c q).toNat ++ leBytes 4 (p.qdCredit c q).toNat ++ leBytes 4 (p.reg (offQdDone c q)).toNat ++ tail

/-- The queue-status and landed-raise sections of a fault record (18 R407). -/
def Mod.recordQueues (m : Mod) (k : Nat) : Cells :=
  let p := m.part k
  let qs : List (Nat × Nat) := (List.range 16).flatMap fun c => [(c, 0), (c, 1), (c, 2), (c, 3)]
  qs.foldl (fun (a : Cells) (e : Nat × Nat) =>
    let x := p.ctx e.1
    let rs := (x.standing e.2).take 64
    Cells.write (Cells.write a (0x6000 + 64 * (4 * e.1 + e.2)) (m.queueEntry k e.1 e.2))
      (0x10000 + 0x1000 * (4 * e.1 + e.2)) (rs.flatMap fun r => slice r.record 0 64)) []

/-- ADM_SUSPEND with the bits that show other state (03 R95). -/
def Mod.suspendReg (m : Mod) (k : Nat) : Word :=
  let p := m.part k
  let open' := p.resvs.filter fun e => !e.2.closed
  let stored := p.reg offSuspend
  let v := setB stored 4 (p.resvs.any fun e => e.2.suspended)
  let v := setB v 2 (open'.any fun e => m.jobLaneSecond e.2.job)
  let v := setB v 1 m.tripStands
  setB v 0 (open'.any fun e => m.isSuspended k e.2)

/-- DMA_ENG_STATUS with its busy bits, read from the queues (10 R242). -/
def Partition.dmaEng (p : Partition) : Word :=
  setF (p.reg offDmaEng) 15 0 ((List.range 16).map fun c => b2n (!(p.chan c).queue.isEmpty) * 2 ^ c).sum

/-- The 16 registers a fault record holds (18 R407), RC fields not cleared. -/
def Mod.recordRegs (m : Mod) (k : Nat) : List Word :=
  let p := m.part k
  [p.dmaEng, p.reg offDmaErr, p.reg offSpEcc, p.reg offNmEcc, p.reg offXmEcc,
   p.reg offCmpStatus, setB (p.reg offEvtStatus) 0 (getB (p.reg offEvtCtrl) 0), m.suspendReg k, p.reg offNoticePtr,
   p.reg offKvStatus, p.reg offSpecStatus, p.reg offShardStatus, p.reg offQnt, p.reg (offStall 0), p.reg (offStall 1),
   p.reg offKsStatus]

/-- Whether a landed raise waits, unmet, on an event of partition `k` (18 R411). -/
def Raise.waitsOn (r : Raise) (k : Nat) : Bool := r.waits && r.waitPart == k

/-- Ends every landed raise that waits, unmet, on an event of partition `k` (18 R411); a closed reservation that this leaves
without raises is released (03 R77). -/
def Mod.endWaiters (m : Mod) (k : Nat) : Mod :=
  m.forAll (fun m j =>
    m.forAll (fun m (e : Nat × Context) =>
      m.forAll (fun m q =>
        let rs := (((m.part j).ctx e.1).queue q).landed
        let m := m.modCtx j e.1 fun x => x.modQueue q fun u => { u with landed := rs.filter fun r => !r.waitsOn k }
        let m := m.forAll (fun m r => m.complete j e.1 r stPartitionReset (0x6000 + k)) (rs.filter fun r => r.waitsOn k)
        m.releaseResv j e.1 q) [0, 1, 2, 3])
      (m.part j).ctxs) allParts

/-- Where a fault-record slot's FLAGS byte stands (18 R407). -/
def recFlags : Nat := 32

/-- The partition whose reset another trigger has joined; a record already written takes the flag (18 R401). -/
def Partition.joinReset (p : Partition) : Partition :=
  match p.resetting with
  | none => p
  | some z =>
    let slot := (p.recordCount - 1) % 32
    let rec0 := Table.get [] slot p.records
    let f := (Sparse.get recFlags rec0).toNat
    { p with resetting := some { z with joined := true }
             records := if 2 ≤ z.phase then
               Table.set slot (Sparse.set recFlags (BitVec.ofNat 8 (f / 2 * 2 + 1)) rec0) p.records else p.records }

/-- The host accesses that wait at a partition's aperture end with its window ports (18 R405): the reads answer 0. -/
def Mod.apAbandon (m : Mod) (k : Nat) : Mod :=
  let reads := (m.part k).apQueue.filterMap fun a => match a with
    | .read _ _ _ _ n _ => some n
    | .commit _ _ _ _ _ => none
  let m := match reads.getLast? with
    | some n => { m with read := some { bytes := zeros n, ep := false } }
    | none => m
  m.modPart k fun p => { p with apQueue := [] }

/-- A trigger of a partition reset (18 R401): it joins a reset in progress, else the reset begins at t0: the phase is
1, VF vector 1 is signalled (18 R403), a re-admission test is abandoned (18 R413), waits on the partition's events
end (18 R411), and no commit that waits for the sister writes its entry any more (12 R297, 16 R368). -/
def Mod.startReset (m : Mod) (k cause cdetail : Nat) : Mod :=
  let p := m.part k
  if !p.created then m
  else if p.underReset then m.modPart k Partition.joinReset
  else
    let z : ResetState :=
      { phase := 1, cause := cause, cdetail := cdetail, t0 := m.devtime, joined := false
        mode := getB (p.reg offEvtCtrl) 0, trusses := getF (p.reg offTruss) 1 0, regs := m.recordRegs k
        queues := m.recordQueues k }
    let m := m.modPart k fun p =>
      (({ p with resetting := some z, mirrorWait := [] }).setFld offResetStatus 28 26 cause).setFld offTruss 5 4 0
    ((m.apAbandon k).endWaiters k).msixPart k 1

end Sys2Proof.Machine
end

