-- ==== Sys2Proof/Machine/Power.lean ====
section
/-!
DEFINITION. Power pins, input protection and PERST# (19 R422 to R424, 02 R69).
-/

namespace Sys2Proof.Machine

/-- The module without power: nothing but fuses persists (19 R423, 02 R68); what was sent stays sent. -/
def Mod.powerDown (m : Mod) (en latched : Bool) : Mod :=
  ({ Mod.reset with
      out := m.out, fresh := m.fresh
      power := { pwrEn := en, pgOut := false, thermtripN := true, latched := latched } }).send (.pin "PG_OUT" false)

/-- The regulators start and PG_OUT is released (19 R423): the state of 02 R69. -/
def Mod.powerUp (m : Mod) (mv : Nat) : Mod :=
  let r := Mod.reset
  ({ r with
      out := m.out, fresh := m.fresh
      power := { pwrEn := true, pgOut := true, thermtripN := true, latched := false }
      gov := { r.gov with readings := { r.gov.readings with vin := mv } } }).send (.pin "PG_OUT" true)

/-- PWR_EN rises after `lowNs` ns low, or V enters the range (19 R423); at least 10 ms low ends a latched power-down
(19 R424). -/
def Mod.powerEnable (m : Mod) (rise : Bool) (mv lowNs : Nat) : Mod :=
  if m.power.pgOut then m
  else
    let latched := m.power.latched && !(rise && decide (10000000 ≤ lowNs))
    let en := m.power.pwrEn || rise
    let m := { m with power := { m.power with pwrEn := en, latched := latched } }
    if en && !latched && decide (42000 ≤ mv) && decide (mv ≤ 56000) then m.powerUp mv else m

/-- POWER_ENABLE (19 R423). -/
def execPowerEnable (rise : Bool) (mv lowNs : Nat) (s : State) : Host.Outcome State Fault Refusal :=
  s.actAlways fun m => m.powerEnable rise mv lowNs

/-- POWER_DISABLE (19 R423): PWR_EN goes low, or a rail leaves regulation with PWR_EN still high. -/
def execPowerDisable (railFault : Bool) (s : State) : Host.Outcome State Fault Refusal :=
  s.actAlways fun m =>
    if m.power.pgOut then m.powerDown railFault false
    else if railFault then m else { m with power := { m.power with pwrEn := false } }

/-- INPUT_OVERVOLTAGE (19 R424): above 56.0 V. -/
def execInputOvervoltage (mv : Nat) (s : State) : Host.Outcome State Fault Refusal :=
  s.act fun m => if 56000 < mv then m.powerDown m.power.pwrEn true else m

/-- INPUT_UNDERVOLTAGE_TIMEOUT (19 R424): below 42.0 V. -/
def execInputUndervoltageTimeout (mv : Nat) (s : State) : Host.Outcome State Fault Refusal :=
  s.act fun m => if mv < 42000 then m.powerDown m.power.pwrEn true else m

/-- INPUT_OVERCURRENT_TIMEOUT (19 R424): above 75 A. -/
def execInputOvercurrentTimeout (amps : Nat) (s : State) : Host.Outcome State Fault Refusal :=
  s.act fun m => if 75 < amps then m.powerDown m.power.pwrEn true else m

/-- PERST (02 R69): every register at its reset value, everything created is gone, the boot ROM restarts. The pins of
power and the readings of the outside are not the module's to reset. -/
def execPerst (s : State) : Host.Outcome State Fault Refusal :=
  s.act fun m =>
    let m' := { Mod.reset with
      out := m.out, fresh := m.fresh, power := { m.power with thermtripN := true }
      boot := { Boot.reset with paused := overTestLimit m.gov.readings }
      gov := { Mod.reset.gov with readings := m.gov.readings } }
    if m.power.thermtripN then m' else m'.send (.pin "THERMTRIP_N" true)

end Sys2Proof.Machine
end

