-- ==== Sys2Proof/Machine/Pcie.lean ====
section
/-!
DEFINITION. PCIe functions, function-level resets, device reads of host memory with late completions, and the shared
arbiters (02 R43 to R49, 01 R30 to R33).
-/

namespace Sys2Proof.Machine

/-! ### Functions -/

/-- NUMVFS_WRITE (02 R43): 1 to 64, only while VF Enable is clear. -/
def execNumvfsWrite (n : Nat) (s : State) : Host.Outcome State Fault Refusal :=
  s.act fun m => m.config fun m =>
    if !m.pcie.vfEnable && decide (1 ≤ n) && decide (n ≤ 64) then { m with pcie := { m.pcie with numVfs := n } } else m

/-- VF_ENABLE_SET (02 R43). -/
def execVfEnableSet (s : State) : Host.Outcome State Fault Refusal :=
  s.act fun m => m.config fun m => { m with pcie := { m.pcie with vfEnable := true } }

/-- The mailbox and MSI-X of a function at their reset values (02 R46, 20 R449). A request of its mailbox completes with
ST_PARTITION_RESET, whether it waits, acts or stands at the public-key engine: its response is discarded and it has no
further effect. What the manual says of a VF's request the model takes for the PF's as well, but for an image load
(assumption 46). -/
def Mod.resetFn (m : Mod) (f : Fn) : Mod :=
  let i := fnIdx f
  let m := m.keyRelease fun u => u == .attest i
  { m with mbx := Table.erase i m.mbx
           arrived := m.arrived.filter fun r => r.fn != f
           taken := m.taken.filter fun r => r.fn != f
           acting := m.acting.filter fun r => r.fn != f
           pke := m.pke.filter fun j => !(j.request.any fun r => r.fn == f)
           wrapped := m.wrapped.filter fun w => w.req.fn != f
           pcie := { m.pcie with msix := m.pcie.msix.filter fun e => e.1 / 32 != i } }

/-- Clears VF Enable: the VFs and their mailboxes go (02 R46). -/
def Mod.vfsGone (m : Mod) : Mod :=
  let m := m.forAll (fun m k => if m.vfExists k then m.resetFn (fnOfIdx k) else m) allParts
  { m with pcie := { m.pcie with vfEnable := false } }

/-- VF_FLR (02 R46): cause FLR, issued by VF k (18 R401, R407). -/
def execVfFlr (k : Fin 64) (s : State) : Host.Outcome State Fault Refusal :=
  s.act fun m => m.config fun m =>
    if m.vfExists k.val then (m.resetFn (.vf k)).startReset k.val 3 k.val else m

/-- PF_FLR (02 R46): every existing partition is reset, VF Enable clears. The manual does not say what becomes of
NumVFs: it keeps its value (DESIGN CHOICE, assumption 46). -/
def execPfFlr (s : State) : Host.Outcome State Fault Refusal :=
  s.act fun m => m.config fun m =>
    (m.vfsGone.resetFn .pf).forAll (fun m k => m.startReset k 3 0xFFFF) allParts

/-- VF_ENABLE_CLEAR (02 R46): every existing partition below NumVFs is reset. -/
def execVfEnableClear (s : State) : Host.Outcome State Fault Refusal :=
  s.act fun m => m.config fun m =>
    if m.pcie.vfEnable then
      m.vfsGone.forAll (fun m k => if k < m.pcie.numVfs then m.startReset k 3 0xFFFF else m) allParts
    else m

/-! ### Device reads of host memory (02 R43, R47 to R49) -/

/-- The first tag from `start` on that `used` does not hold, over at most `fuel` tries. -/
def freeTag (used : List Nat) (start : Nat) : Nat → Nat
  | 0 => start % 16384
  | fuel + 1 => if used.contains (start % 16384) then freeTag used (start + 1) fuel else start % 16384

/-- Issues a read request with a tag that is neither outstanding nor in quarantine (02 R49); which one is the device's
own choice, a free value. At most 768 stand at once (02 R43). -/
def Mod.issueRead (m : Mod) (fn : Fn) (dest : ReadUse) (addr len : Nat) : Mod :=
  if 768 ≤ m.pcie.reads.length then m
  else
    let (d, m) := m.draw
    let used := m.pcie.reads.map (·.tag) ++ m.pcie.quarantined
    let tag := freeTag used d (used.length + 1)
    let q : ReadReq := { tag := tag, fn := fn, serves := dest, addr := addr, len := len, got := [] }
    ({ m with pcie := { m.pcie with reads := m.pcie.reads ++ [q] } }).send (.readRequest fn tag addr len)

/-- The module without an outstanding read. -/
def Mod.dropRead (m : Mod) (tag : Nat) : Mod :=
  { m with pcie := { m.pcie with reads := m.pcie.reads.filter fun q => q.tag != tag } }

/-- Marks the reads of a channel as serving nothing: their operation ended. -/
def Mod.orphanReads (m : Mod) (k ch : Nat) : Mod :=
  { m with pcie := { m.pcie with reads := m.pcie.reads.map fun q =>
      if q.serves = ReadUse.channel k ch then { q with serves := .dropped } else q } }

/-- A late completion (02 R48): discarded, reported through AER, SEEN or MULTI set and the tag recorded. -/
def Mod.lateCompletion (m : Mod) (tag : Nat) : Mod :=
  let v := m.chipReg offLateCpl
  let v := if getB v 31 then setB v 30 true else setB v 31 true
  (m.setChip offLateCpl (setF v 13 0 tag)).send (.aer "Unexpected Completion" tag)

/-- PCIE_TAG_QUARANTINE_END (02 R49). -/
def execPcieTagQuarantineEnd (tag : BitVec 14) (s : State) : Host.Outcome State Fault Refusal :=
  s.act fun m => { m with pcie := { m.pcie with quarantined := m.pcie.quarantined.filter (· != tag.toNat) } }

/-! ### Shared arbiters (01 R30, R33) -/

/-- The bit of FLT_ARB_HOLD of an arbiter (01 R33), none for a pair of bays that is no path. -/
def arbBit : Arbiter → Option Nat
  | .pcieIngress => some 0
  | .fabric s d =>
    if s = d then none else some (1 + 3 * s.val + (if d.val < s.val then d.val else d.val - 1))
  | .port p => some (13 + p.val)

end Sys2Proof.Machine
end

