-- ==== Sys2Proof/Machine/Boot.lean ====
section
/-!
DEFINITION. The boot ROM and the loading and authentication of Molique (02 R62 to R67).
-/

namespace Sys2Proof.Machine

/-- A change of boot stage, with PF vector 3 (02 R45). -/
def Mod.setStage (m : Mod) (stage : Nat) : Mod :=
  if m.boot.stage = stage then m else ({ m with boot := { m.boot with stage := stage } }).msix .pf 3

/-- Distinct items of a list, in order of first occurrence. -/
def dedup (xs : List Nat) : List Nat := xs.foldl (fun a x => if a.contains x then a else a ++ [x]) []

/-- The trusses after the boot ROM's self-test (18 R420, R414): `failed` names trusses (0 to 127) and scratchpads
(128 + truss). -/
def Mod.bistResult (m : Mod) (failed : List Nat) : Mod :=
  m.forAll (fun m k =>
    let bad (t : Nat) : Bool := failed.contains (2 * k + t) || failed.contains (128 + 2 * k + t)
    m.modPart k fun p =>
      let v := p.reg offTruss
      let v := setF v 1 0 (b2n (!bad 0) + 2 * b2n (!bad 1))
      p.setReg offTruss (setF v 7 6 (b2n (bad 0) + 2 * b2n (bad 1)))) allParts

/-- The number of items a stage can fail (02 R62): near channels, external channels, links, and in BIST trusses,
their scratchpads, fabric and crypto engines. -/
def stageItems (stage : Nat) : Nat :=
  match stage with
  | 2 => 256
  | 3 => 192
  | 4 => 96
  | 5 => 512
  | _ => 0

/-- The end of boot stage 0x0 to 0x5 (02 R62): failed items are marked out of service and counted. Stage 0x5 does not
end while its test is paused (02 R64). The key-agreement key is drawn with the fuses (17 R392). -/
def Mod.stageComplete (m : Mod) (failed : List Nat) : Mod :=
  let s := m.boot.stage
  if 6 ≤ s ∨ (s = 5 ∧ m.boot.paused = true) then m
  else
    let bad := dedup (failed.filter fun i => decide (i < stageItems s))
    let m := { m with boot := { m.boot with
      failCnt := min (m.boot.failCnt + bad.length) 0xFFFF
      nearTrained := m.boot.nearTrained || s == 2
      extTrained := m.boot.extTrained || s == 3
      nearFailed := if s = 2 then bad else m.boot.nearFailed
      extFailed := if s = 3 then bad else m.boot.extFailed } }
    let m := if s = 0 then let (d, m) := m.draw; { m with kaScalar := d } else m
    let m := if s = 5 then m.bistResult bad else m
    m.setStage (s + 1)

/-- BOOT_STAGE_COMPLETE (02 R62). -/
def execBootStageComplete (failed : List Nat) (s : State) : Host.Outcome State Fault Refusal :=
  s.act fun m => m.stageComplete failed

/-- The requests of the module lost: no controller is left to answer them. -/
def Mod.mute (m : Mod) : Mod :=
  { m with arrived := [], taken := [], acting := [], mgmtBusy := none, pke := [], wrapped := [], fwLoad := none }

/-- BOOT_FATAL_FAULT (02 R62): in the boot ROM's stages, to 0xF HALTED. -/
def execBootFatalFault (s : State) : Host.Outcome State Fault Refusal :=
  s.act fun m => if m.boot.stage < 8 then m.mute.setStage 0xF else m

/-! ### Image load (02 R65) -/

/-- The longest image: 16 MiB; the shortest: header and signature (02 R65). -/
def imageLenOk (n : Nat) : Bool := decide (320 ≤ n) && decide (n ≤ 0x1000000)

/-- Asks the host for the next bytes of the image, at most 4,096 at a time (02 R43). -/
def Mod.fwReadNext (m : Mod) (l : FwLoad) : Mod :=
  let got := l.bytes.length
  m.issueRead .pf .firmware (l.addr + got) (min 4096 (l.length - got))

/-- FW_LOAD from the PF (02 R65). The manual gives DETAIL 2 for a load from the other source; a PF whose earlier load
still runs, which a Function Level Reset of the PF does not end, gets it as well (DESIGN CHOICE, assumption 46). -/
def Mod.fwLoadPf (m : Mod) (r : Request) : Mod :=
  let len := fld r.payload 8 4
  if m.running then m.respond r stNotPermitted 0
  else if m.fwLoad.isSome then m.respond r stNotPermitted 2
  else if !imageLenOk len then m.respond r stBadField 8
  else if fld r.payload 12 4 != 0 then m.respond r stBadField 12
  else
    let l : FwLoad := { source := .pf, length := len, addr := fld r.payload 0 8, bytes := [], auth := false, verdict := none }
    (({ m with fwLoad := some l }).hold r).fwReadNext l

/-- FW_LOAD (02 R65). -/
def execFwLoad (s : State) : Host.Outcome State Fault Refusal :=
  s.act fun m => m.mbxRow .pf 0x03 (fun _ => true) Mod.fwLoadPf

def imgKeyIndex (b : List Byte) : Nat := fld b 0x1C 4
def imgSvn (b : List Byte) : Nat := fld b 0x0C 4

/-- The first check of 02 R66 that an image fails before its signature. -/
def imageBad (b : List Byte) : Option Nat :=
  let ki := imgKeyIndex b
  if fld b 0 4 != 0x4D4F4C51 || fld b 4 2 != 1 || fld b 6 2 != 0 || fld b 8 4 != b.length || !allZero (slice b 0x20 0x60) ||
      decide (3 < ki) then some 1
  else if slice (Config.sha384 (slice b 0x80 96)) 0 48 != slice (Config.keyHash ki) 0 48 then some 2
  else if getB (Config.revoked.zeroExtend 32) ki then some 3
  else if imgSvn b < Config.minSvn then some 4
  else none

/-- Image data are complete: the stage is 0x7 while authentication runs (02 R62); an image that passes the first four checks
goes to the public-key engine for the fifth (02 R66, 17 R387). -/
def Mod.startAuth (m : Mod) (l : FwLoad) : Mod :=
  let m := if (imageBad l.bytes).isNone then { m with pke := m.pke ++ [PkeJob.verify] } else m
  ({ m with fwLoad := some { l with auth := true } }).setStage 7

/-- The load ends without an image: back to stage 0x6, nothing in progress (02 R65, R66). -/
def Mod.endLoad (m : Mod) : Mod := ({ m with fwLoad := none }).setStage 6

/-- Ends a PF load with a status (02 R65, R47). -/
def Mod.failLoad (m : Mod) (status detail : Nat) : Mod :=
  match m.acting.find? fun r => r.opcode == 0x03 with
  | some r => m.endLoad.finish r status detail
  | none => m.endLoad

/-- Data of a PF load arrive (02 R65): the next read, or authentication. -/
def Mod.fwData (m : Mod) (data : List Byte) : Mod :=
  match m.fwLoad with
  | none => m
  | some l =>
    let l := { l with bytes := l.bytes ++ data }
    if l.length ≤ l.bytes.length then m.startAuth l
    else ({ m with fwLoad := some l }).fwReadNext l

/-- A management chunk (02 R65): a chunk at offset 0 begins a load afresh; the checks of its fields in their order; the
last chunk starts authentication and answers with its result. -/
def Mod.fwChunk (m : Mod) (r : Request) : Mod :=
  let off := fld r.payload 0 4
  let len := fld r.payload 4 4
  let data := r.payload.drop 8
  let fromPf := match m.fwLoad with
    | some l => l.source == .pf
    | none => false
  let authing := match m.fwLoad with
    | some l => l.auth
    | none => false
  if m.running then m.respond r stNotPermitted 0
  else if fromPf || authing then m.respond r stNotPermitted 2
  else
    let have' := if off = 0 then none else m.fwLoad
    let refuse (d : Nat) : Mod := ({ m with fwLoad := none }).respond r stBadField d
    let first := match have' with
      | some l => l.length
      | none => len
    let got := match have' with
      | some l => l.bytes
      | none => []
    if !imageLenOk len || len != first then refuse 4
    else if off != got.length then refuse 0
    else if len < off + data.length then refuse 0
    else
      let l : FwLoad := { source := .mgmt, length := len, addr := 0, bytes := got ++ data, auth := false, verdict := none }
      if l.bytes.length = len then (m.hold r).startAuth l
      else ({ m with fwLoad := some l }).respond r stOk 0

/-- FW_LOAD_CHUNK (02 R65). -/
def execFwLoadChunk (s : State) : Host.Outcome State Fault Refusal :=
  s.act fun m => m.mbxRow .mgmt 0x03 (fun _ => true) Mod.fwChunk

/-- FW_LOAD_CHUNK_TIMEOUT (02 R65): a management load that waits for a chunk is discarded. -/
def execFwLoadChunkTimeout (s : State) : Host.Outcome State Fault Refusal :=
  s.act fun m =>
    match m.fwLoad with
    | some l => if l.source == .mgmt && !l.auth then { m with fwLoad := none } else m
    | none => m

/-! ### Self-test limits (02 R64, 19 R434) -/

/-- INLET_ABOVE_SELF_TEST_LIMIT (19 R434): above 45 degrees C; a running self-test pauses. -/
def execInletAboveSelfTestLimit (inlet : Int) (s : State) : Host.Outcome State Fault Refusal :=
  s.act fun m =>
    if 360 < inlet then m.setReadings { m.gov.readings with inlet := inlet } else m

/-- SELF_TEST_LIMITS_RESTORED (02 R64, 19 R434): inlet at most 45 and die below 95 degrees C; the test resumes. -/
def execSelfTestLimitsRestored (tdie inlet : Int) (s : State) : Host.Outcome State Fault Refusal :=
  s.act fun m =>
    if tdie < 760 ∧ inlet ≤ 360 then
      m.setReadings (withHottest { m.gov.readings with inlet := inlet } tdie)
    else m

end Sys2Proof.Machine
end

