-- ==== Sys2Proof/Machine/Frames.lean ====
section
/-!
DEFINITION. The parts of a Ranayn image that every unit reads (04 R98 to R100), and contexts (04 R96).
-/

namespace Sys2Proof.Machine

/-! ### The image (04 R98 to R100) -/

def frameBoth (img : List Byte) : Bool := bit (fld img 6 2) 0
def frameNodes (img : List Byte) : Nat := fld img 8 2
def framePegs (img : List Byte) : Nat := fld img 10 2
def framePegOff (img : List Byte) : Nat := fld img 16 4
def frameNodeOff (img : List Byte) : Nat := fld img 20 4
def frameEdgeOff (img : List Byte) : Nat := fld img 24 4
def frameEdgeCount (img : List Byte) : Nat := fld img 28 4

/-- `UNIT` of node `i` (04 R100). -/
def nodeUnit (img : List Byte) (i : Nat) : Nat := fld img (frameNodeOff img + 16 * i) 1

/-- `TRUSS` of node `i`: a role (04 R109). -/
def nodeTruss (img : List Byte) (i : Nat) : Nat := fld img (frameNodeOff img + 16 * i + 1) 1

/-- `DMA_PRIO` of node `i`. -/
def nodePrio (img : List Byte) (i : Nat) : Nat := fld img (frameNodeOff img + 16 * i + 2) 1

def nodeBodyOff (img : List Byte) (i : Nat) : Nat := fld img (frameNodeOff img + 16 * i + 4) 4
def nodeBodyLen (img : List Byte) (i : Nat) : Nat := fld img (frameNodeOff img + 16 * i + 8) 4

/-- The body of node `i`. -/
def nodeBody (img : List Byte) (i : Nat) : List Byte := slice img (nodeBodyOff img i) (nodeBodyLen img i)

/-- `DEFAULT`, `KIND` and `EXTENT` of peg `i` (04 R99). -/
def pegDefault (img : List Byte) (i : Nat) : Nat := fld img (framePegOff img + 16 * i) 8
def pegKind (img : List Byte) (i : Nat) : Nat := fld img (framePegOff img + 16 * i + 8) 1
def pegExtent (img : List Byte) (i : Nat) : Nat := fld img (framePegOff img + 16 * i + 12) 4

/-- The edges as pairs: the node that must finish, the node that waits (04 R100). -/
def frameEdges (img : List Byte) : List (Nat × Nat) :=
  (List.range (frameEdgeCount img)).map fun i =>
    (fld img (frameEdgeOff img + 4 * i) 2, fld img (frameEdgeOff img + 4 * i + 2) 2)

/-- The nodes that must finish before node `i`. -/
def framePreds (img : List Byte) (i : Nat) : List Nat :=
  (frameEdges img).filterMap fun e => if e.2 = i then some e.1 else none

/-- The image of the running frame of a context. -/
def Context.image (x : Context) (u : Run) : List Byte :=
  match Table.find u.frame x.frames with
  | some f => f.image
  | none => []

/-- The image that runs in a context. -/
def Context.runImage (x : Context) : List Byte :=
  match x.run with
  | some u => x.image u
  | none => []

/-- The physical truss of a role (04 R109): a frame with BOTH names both trusses by number, one without runs on the
truss it took. -/
def Run.phys (u : Run) (img : List Byte) (role : Nat) : Nat := if frameBoth img then role else u.truss

/-- A running node instance of a context: its run, image and member; none while the partition is under reset (18 R403) or
the module has failed (18 R416). -/
def Mod.nodeAt (m : Mod) (k c node member : Nat) : Option (Run × List Byte × Member) :=
  let p := m.part k
  if p.underReset || !m.running then none
  else
    match (p.ctx c).run with
    | none => none
    | some u =>
      match u.members[member]? with
      | none => none
      | some mb => if u.phase node member = some .running then some (u, (p.ctx c).image u, mb) else none

/-- The run of a context changed. -/
def Mod.modRun (m : Mod) (k c : Nat) (f : Run → Run) : Mod := m.modCtx k c fun x => { x with run := x.run.map f }

/-- A node instance has done its work and only its end is left (04 R111). -/
def Mod.worked (m : Mod) (k c node member : Nat) : Mod := m.modRun k c fun u => u.setNode node member .worked

/-! ### Contexts (04 R96) -/

/-- Whether an issuer owns a global context number (04 R96). -/
def ownsCtx (f : Fn) (x : Nat) : Bool :=
  decide (x < 1024) && (match f with
    | .pf => true
    | .vf k => x / 16 == k.val
    | .mgmt => false)

/-- The checks of CTX_CREATE (04 R96). -/
def Mod.ctxCreateBad (m : Mod) (r : Request) : Option (Nat × Nat) :=
  let x := fld r.payload 0 2
  let flags := fld r.payload 2 2
  let k := x / 16
  let c := x % 16
  let p := m.part k
  let ctx := p.ctx c
  orBad (fieldBad [(!ownsCtx r.fn x, 0), (decide (4 ≤ flags), 2), (fld r.payload 4 4 != 0, 4)])
    (firstBad [
      (!p.created, stNotPermitted, 0),
      (ctx.created && !bit flags 1, stNotPermitted, 1),
      (ctx.created && (p.resvs.any (fun e => e.2.ctxNo == c && !e.2.closed) ||
        [0, 1, 2, 3].any (fun q => !(ctx.queue q).landed.isEmpty) || !ctx.started.isEmpty ||
        p.cplDepth c != 0 || !ctx.held.isEmpty), stNotPermitted, 2)])

/-- The doorbell-page registers of a context at their reset values (20 R449). -/
def Partition.resetPage (p : Partition) (c : Nat) : Partition :=
  { p with regs := p.regs.filter fun e => !(decide (0x10000 + 0x1000 * c ≤ e.1) && decide (e.1 < 0x11000 + 0x1000 * c)) }

/-- A context in its first state (04 R96); handles of an earlier incarnation are not issued again (04 R102). DESIGN CHOICE
(assumption 49): the entries of its completion ring are cleared with the pointers. -/
def Mod.ctxCreate (m : Mod) (r : Request) : Mod :=
  m.judge r (m.ctxCreateBad r) fun m =>
    let x := fld r.payload 0 2
    let k := x / 16
    let c := x % 16
    let m := m.modPart k fun p =>
      (p.resetPage c).modCtx c fun old =>
        { Context.reset with created := true, ftz := bit (fld r.payload 2 2) 0, lastHandle := old.lastHandle }
    m.respond r stOk 0

/-- CTX_CREATE (04 R96). -/
def execCtxCreate (f : Fn) (s : State) : Host.Outcome State Fault Refusal :=
  s.act fun m => m.mbxRow f 0x12 (fun _ => true) Mod.ctxCreate

end Sys2Proof.Machine
end

