-- ==== Sys2Proof/Machine/Formats.lean ====
section
/-!
DEFINITION. The element formats: encodings, packing, block scaling, special values, exact arithmetic and conversions
(05 R122 to R146). A number is carried exactly, as a sign, an integer and a power of two; rounding happens where a
result is encoded.
-/

namespace Sys2Proof.Machine

/-- A value of a floating-point computation: NaN, an infinity, or the exact number (-1)^neg * mag * 2^exp; magnitude 0
is a zero of that sign (05 R125, R127). -/
inductive FNum where
  | nan
  | inf (neg : Bool)
  | fin (neg : Bool) (mag : Nat) (exp : Int)
  deriving DecidableEq, Repr

/-! ### Format bytes (05 R122, R123) -/

/-- Width of an element format in bits (05 R122). -/
def elemWidth (f : Nat) : Nat := [32, 16, 16, 8, 8, 6, 6, 4, 8, 4, 4].getD f 8

/-- Element format of a format byte. -/
def fmtElem (b : Nat) : Nat := b % 16

/-- Block size of a format byte, 0 without MX scaling (05 R122). -/
def fmtBlock (b : Nat) : Nat :=
  match (b / 16) % 4 with
  | 1 => 32
  | 2 => 16
  | _ => 0

/-- Whether the module provides the format that a byte names (05 R122, R123). -/
def fmtProvided (b : Nat) : Bool :=
  decide (fmtElem b ≤ 0xA) && decide (b < 0x40) && (b / 16) % 4 != 3 &&
    ((b / 16) % 4 == 0 || (decide (3 ≤ fmtElem b) && decide (fmtElem b ≤ 8)))

/-- Whether an element format is a floating-point format. -/
def isFloat (f : Nat) : Bool := decide (f ≤ 7)

/-! ### Floating-point fields (05 R124, R126) -/

def expBits (f : Nat) : Nat := [8, 8, 5, 4, 5, 3, 2, 2].getD f 8
def manBits (f : Nat) : Nat := [23, 7, 10, 3, 2, 2, 3, 1].getD f 23
def expBias (f : Nat) : Nat := [127, 127, 15, 7, 15, 3, 1, 1].getD f 127

/-- Whether the format has infinities: FP32, BF16, FP16, E5M2. -/
def hasInf (f : Nat) : Bool := [0, 1, 2, 4].contains f

/-- Whether the format has a NaN: those and E4M3. -/
def hasNan (f : Nat) : Bool := decide (f ≤ 4)

/-- The canonical NaN (05 R126, R127); code 0 where the format has none (05 R144). -/
def canonNan (f : Nat) : Nat := [0x7FC00000, 0x7FC0, 0x7E00, 0x7F, 0x7E, 0, 0, 0].getD f 0

/-- The code of the largest finite value (05 R126). -/
def maxCode (f : Nat) : Nat := [0x7F7FFFFF, 0x7F7F, 0x7BFF, 0x7E, 0x7B, 0x1F, 0x1F, 0x7].getD f 0

/-- The code of positive infinity, in a format that has one. -/
def infCode (f : Nat) : Nat := (2 ^ expBits f - 1) * 2 ^ manBits f

/-- The value of a floating-point code (05 R124, R125). -/
def decodeFloat (f code : Nat) : FNum :=
  let e := (code / 2 ^ manBits f) % 2 ^ expBits f
  let mant := code % 2 ^ manBits f
  let neg := bit code (expBits f + manBits f)
  if hasInf f && e == 2 ^ expBits f - 1 then (if mant = 0 then .inf neg else .nan)
  else if f == 3 && e == 15 && mant == 7 then .nan
  else if e = 0 then .fin neg mant (1 - (expBias f : Int) - manBits f)
  else .fin neg (2 ^ manBits f + mant) ((e : Int) - expBias f - manBits f)

/-- A two's complement integer of `w` bits. -/
def decodeInt (w code : Nat) : Int :=
  let c := code % 2 ^ w
  if bit c (w - 1) then (c : Int) - 2 ^ w else c

/-- The number equal to an integer. -/
def numInt (i : Int) : FNum := .fin (decide (i < 0)) i.natAbs 0

/-- A number times a power of two. -/
def FNum.scale (x : FNum) (e : Int) : FNum :=
  match x with
  | .fin s a b => .fin s a (b + e)
  | y => y

/-- The value of an unscaled element (05 R125, R128); a codebook code has none of its own. -/
def decodeElem (f code : Nat) : FNum :=
  if isFloat f then decodeFloat f code
  else if f = 8 then numInt (decodeInt 8 code)
  else if f = 9 then numInt (decodeInt 4 code)
  else numInt code

/-- The value of an element of a block under an E8M0 scale (05 R130, R132). -/
def decodeMx (f scale code : Nat) : FNum :=
  if scale = 255 then .nan
  else
    let v := if f = 8 then (numInt (decodeInt 8 code)).scale (-6) else decodeElem f code
    v.scale ((scale : Int) - 127)

/-! ### Rounding and encoding (05 R137, R143, R144) -/

/-- ⌊log2⌋ of mag * 2^exp for a positive magnitude. -/
def magLog2 (mag : Nat) (exp : Int) : Int := (Nat.log2 mag : Int) + exp

/-- `mag / 2^sh` rounded: toward zero, or to nearest with ties to even. -/
def roundShift (rtz : Bool) (mag sh : Nat) : Nat :=
  let q := mag / 2 ^ sh
  let r := mag % 2 ^ sh
  if rtz || decide (2 * r < 2 ^ sh) then q
  else if 2 ^ sh < 2 * r then q + 1
  else q + q % 2

/-- The magnitude rounded to a quantum 2^q: the number of quanta. -/
def quanta (rtz : Bool) (mag : Nat) (exp q : Int) : Nat :=
  if q ≤ exp then mag * 2 ^ (exp - q).toNat else roundShift rtz mag (q - exp).toNat

/-- The code of a positive magnitude rounded to a format, its exponent field unbounded above (05 R143): field and
mantissa as one number, whose successor is the next value. -/
def roundCode (f : Nat) (rtz : Bool) (mag : Nat) (exp : Int) : Nat :=
  if mag = 0 then 0
  else
    let mb := manBits f
    let q0 : Int := 1 - (expBias f : Int) - mb
    let q := max q0 (magLog2 mag exp - mb)
    (q - q0).toNat * 2 ^ mb + quanta rtz mag exp q

/-- The result of rounding a number into a floating-point format (05 R143, R144). -/
def encodeFloat (f : Nat) (rtz sat : Bool) (x : FNum) : Nat :=
  let sign (neg : Bool) : Nat := if neg then 2 ^ (expBits f + manBits f) else 0
  match x with
  | .nan => canonNan f
  | .inf s => if sat || !hasNan f then sign s + maxCode f else if hasInf f then sign s + infCode f else canonNan f
  | .fin s a e =>
    let c := roundCode f rtz a e
    if c ≤ maxCode f then sign s + c
    else if sat || rtz || !hasNan f then sign s + maxCode f
    else if hasInf f then sign s + infCode f
    else canonNan f

/-- A number rounded to nearest even in a format that has infinities: the result of arithmetic (05 R137). -/
def roundTo (f : Nat) (x : FNum) : Nat := encodeFloat f false false x

/-- A number rounded to an integer (05 R145). -/
def roundInt (rtz : Bool) (mag : Nat) (exp : Int) : Nat := quanta rtz mag exp 0

/-- The result of a conversion into INT8 or INT4 (05 R145), as a two's complement code of `w` bits. -/
def encodeInt (w : Nat) (rtz : Bool) (x : FNum) : Nat :=
  let top : Nat := 2 ^ (w - 1)
  match x with
  | .nan => 0
  | .inf s => if s then top else top - 1
  | .fin s a e =>
    let n := roundInt rtz a e
    if s then (2 ^ w - min n top) % 2 ^ w else min n (top - 1)

/-- A number in an unscaled destination format (05 R142 to R146). -/
def encodeElem (f : Nat) (rtz sat : Bool) (x : FNum) : Nat :=
  if isFloat f then encodeFloat f rtz sat x
  else if f = 8 then encodeInt 8 rtz x
  else encodeInt 4 rtz x

/-! ### Flush to zero (05 R135, R136) -/

/-- Whether the fall-back acts on a format: FP32, BF16, FP16. -/
def ftzActs (f : Nat) : Bool := decide (f ≤ 2)

/-- A value below the smallest normal of a format read or written as a zero of its sign (05 R135). -/
def flushNum (ftz : Bool) (f : Nat) (x : FNum) : FNum :=
  match x with
  | .fin s a e => if ftz && ftzActs f && a != 0 && decide (magLog2 a e < 1 - (expBias f : Int)) then .fin s 0 0 else x
  | y => y

/-- The value of an element as the array or vector engine reads it (05 R135). -/
def readElem (ftz : Bool) (f code : Nat) : FNum := flushNum ftz f (decodeElem f code)

/-- A result as the vector engine writes it in a floating-point format (05 R135, R137). -/
def writeFloat (ftz : Bool) (f : Nat) (x : FNum) : Nat := roundTo f (flushNum ftz f x)

/-! ### Exact arithmetic and special values (05 R138, R139) -/

/-- The signed integer of a number at a common exponent. -/
def signedAt (s : Bool) (a : Nat) (e base : Int) : Int :=
  let v : Int := (a : Int) * (2 : Int) ^ (e - base).toNat
  if s then -v else v

/-- a + b, exactly (05 R138). -/
def FNum.add (x y : FNum) : FNum :=
  match x, y with
  | .nan, _ => .nan
  | _, .nan => .nan
  | .inf s, .inf t => if s = t then .inf s else .nan
  | .inf s, _ => .inf s
  | _, .inf t => .inf t
  | .fin s a e, .fin t b g =>
    let base := min e g
    let v := signedAt s a e base + signedAt t b g base
    if v = 0 then .fin (s && t) 0 0 else .fin (decide (v < 0)) v.natAbs base

/-- a * b, exactly (05 R138). -/
def FNum.mul (x y : FNum) : FNum :=
  match x, y with
  | .nan, _ => .nan
  | _, .nan => .nan
  | .inf s, .inf t => .inf (s != t)
  | .inf s, .fin t b _ => if b = 0 then .nan else .inf (s != t)
  | .fin s a _, .inf t => if a = 0 then .nan else .inf (s != t)
  | .fin s a e, .fin t b g => .fin (s != t) (a * b) (e + g)

/-- The number with its sign changed; NaN has none. -/
def FNum.neg (x : FNum) : FNum :=
  match x with
  | .nan => .nan
  | .inf s => .inf !s
  | .fin s a e => .fin (!s) a e

/-- Whether x < y; false where either is NaN (05 R140). -/
def FNum.lt (x y : FNum) : Bool :=
  match x, y with
  | .nan, _ => false
  | _, .nan => false
  | .inf s, .inf t => s && !t
  | .inf s, _ => s
  | _, .inf t => !t
  | .fin s a e, .fin t b g => decide (signedAt s a e (min e g) < signedAt t b g (min e g))

/-- Whether a number is NaN. -/
def FNum.isNan (x : FNum) : Bool := x == .nan

/-- Whether a number is a zero of negative sign. -/
def FNum.isNegZero (x : FNum) : Bool :=
  match x with
  | .fin true 0 _ => true
  | _ => false

/-- Maximum (05 R139). -/
def FNum.max (x y : FNum) : FNum :=
  if x.isNan || y.isNan then .nan
  else if x.lt y then y
  else if y.lt x then x
  else if x.isNegZero then y
  else x

/-- Minimum (05 R139). -/
def FNum.min (x y : FNum) : FNum :=
  if x.isNan || y.isNan then .nan
  else if x.lt y then x
  else if y.lt x then y
  else if x.isNegZero then x
  else y

/-- FP32 codes as numbers and back: the arithmetic of the units that work in FP32 (05 R137). -/
def f32 (c : Nat) : FNum := decodeFloat 0 c
def toF32 (x : FNum) : Nat := roundTo 0 x

/-! ### Block encoding (05 R133) -/

/-- Exponent of the largest normal value of an element format (05 R133). -/
def emaxOf (f : Nat) : Int := [0, 0, 0, 8, 15, 4, 2, 2, 0].getD f 0

/-- One element of a block, v / 2^e rounded with saturation; a negative value keeps its sign as it rounds to 0 (05 R133). -/
def blockCode (f : Nat) (rtz : Bool) (e : Int) (x : FNum) : Nat :=
  let v := x.scale (-e)
  if f = 8 then encodeInt 8 rtz (v.scale 6)
  else
    match v with
    | .fin s a g => if a = 0 then 0 else encodeFloat f rtz true (.fin s a g)
    | y => encodeFloat f rtz true y

/-- The scale byte and element codes of a block (05 R133). -/
def encodeBlock (f : Nat) (rtz : Bool) (xs : List FNum) : Nat × List Nat :=
  let bad (x : FNum) : Bool := match x with
    | .fin _ _ _ => false
    | _ => true
  if xs.any bad then (0xFF, xs.map fun _ => 0)
  else
    let logs := xs.filterMap fun x => match x with
      | .fin _ a e => if a = 0 then none else some (magLog2 a e)
      | _ => none
    let e : Int := match logs with
      | [] => -127
      | l :: ls => min 127 (max (-127) (ls.foldl max l - emaxOf f))
    ((e + 127).toNat, xs.map (blockCode f rtz e))

/-! ### Packing (05 R129) -/

/-- Codes of `w` bits packed densely in ascending order (05 R129). -/
def packNat (w : Nat) : List Nat → Nat
  | [] => 0
  | c :: cs => c % 2 ^ w + 2 ^ w * packNat w cs

/-- The bytes of packed codes. -/
def packCodes (w : Nat) (cs : List Nat) : List Byte := leBytes (ceilDiv (w * cs.length) 8) (packNat w cs)

/-- Code `j` of a packed byte sequence. -/
def unpackCode (w : Nat) (bs : List Byte) (j : Nat) : Nat :=
  leNat ((bs.drop (w * j / 8)).take 5) / 2 ^ (w * j % 8) % 2 ^ w

/-- Code `j` of packed elements that start at byte `a` of a memory. -/
def Cells.elem (m : Cells) (a w j : Nat) : Nat :=
  leNat (Cells.read m (a + w * j / 8) ((w * j % 8 + w + 7) / 8)) / 2 ^ (w * j % 8) % 2 ^ w

end Sys2Proof.Machine
end

