-- ==== Sys2Proof/Machine/Queues.lean ====
section
/-!
DEFINITION. Completion rings, notices and reservations as the host and Molique act on them (04 R103 to R121,
03 R77, R93, R95).
-/

namespace Sys2Proof.Machine

/-! ### Rings (04 R112, R121, 03 R95) -/

/-- CPL_RECORD_RETRY (04 R112): held records are pushed, oldest first, while the ring has room; after a module failure no
record is written (18 R416). -/
def Mod.cplRetry (m : Mod) (k c : Nat) : Mod :=
  m.forAll (fun m (h : List Byte × Bool) =>
    if (m.part k).cplDepth c < 256 then
      let m := m.modPart k fun p => (p.modCtx c fun x => { x with held := x.held.drop 1 }).cplPush c h.1
      if h.2 then m.msixPart k (2 + c) else m
    else m) ((m.part k).ctx c).held

def execCplRecordRetry (k : Fin 64) (c : Fin 16) (s : State) : Host.Outcome State Fault Refusal :=
  s.act fun m => m.alive fun m => m.cplRetry k.val c.val

/-- Whether a register of a partition takes host writes through a function now (20 R450, R451). -/
def Mod.writable (m : Mod) (f : Fn) (k : Nat) : Bool :=
  m.reaches f k && (m.part k).created && !(m.part k).underReset

/-- A write of EVT_CPL_PTR.RD (04 R121): the records passed return their credits; a value beyond WR or backwards is
ignored. -/
def Mod.cplRdWrite (m : Mod) (k c : Nat) (value : Word) : Mod :=
  let p := m.part k
  let rd := p.cplRd c
  let new := getF value 24 16
  let n := (new + 512 - rd) % 512
  if n ≤ (p.cplWr c + 512 - rd) % 512 then
    m.modPart k fun p =>
      let x := (List.range n).foldl (fun (x : Context) i =>
        x.credit (fld (Table.get [] ((rd + i) % 256) x.ring) 28 1 % 4)) (p.ctx c)
      (p.modCtx c fun _ => x).setFld (offCplPtr c) 24 16 new
  else m

/-- CPL_RD_WRITE (04 R121). -/
def execCplRdWrite (f : Fn) (k : Fin 64) (c : Fin 16) (value : Word) (s : State) : Host.Outcome State Fault Refusal :=
  s.act fun m => m.host fun m =>
    if m.writable f k.val && ((m.part k.val).ctx c.val).created then m.cplRdWrite k.val c.val value else m

/-- A write of ADM_NOTICE_PTR.RD (03 R95, 04 R121). -/
def Mod.noticeRdWrite (m : Mod) (k : Nat) (value : Word) : Mod :=
  let p := m.part k
  let rd := p.noticeRd
  let new := getF value 22 16
  if (new + 128 - rd) % 128 ≤ (p.noticeWr + 128 - rd) % 128 then m.modPart k fun p => p.setFld offNoticePtr 22 16 new
  else m

/-- NOTICE_RD_WRITE (04 R121). -/
def execNoticeRdWrite (f : Fn) (k : Fin 64) (value : Word) (s : State) : Host.Outcome State Fault Refusal :=
  s.act fun m => m.host fun m => if m.writable f k.val then m.noticeRdWrite k.val value else m

/-- NOTICE_PUSH_RETRY (03 R95): pending notices are written, oldest first, while the ring has room. -/
def Mod.noticeRetry (m : Mod) (k : Nat) : Mod :=
  m.forAll (fun m body =>
    if (m.part k).noticeDepth < 64 then
      (m.modPart k fun p => { p with notices := p.notices.drop 1 }).noticePush k body
    else m) (m.part k).notices

def execNoticePushRetry (k : Fin 64) (s : State) : Host.Outcome State Fault Refusal :=
  s.act fun m => m.molique fun m => m.noticeRetry k.val

/-! ### Arming, suspensions (04 R117, 03 R93) -/

/-- EVT_CTRL_ARM (04 R117, R118). -/
def execEvtCtrlArm (f : Fn) (k : Fin 64) (s : State) : Host.Outcome State Fault Refusal :=
  s.act fun m => m.host fun m =>
    if m.writable f k.val then m.modPart k.val fun p => p.flag offEvtCtrl 0 else m

/-- A write of 1 to ADM_SUSPEND.MEM (03 R93, R95): the condition ends, with its notice. -/
def Mod.memClear (m : Mod) (k : Nat) : Mod :=
  if getB ((m.part k).reg offSuspend) 3 then
    (m.modPart k fun p => p.setFld offSuspend 3 3 0).notice k 3 0xFFFF (m.part k).memObj 0
  else m

/-- ADM_SUSPEND_MEM_CLEAR (03 R93). -/
def execAdmSuspendMemClear (f : Fn) (k : Fin 64) (s : State) : Host.Outcome State Fault Refusal :=
  s.act fun m => m.host fun m => if m.writable f k.val then m.memClear k.val else m

/-! ### Closing a reservation (03 R77) -/

/-- RESV_CLOSE (03 R77): the reservation closes; with ABORT its running raise ends at the next node boundary and those
landed end with ST_ABORTED; it is released once its raises have completed. -/
def Mod.resvClose (m : Mod) (r : Request) : Mod :=
  let id := fld r.payload 0 4
  let flags := fld r.payload 4 4
  let k := id / 16
  let own := match r.fn with
    | .pf => true
    | .vf j => decide (k = j.val)
    | .mgmt => false
  if 1 < flags then m.respond r stBadField 4
  else
    match (if own && decide (id < 1024) then Table.find (id % 16) (m.part k).resvs else none) with
    | none => m.respond r stNotPermitted 0
    | some v =>
      if v.closed then m.respond r stNotPermitted 0
      else
        let m := m.modPart k fun p => { p with resvs := Table.set (id % 16) { v with closed := true } p.resvs }
        let m := if flags = 1 then
            let f (u : Run) : Run := if u.hasQueue v.queueNo then { u with abort := true } else u
            (m.modCtx k v.ctxNo fun x =>
              { x with run := x.run.map f, parked := x.parked.map fun e => (e.1, f e.2) }).endQueue
              k v.ctxNo v.queueNo stAborted 0
          else m
        (m.releaseResv k v.ctxNo v.queueNo).respond r stOk 0

/-- RESV_CLOSE (03 R77). -/
def execResvClose (f : Fn) (s : State) : Host.Outcome State Fault Refusal :=
  s.act fun m => m.mbxRow f 0x22 (fun _ => true) Mod.resvClose

end Sys2Proof.Machine
end

