-- ==== Sys2Proof/Machine/Governor.lean ====
section
/-!
DEFINITION. The power governor, energy admission under the cap, and thermal protection (19 R425 to R437,
03 R86, R87). Temperatures are in eighths of a degree, flow in units of 0.05 L/min.
-/

namespace Sys2Proof.Machine

/-! ### Energy of reservations (03 R86, R87) -/

/-- Energy of one reservation over 1 ms, in microjoules (03 R86). -/
def Reservation.energyMs (r : Reservation) : Nat := r.energy * (ceilDiv 1000000 r.period + 1)

/-- Every reservation of the module with its partition and slot. -/
def Mod.allResvs (m : Mod) : List (Nat × Nat × Reservation) :=
  allParts.flatMap fun k => (m.part k).resvs.map fun e => (k, e.1, e.2)

/-- The inequality of 03 R86 for a total in microjoules beyond the standing draw. -/
def capFits (cap total : Nat) : Bool := decide (620000 + total ≤ cap * 1000)

/-- Energy of the reservations not suspended (03 R87). -/
def Mod.activeEnergy (m : Mod) : Nat :=
  ((m.allResvs.filter fun e => !e.2.2.suspended).map fun e => e.2.2.energyMs).sum

/-- Suspends or resumes one reservation, with its notice (03 R87, R94); a suspension voids its running raise (03 R93). -/
def Mod.setSuspended (m : Mod) (k i : Nat) (r : Reservation) (b : Bool) : Mod :=
  let m := m.modPart k fun p => { p with resvs := Table.set i { r with suspended := b } p.resvs }
  let m := if b then m.modCtx k r.ctxNo fun x => x.voidRun r.queueNo 5 else m
  m.notice k 5 (16 * k + i) 0 (b2n b)

/-- Insertion into a list by ascending order of opening (03 R87). -/
def insertSerial (e : Nat × Nat × Reservation) : List (Nat × Nat × Reservation) → List (Nat × Nat × Reservation)
  | [] => [e]
  | x :: t => if e.2.2.serial ≤ x.2.2.serial then e :: x :: t else x :: insertSerial e t

/-- The open reservations of the module, oldest first. -/
def Mod.resvsByAge (m : Mod) : List (Nat × Nat × Reservation) :=
  (m.allResvs.filter fun e => !e.2.2.closed).foldr insertSerial []

/-- What a change of the cap does to reservations (03 R87): suspends, newest first, until the rest fits; those that an
earlier change had suspended and that fit again resume, oldest first. -/
def Mod.applyCap (m : Mod) : Mod :=
  let before := m.resvsByAge.filter fun e => e.2.2.suspended
  let m := m.forAll (fun m e =>
    if !e.2.2.suspended && !capFits m.gov.cap m.activeEnergy then m.setSuspended e.1 e.2.1 e.2.2 true else m)
    m.resvsByAge.reverse
  m.forAll (fun m e =>
    if capFits m.gov.cap (m.activeEnergy + e.2.2.energyMs) then m.setSuspended e.1 e.2.1 e.2.2 false else m) before

/-- PWR_SET (19 R425). -/
def Mod.pwrSet (m : Mod) (r : Request) : Mod :=
  let w := fld r.payload 0 4
  m.judge r (fieldBad [(!(decide (1000 ≤ w) && decide (w ≤ 3300)), 0), (fld r.payload 4 4 != 0, 4)]) fun m =>
    let m := ({ m with gov := { m.gov with cap := w } }).applyCap
    m.respond r stOk 0 (leBytes 4 w ++ leBytes 4 (m.allResvs.filter fun e => e.2.2.suspended).length)

def execPwrSet (f : Fn) (s : State) : Host.Outcome State Fault Refusal :=
  s.act fun m => m.mbxRow f 0x80 (fun _ => true) Mod.pwrSet

/-! ### The governor limit (19 R426, R436) -/

/-- The readings the governor and its registers go by: those of reset until one has come (02 R69; assumption 25). -/
def Governor.shown (g : Governor) : Readings := if g.seen then g.readings else Governor.reset.readings

/-- The four terms of L in units of 10 microwatts: cap, voltage, inlet, flow (19 R426). -/
def limitTerms (g : Governor) : List Int :=
  [(g.cap : Int) * 100000, 6875 * (g.shown.vin : Int),
   (3300 - 10 * max 0 (g.shown.inlet - 320)) * 100000,
   (3300 - 20 * (60 - (min 60 (max 40 g.shown.flow) : Nat) : Int)) * 100000]

/-- L in units of 10 microwatts (19 R426). -/
def Governor.limit (g : Governor) : Nat :=
  match limitTerms g with
  | [] => 0
  | t :: ts => (ts.foldl min t).toNat

/-- The term that sets L: 0 cap, 1 voltage, 2 inlet, 3 flow (19 R436); the first where several do. -/
def Governor.limitSrc (g : Governor) : Nat := (limitTerms g).findIdx fun t => t.toNat == g.limit

/-- Input power averaged over the last 1 ms, in W (19 R427). -/
def Governor.power (g : Governor) : Nat := if g.samples.isEmpty then 0 else g.samples.sum / g.samples.length

/-- Whether the admitted energy exceeds L (19 R426). -/
def Mod.admitOver (m : Mod) : Bool :=
  let open' := m.allResvs.filter fun e => !e.2.2.closed && !e.2.2.suspended
  decide (m.gov.limit < (620000 + (open'.map fun e => e.2.2.energyMs).sum) * 100)

/-- PWR_STATUS (19 R436): 0 until the first sample. -/
def Mod.pwrStatus (m : Mod) : Nat :=
  if m.gov.samples.isEmpty then 0 else m.gov.readings.vin % 65536 * 65536 + min m.gov.power 65535

/-- PWR_LIMIT (19 R436). -/
def Mod.pwrLimit (m : Mod) : Nat :=
  b2n m.admitOver * 2 ^ 31 + m.gov.limitSrc * 2 ^ 28 + (m.gov.limit / 100000) % 4096 * 65536 + m.gov.cap

/-- PWR_THERM (19 R437), its W1C bits stored, the rest shown from the governor; FLOW reads 0 until the first sample. -/
def Mod.pwrTherm (m : Mod) : Nat :=
  let st := m.chipReg offPwrTherm
  m.gov.level * 2 ^ 30 + getF st 29 28 * 2 ^ 28 + m.gov.tripSrc * 2 ^ 25 +
    (if m.gov.samples.isEmpty then 0 else min m.gov.readings.flow 255) * 256 +
    ([0, 1, 2, 3].map fun b => b2n (decide (760 ≤ m.gov.shown.die.getD b 0)) * 2 ^ b).sum

/-- GOVERNOR_SAMPLE (19 R427): one sample every 10 microseconds, 100 of them kept. -/
def execGovernorSample (r : Readings) (s : State) : Host.Outcome State Fault Refusal :=
  s.act fun m => m.alive fun m => ({ m with gov := { m.gov with samples := (r.pin :: m.gov.samples).take 100 } }).setReadings r

/-! ### Thermal levels (19 R430 to R434) -/

/-- The reading of one bay's hottest sensor. -/
def setDie (ds : List Int) (b : Nat) (t : Int) : List Int := ds.set b t

/-- THERMAL_THROTTLE (19 R430): a sensor of the bay at or above 95 degrees C. -/
def Mod.throttle (m : Mod) (b : Fin 4) (t : Int) : Mod :=
  if 760 ≤ t then
    ({ m with gov := { m.gov with hot := m.gov.hot ||| BitVec.ofNat 4 (2 ^ b.val), level := max 1 m.gov.level } }).setReadings
      { m.gov.readings with die := setDie m.gov.readings.die b.val t }
  else m

def execThermalThrottle (b : Fin 4) (temp : Int) (s : State) : Host.Outcome State Fault Refusal :=
  s.act fun m => m.alive fun m => m.throttle b temp

/-- THROTTLE_CLEAR (19 R430): the bay's hottest sensor below 90 degrees C. -/
def Mod.throttleClear (m : Mod) (b : Fin 4) (t : Int) : Mod :=
  if t < 720 then
    let hot := m.gov.hot &&& ~~~ BitVec.ofNat 4 (2 ^ b.val)
    ({ m with gov := { m.gov with hot := hot, level := if hot = 0 ∧ m.gov.level = 1 then 0 else m.gov.level } }).setReadings
      { m.gov.readings with die := setDie m.gov.readings.die b.val t }
  else m

def execThrottleClear (b : Fin 4) (temp : Int) (s : State) : Host.Outcome State Fault Refusal :=
  s.act fun m => m.alive fun m => m.throttleClear b temp

/-- Existing partitions, bit k for Pk (18 R408). -/
def Mod.partsMask (m : Mod) : Nat := (allParts.map fun k => b2n (m.exists? k) * 2 ^ k).sum

/-- The start of a trip (19 R430, R431): level 2, TRIP_SEEN, notices to every partition, promises voided, a module
record. -/
def Mod.enterTrip (m : Mod) (src : Nat) : Mod :=
  if 2 ≤ m.gov.level then m
  else
    let m := ({ m with gov := { m.gov with level := 2, tripSrc := src } }).chipFlag offPwrTherm 29
    m.alive fun m => ((m.noticeAll 1 1).voidTrip).moduleRecord 3 0xFF m.partsMask 0 0

/-- THERMAL_TRIP (19 R430): T_die at or above 105 degrees C, or an inlet above 50 degrees C. -/
def execThermalTrip (tdie inlet : Int) (s : State) : Host.Outcome State Fault Refusal :=
  s.act fun m =>
    if 840 ≤ tdie ∨ 400 < inlet then
      (m.setReadings (withHottest { m.gov.readings with inlet := inlet } tdie)).enterTrip
        (if 840 ≤ tdie then 1 else 2)
    else m

/-- LOW_FLOW_TIMEOUT (19 R430): flow below 1.5 L/min for 1 s. -/
def execLowFlowTimeout (s : State) : Host.Outcome State Fault Refusal :=
  s.act fun m => m.alive fun m => if m.gov.readings.flow < 30 then m.enterTrip 3 else m

/-- Shutdown (19 R432): trusses and engines stop, every running raise completes with ST_THERMAL, and a commit of one that
waits for the sister writes no entry (13 R313); THERMTRIP_N goes low. In a partition under reset they complete as that
reset ends them (03 R72). -/
def Mod.enterShutdown (m : Mod) (src : Nat) : Mod :=
  if m.gov.level = 3 then m
  else
    let m := m.enterTrip src
    let m := ({ m with gov := { m.gov with level := 3, tripSrc := src }
                       power := { m.power with thermtripN := false } }).chipFlag offPwrTherm 28
    let m := m.send (.pin "THERMTRIP_N" false)
    m.alive fun m => m.forAll (fun m k => if (m.part k).underReset then m
      else (m.forAll (fun m c => m.endStarted k c stThermal 0) (List.range 16)).modPart k fun p => { p with mirrorWait := [] })
      allParts

/-- TRIP_STANDING_TIMEOUT (19 R430): the trip has stood for 1 s. -/
def execTripStandingTimeout (s : State) : Host.Outcome State Fault Refusal :=
  s.act fun m => m.alive fun m => if m.gov.level = 2 then m.enterShutdown 4 else m

/-- THERMAL_SHUTDOWN (19 R432): T_die at or above 115 degrees C. -/
def execThermalShutdown (tdie : Int) (s : State) : Host.Outcome State Fault Refusal :=
  s.act fun m => if 920 ≤ tdie then (m.setReadings (withHottest m.gov.readings tdie)).enterShutdown 5 else m

/-- TRIP_CLEAR (19 R430): the readings have held for 10 ms; trip and shutdown clear together. A bay still at or above
its throttle level keeps level 1. -/
def Mod.tripClear (m : Mod) (tdie inlet : Int) (flow : Nat) : Mod :=
  if 2 ≤ m.gov.level ∧ tdie < 760 ∧ inlet ≤ 360 ∧ 40 ≤ flow then
    let shut := m.gov.level == 3
    let m := ({ m with
      gov := { m.gov with level := b2n (m.gov.hot != 0) }
      power := { m.power with thermtripN := true } }).setReadings
        (withHottest { m.gov.readings with inlet := inlet, flow := flow } tdie)
    let m := if shut then m.send (.pin "THERMTRIP_N" true) else m
    m.noticeAll 1 0
  else m

def execTripClear (tdie inlet : Int) (flow : Nat) (s : State) : Host.Outcome State Fault Refusal :=
  s.act fun m => m.alive fun m => m.tripClear tdie inlet flow

end Sys2Proof.Machine
end

