-- ==== Sys2Proof/Machine/Scratch.lean ====
section
/-!
DEFINITION. The scratchpads of a truss: rows, masked writes and the SECDED code of every 8-byte word (10 R218 to R220).
-/

namespace Sys2Proof.Machine

/-- Row width of a store: 0 WS, 1 AS, 2 PS (10 R218). -/
def rowBytes (st : Nat) : Nat := if st = 2 then 1024 else 512

/-- Rows of a store. -/
def storeRows (st : Nat) : Nat := if st = 0 then 16384 else if st = 1 then 8192 else 2048

/-- Bytes of a store. -/
def storeBytes (st : Nat) : Nat := storeRows st * rowBytes st

/-- The bytes of a store. -/
def Truss.cells (t : Truss) (st : Nat) : Cells := if st = 0 then t.ws else if st = 1 then t.as else t.ps

/-- The 8-byte words of a store whose code is bad, by number (10 R220). -/
def Truss.bad (t : Truss) (st : Nat) : List Nat := if st = 0 then t.wsBad else if st = 1 then t.asBad else t.psBad

/-- The truss with a store's bytes and bad words. -/
def Truss.setStore (t : Truss) (st : Nat) (cells : Cells) (bad : List Nat) : Truss :=
  if st = 0 then { t with ws := cells, wsBad := bad }
  else if st = 1 then { t with as := cells, asBad := bad }
  else { t with ps := cells, psBad := bad }

/-- Whether the bytes from `a` overlap 8-byte word `w`. -/
def wordMeets (a n w : Nat) : Bool := decide (8 * w < a + n) && decide (a < 8 * w + 8)

/-- Whether a read of `n` bytes from `a` reads word `w`: every access reads whole rows (10 R219). -/
def readMeets (st a n w : Nat) : Bool :=
  let r := rowBytes st
  decide (0 < n) && decide (a / r ≤ 8 * w / r) && decide (8 * w / r ≤ (a + n - 1) / r)

/-- Whether a read of `n` bytes from `a` meets a bad word (10 R220). -/
def Truss.readBad (t : Truss) (st a n : Nat) : Bool := (t.bad st).any (readMeets st a n)

/-- The bytes read. -/
def Truss.read (t : Truss) (st a n : Nat) : List Byte := Cells.read (t.cells st) a n

/-- Bytes written one by one, those in a blocked word left out. -/
def writeSkip (blocked : List Nat) (m : Cells) : Nat → List Byte → Cells
  | _, [] => m
  | a, b :: bs => writeSkip blocked (if blocked.contains (a / 8) then m else Sparse.set a b m) (a + 1) bs

/-- A write (10 R219, R220): a word covered whole takes a new code; a bad word covered by half is dropped and keeps
its bad code. -/
def Truss.write (t : Truss) (st a : Nat) (bs : List Byte) : Truss :=
  let covered (w : Nat) : Bool := decide (a ≤ 8 * w) && decide (8 * w + 8 ≤ a + bs.length)
  let bad := (t.bad st).filter fun w => !covered w
  let blocked := bad.filter (wordMeets a bs.length)
  t.setStore st (if blocked.isEmpty then Cells.write (t.cells st) a bs else writeSkip blocked (t.cells st) a bs) bad

/-- Whether a write of `n` bytes from `a` reads word `w`, which it covers by half (10 R220). -/
def writeMeets (a n w : Nat) : Bool := wordMeets a n w && !(decide (a ≤ 8 * w) && decide (8 * w + 8 ≤ a + n))

/-- Whether a write drops some word: a bad word covered by half (10 R220). -/
def Truss.writeBad (t : Truss) (st a n : Nat) : Bool := (t.bad st).any (writeMeets a n)

/-- A word gone bad: its code is uncorrectable from now on (10 R220). -/
def Truss.spoil (t : Truss) (st w : Nat) : Truss :=
  if (t.bad st).contains w then t else t.setStore st (t.cells st) (w :: t.bad st)

/-- What a unit's work reads and writes: store, first byte and length of each region. -/
structure Footprint where
  reads : List (Nat × Nat × Nat)
  writes : List (Nat × Nat × Nat)
  deriving DecidableEq, Repr

/-- Whether work reads word `w` of a store, for itself or to merge a write. -/
def Footprint.meets (f : Footprint) (st w : Nat) : Bool :=
  (f.reads.any fun g => g.1 == st && readMeets st g.2.1 g.2.2 w) ||
    (f.writes.any fun g => g.1 == st && writeMeets g.2.1 g.2.2 w)

/-- Whether work meets an uncorrectable word (10 R220). -/
def Footprint.bad (f : Footprint) (t : Truss) : Bool :=
  (f.reads.any fun g => t.readBad g.1 g.2.1 g.2.2) || (f.writes.any fun g => t.writeBad g.1 g.2.1 g.2.2)

/-- The wrong words that work finds (10 R220): one wrong by a single bit is corrected, written back and counted; an
uncorrectable one is bad from now on. Work finds only words that it reads. -/
def Mod.scratchFinds (m : Mod) (k ti : Nat) (f : Footprint) (xs : List WordFind) : Mod :=
  m.forAll (fun m x =>
    if !f.meets x.store.val x.word || (((m.part k).truss ti).bad x.store.val).contains x.word then m
    else if x.single then m.modPart k fun p => p.count offSpEcc 15 0
    else m.modPart k fun p => p.modTruss ti fun t => t.spoil x.store.val x.word) xs

/-- The truss with every store at zero and every code valid, and the array state at zero (17 R372). -/
def Truss.zeroed (_ : Truss) : Truss := Truss.reset

/-- The end of a raise whose unit met an uncorrectable scratchpad word (10 R220). -/
def Mod.scratchError (m : Mod) (k c : Nat) : Mod :=
  (m.modPart k fun p => p.flag offSpEcc 31).markRun k c stIntegrity 1

end Sys2Proof.Machine
end

