-- ==== Sys2Proof/Machine/Array.lean ====
section
/-!
DEFINITION. The matrix array: the array-pass body, layouts, products, the order of summation, spilling and LUT mode
(06 R147 to R170, 07 R171 to R183, 08 R193 to R198).
-/

namespace Sys2Proof.Machine

/-- The fields of an array-pass body (06 R150) with the sizes derived from them. -/
structure ArrayBody where
  wfmt : Nat
  afmt : Nat
  acc16 : Bool
  accIn : Bool
  gather : Bool
  group : Nat
  rows : Nat
  members : Nat
  spill : Nat
  kLen : Nat
  nCols : Nat
  wsRow : Nat
  wsScaleRow : Nat
  asRow : Nat
  asScaleRow : Nat
  psRow : Nat
  lutRow : Nat
  gatherNs : Nat
  deriving DecidableEq, Repr

/-- The body as its bytes give it (06 R150). -/
def parseArray (b : List Byte) : ArrayBody :=
  { wfmt := fld b 0 1, afmt := fld b 1 1, acc16 := bit (fld b 2 1) 0, accIn := bit (fld b 2 1) 1
    gather := bit (fld b 2 1) 2, group := fld b 3 1, rows := fld b 4 2, members := fld b 6 1, spill := fld b 7 1
    kLen := fld b 8 4, nCols := fld b 12 4, wsRow := fld b 16 2, wsScaleRow := fld b 18 2, asRow := fld b 20 2
    asScaleRow := fld b 22 2, psRow := fld b 24 2, lutRow := fld b 26 2, gatherNs := fld b 28 4 }

/-! ### Sizes (06 R148 to R154) -/

def ArrayBody.mrows (b : ArrayBody) : Nat := b.members * b.rows
def ArrayBody.kt (b : ArrayBody) : Nat := ceilDiv b.kLen 128
def ArrayBody.nt (b : ArrayBody) : Nat := ceilDiv b.nCols 256

/-- Whether the pass runs in LUT mode (06 R148). -/
def ArrayBody.lut (b : ArrayBody) : Bool := fmtElem b.wfmt == 0xA

/-- Bytes of 128 packed activations (06 R150). -/
def ArrayBody.sliceBytes (b : ArrayBody) : Nat := 16 * elemWidth (fmtElem b.afmt)

/-- WS rows of a weight tile (06 R152). -/
def ArrayBody.tileRows (b : ArrayBody) : Nat := 8 * elemWidth (fmtElem b.wfmt)

/-- WS rows of a tile's block scales (06 R152). -/
def ArrayBody.scaleRows (b : ArrayBody) : Nat :=
  match fmtBlock b.wfmt with
  | 32 => 2
  | 16 => 4
  | _ => 0

/-- AS rows of an activation block (06 R153). -/
def ArrayBody.actRows (b : ArrayBody) : Nat := ceilDiv (b.mrows * b.sliceBytes) 512

/-- AS rows of a block of activation scales (06 R153). -/
def ArrayBody.actScaleRows (b : ArrayBody) : Nat :=
  if fmtBlock b.afmt = 0 then 0 else ceilDiv (b.mrows * (128 / fmtBlock b.afmt)) 512

/-- Operand class 4, 8, 16, or 0 for LUT; none for a pair the array does not take (06 R148). -/
def ArrayBody.cls (b : ArrayBody) : Option Nat :=
  let w := fmtElem b.wfmt
  let a := fmtElem b.afmt
  let mxOnly8 (f raw : Nat) : Bool := (decide (3 ≤ f) && decide (f ≤ 6)) || (f == 8 && fmtBlock raw != 0)
  if w = 7 ∧ a = 7 then some 4
  else if w = 9 ∧ a = 9 then some 4
  else if mxOnly8 w b.wfmt && mxOnly8 a b.afmt then some 8
  else if w = 8 ∧ a = 8 ∧ fmtBlock b.wfmt = 0 ∧ fmtBlock b.afmt = 0 then some 8
  else if (w = 1 ∨ w = 2) ∧ (a = 1 ∨ a = 2) then some 16
  else if w = 0xA ∧ (a = 1 ∨ a = 2) then some 0
  else none

/-- The accumulator's element format (07 R171): FP32, FP16 or BF16. -/
def ArrayBody.accFmt (b : ArrayBody) : Nat :=
  if !b.acc16 then 0 else if fmtElem b.wfmt = 1 ∨ fmtElem b.afmt = 1 then 1 else 2

/-- Cycles that stream the stacked rows once (06 R149). -/
def ArrayBody.waveCycles (b : ArrayBody) : Nat :=
  let r := b.mrows
  match b.cls with
  | some 4 => if b.acc16 then ceilDiv r 4 else ceilDiv r 2
  | some 8 => if b.acc16 then ceilDiv r 2 else r
  | some 16 => if b.acc16 then r else 2 * r
  | _ => ceilDiv r 2

/-- PS rows of an output tile (06 R154). -/
def ArrayBody.outRows (b : ArrayBody) : Nat := if b.acc16 then ceilDiv b.mrows 2 else b.mrows

/-- The truss-cycle count c_arr (06 R159, 07 R180, 08 R195). -/
def ArrayBody.cycles (b : ArrayBody) : Nat :=
  let tl := b.tileRows / 2 + b.scaleRows / 2 + b2n b.lut
  let w := b.waveCycles
  let d := b.outRows
  let step := max tl w
  let first := if b.accIn then max tl d else tl
  let body := (b.kt * b.nt - 1) * step + w
  let io := if b.accIn then 2 * d else d
  let bank := (b.nt - 1) * (io - b.kt * step)
  let spill := if b.spill = 0 then 0 else b.nt * ceilDiv b.kt b.spill * (b.mrows + 4)
  first + 1 + body + bank + 20 + (d - w) + spill

/-! ### Operands (06 R152, R153, 08 R193 to R197) -/

/-- First byte of the weight tile of output tile nb and reduction tile kb. -/
def ArrayBody.tileAt (b : ArrayBody) (nb kb : Nat) : Nat := (b.wsRow + (nb * b.kt + kb) * b.tileRows) * 512

/-- The code of the weight at tile row i and column j of a tile. -/
def ArrayBody.weightCode (b : ArrayBody) (t : Truss) (nb kb i j : Nat) : Nat :=
  Cells.elem t.ws (b.tileAt nb kb) (elemWidth (fmtElem b.wfmt)) (256 * i + j)

/-- A value of a LUT block, in the format LFMT (08 R194, R195). -/
def ArrayBody.lutValue (b : ArrayBody) (t : Truss) (ftz : Bool) (nb kb off : Nat) : FNum :=
  let f := if bit b.lutRow 14 then 2 else 1
  readElem ftz f (Cells.num t.ws ((b.lutRow % 16384 + nb * b.kt + kb) * 512 + off) 2)

/-- The weight at tile row i and column j (06 R152, 08 R193). -/
def ArrayBody.weight (b : ArrayBody) (t : Truss) (ftz : Bool) (nb kb i j : Nat) : FNum :=
  let code := b.weightCode t nb kb i j
  let f := fmtElem b.wfmt
  if b.lut then (if code = 0xF then b.lutValue t ftz nb kb (32 + 2 * i) else b.lutValue t ftz nb kb (2 * code))
  else if fmtBlock b.wfmt = 0 then readElem ftz f code
  else
    let sc := (Sparse.get ((b.wsScaleRow + (nb * b.kt + kb) * b.scaleRows) * 512 + 256 * (i / fmtBlock b.wfmt) + j)
      t.ws).toNat
    decodeMx f sc code

/-- The activation of stacked row r at place i of reduction tile kb (06 R153). -/
def ArrayBody.act (b : ArrayBody) (t : Truss) (ftz : Bool) (kb r i : Nat) : FNum :=
  let f := fmtElem b.afmt
  let code := Cells.elem t.as ((b.asRow + kb * b.actRows) * 512 + r * b.sliceBytes) (elemWidth f) i
  if fmtBlock b.afmt = 0 then readElem ftz f code
  else
    let per := 128 / fmtBlock b.afmt
    let sc := (Sparse.get ((b.asScaleRow + kb * b.actScaleRows) * 512 + r * per + i / fmtBlock b.afmt) t.as).toNat
    decodeMx f sc code

/-! ### Sums (07 R173 to R179) -/

/-- The product of a cell (07 R173): exact below 2^128, an infinity from there on. -/
def cellProduct (w a : FNum) : FNum :=
  match w.mul a with
  | .fin s m e => if m != 0 && decide (128 ≤ magLog2 m e) then .inf s else .fin s m e
  | x => x

/-- The value of a group: the exact sum of its products (07 R176). -/
def groupValue : List FNum → FNum
  | [] => .fin false 0 0
  | p :: ps => ps.foldl FNum.add p

/-- One addition into an accumulator, rounded once to its format (07 R177). -/
def accAdd (f acc : Nat) (g : FNum) : Nat := roundTo f ((decodeFloat f acc).add g)

/-- The accumulator of (r, j) after reduction tile kb: its groups in ascending order; a group of padding alone adds
nothing (07 R175). -/
def ArrayBody.tileSum (b : ArrayBody) (t : Truss) (ftz : Bool) (nb r j kb acc : Nat) : Nat :=
  (List.range (128 / b.group)).foldl (fun acc q =>
    let idx := (List.range b.group).filterMap fun d =>
      let i := b.group * q + d
      if 128 * kb + i < b.kLen then some i else none
    if idx.isEmpty then acc
    else accAdd b.accFmt acc (groupValue (idx.map fun i => cellProduct (b.weight t ftz nb kb i j) (b.act t ftz kb r i))))
    acc

/-- Where the output of stacked row r and column j of output tile nb stands in PS (06 R154). -/
def ArrayBody.outAt (b : ArrayBody) (nb r j : Nat) : Nat :=
  if b.acc16 then (b.psRow + nb * ceilDiv b.mrows 2 + r / 2) * 1024 + 512 * (r % 2) + 2 * j
  else (b.psRow + nb * b.mrows + r) * 1024 + 4 * j

/-- Bytes of an output value. -/
def ArrayBody.outBytes (b : ArrayBody) : Nat := if b.acc16 then 2 else 4

/-- The FP32 spill sum and the accumulator of (r, j) after every reduction tile (07 R175, R179, R181). -/
def ArrayBody.column (b : ArrayBody) (t : Truss) (ftz : Bool) (nb r j : Nat) : Nat × Nat :=
  let seed := if b.accIn then Cells.num t.ps (b.outAt nb r j) b.outBytes else 0
  let s0 := if b.spill = 0 then 0 else toF32 (decodeFloat b.accFmt seed)
  let a0 := if b.spill = 0 then (if b.accIn then seed else 0) else 0
  (List.range b.kt).foldl (fun (sa : Nat × Nat) kb =>
    let acc := b.tileSum t ftz nb r j kb sa.2
    if b.spill != 0 && ((kb + 1) % b.spill == 0 || kb + 1 == b.kt) then
      (toF32 ((f32 sa.1).add (decodeFloat b.accFmt acc)), 0)
    else (sa.1, acc)) (s0, a0)

/-- The value the drain writes (07 R175): the spill sum rounded, or the accumulator. A NaN seed that no addition
touched keeps its bits only where no group was added. -/
def ArrayBody.result (b : ArrayBody) (sa : Nat × Nat) : Nat :=
  if b.spill = 0 then sa.2 else if b.acc16 then roundTo b.accFmt (f32 sa.1) else sa.1

/-- Where the spill sums of stacked row r of output tile nb stand in a 16-bit pass (07 R178). -/
def ArrayBody.spillRow (b : ArrayBody) (nb r : Nat) : Nat :=
  b.psRow + b.nt * ceilDiv b.mrows 2 + (nb % 2) * b.mrows + r

/-- The drain's writes for one stacked row of one output tile; columns past N take 0 (06 R155, 07 R178). -/
def ArrayBody.drainRow (b : ArrayBody) (t0 : Truss) (ftz : Bool) (t : Truss) (nb r : Nat) : Truss :=
  let cols := (List.range 256).map fun j => if 256 * nb + j < b.nCols then some (b.column t0 ftz nb r j) else none
  let out := cols.flatMap fun c => leBytes b.outBytes (match c with | some sa => b.result sa | none => 0)
  let t := t.write 2 (b.outAt nb r 0) out
  if b.acc16 && b.spill != 0 then
    t.write 2 (b.spillRow nb r * 1024) (cols.flatMap fun c => leBytes 4 (match c with | some sa => sa.1 | none => 0))
  else t

/-- The stacked rows that a run of `n` members fills (06 R155, R167). -/
def ArrayBody.presentRows (b : ArrayBody) (n : Nat) : List Nat :=
  (List.range b.mrows).filter fun r => decide (r / b.rows < n)

/-- The LUT block of the last tile as the weight loader holds it: the bytes of the codebook and of the outliers that
are not 0 (08 R195). -/
def ArrayBody.lutBlock (b : ArrayBody) (t : Truss) : Cells :=
  ((List.range 30) ++ (List.range 256).map (· + 32)).filterMap fun i =>
    let v := Sparse.get ((b.lutRow % 16384 + (b.nt * b.kt - 1)) * 512 + i) t.ws
    if v = 0 then none else some (i, v)

/-- The array state a pass leaves: the last tile, in LUT mode with its LUT block, in the active weights and its copy in the
shadow; the accumulators of the last two output tiles in the banks (06 R156, 07 R172, 08 R195). -/
def ArrayBody.leftState (b : ArrayBody) (t : Truss) (ftz : Bool) (n : Nat) : ArrayState :=
  let tile : Sparse 16 := (List.range 32768).filterMap fun x =>
    let v := BitVec.ofNat 16 (b.weightCode t (b.nt - 1) (b.kt - 1) (x / 256) (x % 256))
    if v = 0 then none else some (x, v)
  let bank (nb : Nat) : Sparse 32 := (List.range (b.mrows * 256)).filterMap fun x =>
    if x / 256 / b.rows < n ∧ 256 * nb + x % 256 < b.nCols then
      let v := BitVec.ofNat 32 (b.column t ftz nb (x / 256) (x % 256)).2
      if v = 0 then none else some (x, v)
    else none
  let last := b.nt - 1
  { active := tile, shadow := tile
    activeLut := if b.lut then b.lutBlock t else t.array.activeLut
    shadowLut := if b.lut then b.lutBlock t else t.array.shadowLut
    bank0 := if last % 2 = 0 then bank last else bank (last - 1)
    bank1 := if last % 2 = 1 then bank last else if last = 0 then t.array.bank1 else bank (last - 1) }

/-- The scratchpad rows that a pass of `n` members reads: tiles, scales, LUT blocks, activations, and of the PS rows of
present members the seeds of `ACC_IN` and, at each spill point, the spill sums (06 R156, 07 R178 to R181, 08 R195). Its
writes cover whole words. -/
def ArrayBody.footprint (b : ArrayBody) (n : Nat) : Footprint :=
  let drained := (List.range b.nt).flatMap fun nb => (b.presentRows n).map fun r => (nb, r)
  { reads :=
      [(0, b.wsRow * 512, b.kt * b.nt * b.tileRows * 512), (0, b.wsScaleRow * 512, b.kt * b.nt * b.scaleRows * 512),
        (0, b.lutRow % 16384 * 512, if b.lut then b.kt * b.nt * 512 else 0), (1, b.asRow * 512, b.kt * b.actRows * 512),
        (1, b.asScaleRow * 512, b.kt * b.actScaleRows * 512)] ++
      (if b.accIn || (b.spill != 0 && !b.acc16) then drained.map fun x => (2, b.outAt x.1 x.2 0, 1) else []) ++
      (if b.spill != 0 && b.acc16 then drained.map fun x => (2, b.spillRow x.1 x.2 * 1024, 1024) else [])
    writes := [] }

/-- A whole pass on a truss (06 R156, 07 R175). -/
def ArrayBody.pass (b : ArrayBody) (t : Truss) (ftz : Bool) (n : Nat) : Truss :=
  let st := b.leftState t ftz n
  let t' := (List.range b.nt).foldl (fun (t' : Truss) nb =>
    (b.presentRows n).foldl (fun t' r => b.drainRow t ftz t' nb r) t') t
  { t' with array := st }

/-- The first running instance of a node. -/
def Run.firstRunning (u : Run) (node : Nat) : Option Nat :=
  (List.range u.members.length).find? fun mb => u.phase node mb == some .running

/-- The stall cycles of a pass on truss `t` (06 R170): none where no vector node ran beside it (06 R163, 10 R223). How
many else is timing, which the model leaves out, so both counts are raised by open numbers (assumption 7). -/
def Mod.stalls (m : Mod) (k t : Nat) (beside : Bool) : Mod :=
  if beside then
    let (drain, m) := m.draw
    let (feed, m) := m.draw
    m.modPart k fun p => (p.count (offStall t) 31 16 drain).count (offStall t) 15 0 feed
  else m

/-- An array-pass node that runs: the pass, or the end of the raise on an uncorrectable word (10 R220). -/
def Mod.arrayPass (m : Mod) (k c : Nat) (w : UnitWork) : Mod :=
  let node := w.index
  let p := m.part k
  match (p.ctx c).run with
  | none => m
  | some u =>
    match u.firstRunning node with
    | none => m
    | some member =>
      match m.nodeAt k c node member with
      | none => m
      | some (u, img, _) =>
        if nodeUnit img node != 1 then m
        else
          let b := parseArray (nodeBody img node)
          let ti := u.phys img (nodeTruss img node)
          let n := if b.gather then u.members.length else 1
          let m := (m.stalls k ti (u.beside.contains (node * 64 + member))).scratchFinds k ti (b.footprint n) w.finds
          if (b.footprint n).bad ((m.part k).truss ti) then (m.scratchError k c).worked k c node member
          else
            (m.modPart k fun p => p.modTruss ti fun t => b.pass t (p.ctx c).ftz n).worked k c node member

/-- ARRAY_PASS (06 R156). -/
def execArrayPass (k : Fin 64) (c : Fin 16) (work : UnitWork) (s : State) : Host.Outcome State Fault Refusal :=
  s.act fun m => if m.shutStands then m else m.arrayPass k.val c.val work

end Sys2Proof.Machine
end

