-- ==== Sys2Proof/Machine/Special.lean ====
section
/-!
DEFINITION. The special-function unit (09 R210, R211): exact cases, correct rounding of RECIP and SQRT, and for the
other functions the unit's own choice among the FP32 results that lie within the bound and keep the order that the
manual states (assumption 13). An exact value is held between two neighbours of a grid of 2^-512, on which every FP32
result and every bound lies, so that whether a result lies within the bound is decided exactly.
-/

namespace Sys2Proof.Machine

/-! ### Fixed point with 1,024 fraction bits -/

/-- One, in fixed point. -/
def fixOne : Int := 2 ^ 1024

/-- ln 2. -/
def fixLn2 : Int :=
  0xb17217f7d1cf79abc9e3b39803f2f6af40f343267298b62d8a0d175b8baafa2be7b876206debac98559552fb4afa1b10ed2eae35c138214427573b291169b8253e96ca16224ae8c51acbda11317c387eb9ea9bc3b136603b256fa0ec7657f74b72ce87b19d6548caf5dfa6bd38303248655fa1872f20e3a2da2d97c50f3fd5c6

/-- pi. -/
def fixPi : Int :=
  0x3243f6a8885a308d313198a2e03707344a4093822299f31d0082efa98ec4e6c89452821e638d01377be5466cf34e90c6cc0ac29b7c97c50dd3f84d5b5b54709179216d5d98979fb1bd1310ba698dfb5ac2ffd72dbd01adfb7b8e1afed6a267e96ba7c9045f12c7f9924a19947b3916cf70801f2e2858efc16636920d871574e69

/-- The square root of 2 / pi. -/
def fixSqrt2Pi : Int :=
  0xcc42299ea1b284687e59e2805d5c717fa7053e60a24e0db1808e369004c73a5d3bf158aa88fa7b6e47eba75766e9d11bd6284ef2e17c2a264f1d32688be119ff30505c3fb28f9c969d9b7adccb84672b9596a89bcd3dd46584ed26f6378aced23839d891058ef559dfc3ece10653567f91a556486bdc8b922a1884d7769290fc

/-- Product of two fixed-point numbers. -/
def fixMul (a b : Int) : Int := a * b / fixOne

/-- Quotient of two fixed-point numbers. -/
def fixDiv (a b : Int) : Int := a * fixOne / b

/-- A number times a power of two, in whole parts. -/
def fixShift (a e : Int) : Int := if 0 ≤ e then a * 2 ^ e.toNat else a / 2 ^ (-e).toNat

/-- A finite number in fixed point. -/
def fixOf (s : Bool) (a : Nat) (e : Int) : Int := fixShift (if s then -(a : Int) else a) (e + 1024)

/-- The sum of a power series from its first term, 180 terms. -/
def fixSeries (t0 : Int) (next : Int → Nat → Int) : Int :=
  ((List.range 180).foldl (fun (p : Int × Int) i => let t := next p.1 i; (t, p.2 + t)) (t0, t0)).2

/-- e^x. -/
def fixExp (x : Int) : Int :=
  let n := (2 * x + fixLn2) / (2 * fixLn2)
  fixShift (fixSeries fixOne fun t i => fixMul t (x - n * fixLn2) / (i + 1 : Int)) n

/-- ln of a positive number. -/
def fixLog (a : Nat) (e : Int) : Int :=
  let l : Int := magLog2 a e
  let mm := fixOf false a (e - l)
  let z := fixDiv (mm - fixOne) (mm + fixOne)
  let zz := fixMul z z
  let s := ((List.range 340).foldl (fun (p : Int × Int) i => (fixMul p.1 zz, p.2 + p.1 / (2 * i + 1 : Int))) (z, 0)).2
  2 * s + l * fixLn2

/-- sin of an angle of at most pi in size. -/
def fixSin (x : Int) : Int :=
  let xx := fixMul x x
  fixSeries x fun t i => -(fixMul t xx) / ((2 * i + 2) * (2 * i + 3) : Int)

/-- cos of an angle of at most pi in size. -/
def fixCos (x : Int) : Int :=
  let xx := fixMul x x
  fixSeries fixOne fun t i => -(fixMul t xx) / ((2 * i + 1) * (2 * i + 2) : Int)

/-- An angle reduced to within pi. -/
def fixReduce (x : Int) : Int := x - ((x + fixPi) / (2 * fixPi)) * (2 * fixPi)

/-- 1 / (1 + e^-x). -/
def fixSigmoid (x : Int) : Int :=
  if 0 ≤ x then fixDiv fixOne (fixOne + fixExp (-x))
  else let t := fixExp x; fixDiv t (fixOne + t)

/-- tanh x. -/
def fixTanh (x : Int) : Int :=
  let t := fixExp (-2 * (x.natAbs : Int))
  let v := fixDiv (fixOne - t) (fixOne + t)
  if x < 0 then -v else v

/-! ### Correctly rounded quotient and square root -/

/-- A quotient of magnitudes as a number: 300 quotient bits and a sticky bit, enough for every rounding. -/
def magDiv (a b : Nat) (e : Int) : Nat × Int :=
  let n := a * 2 ^ 300
  (2 * (n / b) + b2n (n % b != 0), e - 301)

/-- The integer square root, bit by bit from bit `i` down. -/
def isqrtFrom (n : Nat) : Nat → Nat → Nat
  | 0, r => if (r + 1) * (r + 1) ≤ n then r + 1 else r
  | i + 1, r => isqrtFrom n i (if (r + 2 ^ (i + 1)) * (r + 2 ^ (i + 1)) ≤ n then r + 2 ^ (i + 1) else r)

/-- The square root of a magnitude as a number with a sticky bit. -/
def magSqrt (a : Nat) (e : Int) : Nat × Int :=
  let odd := e % 2 != 0
  let n := (if odd then 2 * a else a) * 2 ^ 200
  let e' := (if odd then e - 1 else e) - 200
  let r := isqrtFrom n 120 0
  (2 * r + b2n (r * r != n), e' / 2 - 1)

/-- 1 / x, correctly rounded to FP32 (09 R210, R211). -/
def recip32 (x : FNum) : Nat :=
  match x with
  | .nan => canonNan 0
  | .inf s => roundTo 0 (.fin s 0 0)
  | .fin s a e =>
    if a = 0 then roundTo 0 (.inf s)
    else let q := magDiv 1 a (-e); roundTo 0 (.fin s q.1 q.2)

/-- The square root, correctly rounded to FP32 (09 R210, R211). -/
def sqrt32 (x : FNum) : Nat :=
  match x with
  | .nan => canonNan 0
  | .inf s => if s then canonNan 0 else infCode 0
  | .fin s a e =>
    if a = 0 then roundTo 0 x
    else if s then canonNan 0
    else let q := magSqrt a e; roundTo 0 (.fin false q.1 q.2)

/-! ### FP32 values in order -/

/-- The largest finite FP32 value, by its place. -/
def topPlace : Int := 0x7F7FFFFF

/-- The place of an FP32 code among the finite values in order: both zeros stand at 0. -/
def placeOf (code : Nat) : Int := if 0x80000000 ≤ code then -((code - 0x80000000 : Nat) : Int) else code

/-- The code at a place; at 0 the zero of the given sign. -/
def codeAt (o : Int) (neg : Bool) : Nat :=
  if o < 0 ∨ (o = 0 ∧ neg = true) then 0x80000000 + o.natAbs else o.natAbs

/-- The place at or next below a number of 2^-512 units, or at or next above it. -/
def magPlace (w : Nat) (up : Bool) : Int :=
  if w = 0 then 0
  else
    let e : Int := max (-126) ((Nat.log2 w : Int) - 512)
    let step := 2 ^ (489 + e).toNat
    (e + 126) * 2 ^ 23 + (if up then ceilDiv w step else w / step : Nat)

def placeBelow (w : Int) : Int := if 0 ≤ w then magPlace w.natAbs false else -(magPlace w.natAbs true)
def placeAbove (w : Int) : Int := if 0 ≤ w then magPlace w.natAbs true else -(magPlace w.natAbs false)

/-! ### Exact values (09 R210) -/

/-- The value of a whole number, where it is one. -/
def wholeOf (s : Bool) (a : Nat) (e : Int) : Option Int :=
  if 0 ≤ e then some ((if s then -1 else 1) * ((a : Int) * 2 ^ e.toNat))
  else if a % 2 ^ (-e).toNat = 0 then some ((if s then -1 else 1) * ((a / 2 ^ (-e).toNat : Nat) : Int))
  else none

/-- An exact value v: the whole part of v * 2^512, and whether v is that multiple of 2^-512. -/
structure Near where
  n : Int
  exact : Bool
  deriving DecidableEq, Repr

/-- A value that no multiple of 2^-512 equals, from its fixed-point form. -/
def Near.ofFix (v : Int) : Near := { n := v / 2 ^ 512, exact := false }

/-- 1 / sqrt x of a positive number. -/
def nearRsqrt (a : Nat) (e : Int) : Near :=
  let q := 2 ^ (1024 - e).toNat
  let n := isqrtFrom (q / a) 600 0
  { n := n, exact := decide (n * n * a = q) }

/-- The exact value of a function that R211 bounds, at a finite argument of its domain; beyond 2^9 a smooth function stands
next to its limit. -/
def nearValue (f : Nat) (s : Bool) (a : Nat) (e : Int) : Near :=
  let xf := fixOf s a e
  let big := decide (9 ≤ magLog2 a e)
  let one : Int := 2 ^ 512
  let x := xf / 2 ^ 512
  match f with
  | 0 => if a = 0 then { n := one, exact := true } else .ofFix (fixExp xf)
  | 1 =>
    (match wholeOf s a e with
     | some i => { n := 2 ^ (512 + i).toNat, exact := true }
     | none => .ofFix (fixExp (fixMul xf fixLn2)))
  | 2 => if xf = fixOne then { n := 0, exact := true } else .ofFix (fixLog a e)
  | 4 => nearRsqrt a e
  | 6 =>
    { n := if big then (if s then 0 else one - 1) else min (one - 1) ((fixSigmoid xf) / 2 ^ 512)
      exact := decide (a = 0) }
  | 7 =>
    if a = 0 then { n := 0, exact := true }
    else
      let v := if big then (if s then -one else one - 1) else (fixTanh xf) / 2 ^ 512
      { n := if s then max (-one) (min (-1) v) else min (one - 1) v, exact := false }
  | 8 =>
    let v := if big then (if s then -1 else x - 1) else fixMul xf (fixSigmoid xf) / 2 ^ 512
    { n := if s then min (-1) v else min (x - 1) v, exact := false }
  | 9 =>
    let arg := fixMul fixSqrt2Pi (xf + fixMul xf (fixMul xf xf) * 44715 / 1000000)
    let th := if (2 : Int) ^ 1036 < arg.natAbs then (if s then -fixOne else fixOne) else fixTanh arg
    let v := if big then (if s then -1 else x - 1) else fixMul xf (fixOne + th) / 2 / 2 ^ 512
    { n := if s then min (-1) v else min (x - 1) v, exact := false }
  | 0xA => .ofFix (fixSin (fixReduce xf))
  | _ => .ofFix (fixCos (fixReduce xf))

/-- The exact value at a place of an argument. -/
def nearAt (f : Nat) (o : Int) : Near :=
  match f32 (codeAt o false) with
  | .fin s a e => nearValue f s a e
  | _ => { n := 0, exact := true }

/-! ### The bound (09 R211) -/

/-- The factor k of 09 R210 for the functions that are not correctly rounded. -/
def specialK (f : Nat) : Nat := [2, 1, 2, 1, 1, 1, 3, 2, 3, 4, 2, 2].getD f 1

/-- The absolute term a of 09 R210, in units of 2^-512. -/
def specialA (f : Nat) : Nat := if f = 2 then 2 ^ 487 else if f = 0xA ∨ f = 0xB then 2 ^ 488 else 0

/-- max(floor(log2 |v|), -126). -/
def Near.binade (v : Near) : Int :=
  let mag := if 0 ≤ v.n ∨ v.exact = true then v.n.natAbs else v.n.natAbs - 1
  if mag = 0 then -126 else max (-126) ((Nat.log2 mag : Int) - 512)

/-- max(k * u(v), a), in units of 2^-512 (09 R211). -/
def specialBound (f : Nat) (v : Near) : Int := max (specialK f * 2 ^ (489 + v.binade).toNat) (specialA f)

/-- The lowest and the highest place within the bound of an exact value. -/
def lowPlace (f : Nat) (v : Near) : Int := max (-topPlace) (placeAbove (v.n + (if v.exact then 0 else 1) - specialBound f v))
def highPlace (f : Nat) (v : Near) : Int := min topPlace (placeBelow (v.n + specialBound f v))

/-! ### Order (09 R211) -/

/-- The least place in (a, b] where `p`, which holds at b and, once it holds, from there on, holds. -/
def firstPlace (p : Int → Bool) : Nat → Int → Int → Int
  | 0, _, b => b
  | fuel + 1, a, b =>
    if b ≤ a + 1 then b
    else
      let c := (a + b) / 2
      if p c then firstPlace p fuel a c else firstPlace p fuel c b

/-- Arguments in the order in which a monotonic function never decreases: RSQRT's turned about. -/
def turn (f : Nat) (o : Int) : Int := if f = 4 then -o else o

/-- The turned argument from which on `lowBefore` searches: the exact value there lies below every binade in question. -/
def lowStart (f : Nat) : Int :=
  match f with
  | 0 => placeOf 0xC2D00000
  | 1 => placeOf 0xC3160000
  | 2 => 0x3F800000
  | 4 => -topPlace
  | 6 => placeOf 0xC3000000
  | _ => 0

/-- Where the exact value passes into its binade from below, the bound doubles; the results before that point still hold
those after it up. -/
def lowBefore (f : Nat) (o : Int) (v : Near) : Int :=
  if v.binade ≤ -126 ∨ v.n ≤ 0 then -topPlace
  else
    let p (x : Int) : Bool := decide (2 ^ (512 + v.binade).toNat ≤ (nearAt f (turn f x)).n)
    let first := firstPlace p 34 (lowStart f) o
    if first - 1 < lowStart f ∨ p (lowStart f) = true then -topPlace else lowPlace f (nearAt f (turn f (first - 1)))

/-- Likewise above a negative value, whose bound halves as it comes nearer 0: the results after that point hold those
before it down. -/
def highAfter (f : Nat) (o : Int) (v : Near) : Int :=
  if v.binade ≤ -126 ∨ 0 ≤ v.n then topPlace
  else
    let p (x : Int) : Bool := decide (-(2 ^ (512 + v.binade).toNat : Int) ≤ (nearAt f x).n)
    highPlace f (nearAt f (firstPlace p 34 o (if f = 2 then 0x3F800000 else 0)))

/-- The places that the exact results of 09 R210 and the ranges of 09 R211 leave to a monotonic function. -/
def exactRange (f : Nat) (s : Bool) (a : Nat) (e : Int) : Int × Int :=
  let one : Int := 0x3F800000
  match f with
  | 0 => if s then (0, one) else (one, topPlace)
  | 1 =>
    let i := (fixOf s a e) / fixOne
    (if i < -149 then 0 else placeAbove (2 ^ (512 + i).toNat), if 127 ≤ i then topPlace else placeBelow (2 ^ (513 + i).toNat))
  | 2 => if fixOf s a e < fixOne then (-topPlace, 0) else (0, topPlace)
  | 4 => (0, topPlace)
  | 6 => if s then (0, 0x3F000000) else (0x3F000000, one)
  | _ => if s then (-one, 0) else (0, one)

/-- The result of a monotonic function: of the places that its own exact value and its neighbours' leave, the highest whose
threshold the argument has reached. The thresholds are the unit's own choice; with any thresholds the results keep their
order, and any ordered results within the bounds have thresholds (assumption 13). -/
def monotonic (f : Nat) (s : Bool) (a : Nat) (e : Int) : Int :=
  let o := turn f (placeOf (roundTo 0 (.fin s a e)))
  let v := nearValue f s a e
  let r := exactRange f s a e
  let lo := max r.1 (max (lowPlace f v) (lowBefore f o v))
  let hi := min r.2 (min (highPlace f v) (highAfter f o v))
  (List.range (hi - lo).toNat).foldl (fun best i =>
    let y := lo + (i + 1 : Int)
    if Config.specialStep f y ≤ o then y else best) lo

/-- One of the places from `lo` to `hi`, by a choice. -/
def anyPlace (choice : Nat) (lo hi : Int) : Int := lo + (choice % ((hi - lo).toNat + 1) : Nat)

/-- One of the places within the bound, by a choice, held to a range. -/
def boundedPlace (f choice : Nat) (v : Near) (least most : Int) : Int :=
  anyPlace choice (max least (lowPlace f v)) (min most (highPlace f v))

/-- One, as a number. -/
def fnOne : FNum := .fin false 1 0

/-- Whether x >= y. -/
def FNum.ge (x y : FNum) : Bool := !x.isNan && !y.isNan && !x.lt y

/-! ### The functions (09 R210) -/

/-- The FP32 result of function `f` for a finite nonzero argument; `choice` is the unit's own for the argument. A zero that
the bound admits may have either sign, but SIGMOID's is +0 (09 R211). -/
def specialFinite (f choice : Nat) (s : Bool) (a : Nat) (e : Int) : Nat :=
  let x : FNum := .fin s a e
  let neg := decide (choice % 2 = 1)
  let one : Int := 0x3F800000
  let v := nearValue f s a e
  match f with
  | 0 =>
    if x.ge (f32 0x42B17218) then infCode 0
    else if (f32 0xC2D00000).ge x then 0
    else codeAt (monotonic 0 s a e) neg
  | 1 =>
    if x.ge (.fin false 128 0) then infCode 0
    else if (FNum.fin true 150 0).ge x then 0
    else
      match wholeOf s a e with
      | some i => roundTo 0 (fnOne.scale i)
      | none => codeAt (monotonic 1 s a e) neg
  | 2 =>
    if s then canonNan 0
    else if !x.lt fnOne && !fnOne.lt x then 0
    else codeAt (monotonic 2 s a e) neg
  | 3 => recip32 x
  | 4 => if s then canonNan 0 else codeAt (monotonic 4 s a e) neg
  | 5 => sqrt32 x
  | 6 => codeAt (monotonic 6 s a e) false
  | 7 => codeAt (monotonic 7 s a e) neg
  | 8 => codeAt (boundedPlace f (choice / 2) v (-topPlace) topPlace) neg
  | 9 => codeAt (boundedPlace f (choice / 2) v (-topPlace) topPlace) neg
  | _ =>
    if (FNum.fin false 1 20).lt (.fin false a e) then codeAt (anyPlace (choice / 2) (-one) one) neg
    else codeAt (boundedPlace f (choice / 2) v (-one) one) neg

/-- The result at an infinity (09 R210). -/
def specialInf (f : Nat) (s : Bool) : Nat :=
  let nan := canonNan 0
  let pinf := infCode 0
  let nzero := 0x80000000
  let one := 0x3F800000
  match f with
  | 0 => if s then 0 else pinf
  | 1 => if s then 0 else pinf
  | 2 => if s then nan else pinf
  | 3 => if s then nzero else 0
  | 4 => if s then nan else 0
  | 5 => if s then nan else pinf
  | 6 => if s then 0 else one
  | 7 => if s then 0xBF800000 else one
  | 8 => if s then nzero else pinf
  | 9 => if s then nzero else pinf
  | _ => nan

/-- The result at a zero (09 R210). -/
def specialZero (f : Nat) (s : Bool) : Nat :=
  let z := if s then 0x80000000 else 0
  let pinf := infCode 0
  match f with
  | 0 => 0x3F800000
  | 1 => 0x3F800000
  | 2 => 0x80000000 + pinf
  | 3 => if s then 0x80000000 + pinf else pinf
  | 4 => if s then 0x80000000 + pinf else pinf
  | 5 => z
  | 6 => 0x3F000000
  | 7 => z
  | 8 => z
  | 9 => z
  | 0xA => z
  | _ => 0x3F800000

/-- The FP32 result of special function `f` (09 R210, R211): one and the same for one argument. -/
def special32 (f : Nat) (x : FNum) : Nat :=
  match x with
  | .nan => canonNan 0
  | .inf s => specialInf f s
  | .fin s a e =>
    if a = 0 then specialZero f s
    else specialFinite f (Config.special f (BitVec.ofNat 32 (roundTo 0 x))) s a e

end Sys2Proof.Machine
end

