-- ==== Sys2Proof/Machine/Vector.lean ====
section
/-!
DEFINITION. The vector engine: node bodies, operand places, the simple operations, conversion, quantisation, rescaling,
soft maximum, norms and the largest element (09 R200 to R217, 08 R184 to R192, R199).
-/

namespace Sys2Proof.Machine

/-! ### The body (09 R202, R203) -/

/-- An operand descriptor (09 R203). -/
structure Operand where
  row : Nat
  fmt : Nat
  oflags : Nat
  scaleRow : Nat
  tstride : Nat
  memberRows : Nat
  deriving DecidableEq, Repr

/-- A vector node body (09 R202). -/
structure VecBody where
  op : Nat
  func : Nat
  cvt : Nat
  nops : Nat
  rows : Nat
  cols : Nat
  qctl : Nat
  qrow : Nat
  flags : Nat
  imm : Nat
  statRow : Nat
  dst : Operand
  srcs : List Operand
  deriving DecidableEq, Repr

def parseOperand (b : List Byte) (o : Nat) : Operand :=
  { row := fld b o 2, fmt := fld b (o + 2) 1, oflags := fld b (o + 3) 1, scaleRow := fld b (o + 4) 2
    tstride := fld b (o + 6) 2, memberRows := fld b (o + 8) 2 }

def parseVec (b : List Byte) : VecBody :=
  { op := fld b 0 1, func := fld b 1 1, cvt := fld b 2 1, nops := fld b 3 1, rows := fld b 4 4, cols := fld b 8 4
    qctl := fld b 12 4, qrow := fld b 16 2, flags := fld b 18 1, imm := fld b 20 4, statRow := fld b 24 2
    dst := parseOperand b 32, srcs := (List.range (fld b 3 1)).map fun i => parseOperand b (48 + 16 * i) }

/-- Store of an operand: 1 AS, 2 PS. -/
def Operand.store (o : Operand) : Nat := if bit o.oflags 0 then 2 else 1
def Operand.bcast (o : Operand) : Nat := bits o.oflags 2 1
def Operand.tiled (o : Operand) : Bool := bit o.oflags 3
def Operand.elem (o : Operand) : Nat := fmtElem o.fmt
def Operand.block (o : Operand) : Nat := fmtBlock o.fmt

/-- First byte of the operand in its store. -/
def Operand.base (o : Operand) : Nat := o.row * rowBytes o.store

/-- Bytes of one dense tensor row (09 R204). -/
def Operand.rowLen (o : Operand) (cols : Nat) : Nat :=
  let n := if 2 ≤ o.bcast then 1 else if o.block = 0 then cols else ceilDiv cols o.block * o.block
  ceilDiv (elemWidth o.elem * n) 8

/-- The row number at which instance `m` finds row `r` (09 R204). -/
def Operand.rowOf (o : Operand) (m r : Nat) : Nat :=
  if o.bcast = 1 ∨ o.bcast = 3 then 0 else r + (if bit o.oflags 4 then m * o.memberRows else 0)

/-- The column at which column `c` is found (09 R204). -/
def Operand.colOf (o : Operand) (c : Nat) : Nat := if 2 ≤ o.bcast then 0 else c

/-- First byte of element (r', c) in the tiled layout (09 R204). -/
def Operand.tileAt (o : Operand) (r c : Nat) : Nat :=
  let e := elemWidth o.elem / 8
  (o.row + c / 256 * o.tstride) * rowBytes o.store + r * 256 * e + c % 256 * e

/-- The code of element (r, c) for instance `m`. -/
def Operand.code (o : Operand) (t : Truss) (cols m r c : Nat) : Nat :=
  let r' := o.rowOf m r
  let c' := o.colOf c
  if o.tiled then Cells.num (t.cells o.store) (o.tileAt r' c') (elemWidth o.elem / 8)
  else Cells.elem (t.cells o.store) (o.base + r' * o.rowLen cols) (elemWidth o.elem) c'

/-- The value of element (r, c) for instance `m`, after the input flush (05 R135, R136). -/
def Operand.value (o : Operand) (t : Truss) (ftz : Bool) (cols m r c : Nat) : FNum :=
  let code := o.code t cols m r c
  if o.block = 0 then readElem ftz o.elem code
  else
    let per := ceilDiv cols o.block
    let sc := (Sparse.get (o.scaleRow * rowBytes o.store + o.rowOf m r * per + o.colOf c / o.block)
      (t.cells o.store)).toNat
    decodeMx o.elem sc code

/-- Source `i` of a body; the destination stands for one that is missing. -/
def VecBody.src (b : VecBody) (i : Nat) : Operand := b.srcs.getD i b.dst

/-! ### Regions (09 R204) -/

/-- The byte regions of an operand for instance `m`: store, first byte, length (09 R204). -/
def Operand.regions (o : Operand) (rows cols m : Nat) : List (Nat × Nat × Nat) :=
  let r0 := o.rowOf m 0
  let r1 := o.rowOf m (rows - 1)
  let cN := o.colOf (cols - 1)
  if o.tiled then
    (List.range (cN / 256 + 1)).map fun ti =>
      let lo := o.tileAt r0 (256 * ti)
      let hi := o.tileAt r1 (min (256 * ti + 255) cN) + elemWidth o.elem / 8
      (o.store, lo, hi - lo)
  else
    let p := o.rowLen cols
    let per := ceilDiv cols (max 1 o.block)
    (o.store, o.base + r0 * p, (r1 + 1 - r0) * p) ::
      (if o.block = 0 then []
       else [(o.store, o.scaleRow * rowBytes o.store, (r1 + 1) * per)])

/-- The statistics region of a SOFTMAX with STATS_OUT (09 R215). -/
def VecBody.statRegion (b : VecBody) (m : Nat) : List (Nat × Nat × Nat) :=
  if b.op = 0x18 ∧ bit b.flags 0 then
    let r0 := b.dst.rowOf m 0
    [(b.dst.store, b.statRow * rowBytes b.dst.store + 8 * r0, 8 * b.rows)]
  else []

/-- Columns of the destination tensor: two for ARGMAX (09 R205). -/
def VecBody.dstCols (b : VecBody) : Nat := if b.op = 0x1B then 2 else b.cols

/-! ### Parameters (08 R184 to R187) -/

def VecBody.akind (b : VecBody) : Nat := bits b.qctl 1 0
def VecBody.agran (b : VecBody) : Nat := bits b.qctl 3 2
def VecBody.wkind (b : VecBody) : Nat := bits b.qctl 5 4
def VecBody.wgran (b : VecBody) : Nat := bits b.qctl 7 6

/-- Bytes of a parameter entry by kind (08 R186). -/
def entryBytes (kind : Nat) : Nat := [0, 1, 4, 8].getD kind 0

/-- Entries of an array by granularity. -/
def entryCount (gran rows cols : Nat) : Nat := if gran = 0 then 1 else if gran = 1 then rows else cols

/-- AS rows of the A-side array, of the W-side array, and of the column sums (08 R186). -/
def VecBody.aRows (b : VecBody) : Nat := ceilDiv (entryBytes b.akind * entryCount b.agran b.rows b.cols) 512
def VecBody.wRows (b : VecBody) : Nat := ceilDiv (entryBytes b.wkind * entryCount b.wgran b.rows b.cols) 512
def VecBody.sumRows (b : VecBody) : Nat := if b.op = 9 ∧ b.akind = 3 then ceilDiv (4 * b.cols) 512 else 0

/-- AS rows that hold the parameter arrays, 0 without a control word (09 R209). -/
def VecBody.paramRows (b : VecBody) : Nat := if b.qctl = 0 then 0 else b.aRows + b.wRows + b.sumRows

/-- A parameter: the factor, none where its scale is invalid, the zero point as clamped, and whether it was (08 R187). -/
structure Param where
  factor : Option FNum
  zero : Int
  clamped : Bool
  deriving DecidableEq, Repr

/-- Whether a scale entry is positive, finite and normal (08 R187). -/
def scaleValid (c : Nat) : Bool := decide (0x00800000 ≤ c) && decide (c ≤ maxCode 0)

/-- A signed field of a byte sequence. -/
def sfld (bs : List Byte) (a n : Nat) : Int := decodeInt (8 * n) (fld bs a n)

/-- Entry `i` of the array of a kind from AS byte `a`, its zero point clamped to lo..hi (08 R186, R187). -/
def readParam (t : Truss) (kind a i : Nat) (lo hi : Int) : Param :=
  let e := Cells.read t.as (a + i * entryBytes kind) (entryBytes kind)
  match kind with
  | 0 => { factor := some fnOne, zero := 0, clamped := false }
  | 1 => { factor := some (fnOne.scale (sfld e 0 1)), zero := 0, clamped := false }
  | 2 =>
    { factor := if scaleValid (fld e 0 4) then some (f32 (fld e 0 4)) else none, zero := 0, clamped := false }
  | _ =>
    let z := sfld e 4 2
    { factor := if scaleValid (fld e 0 4) then some (f32 (fld e 0 4)) else none
      zero := max lo (min hi z), clamped := decide (z < lo) || decide (hi < z) }

/-- The index of a parameter for (r, c) by granularity. -/
def paramIdx (gran r c : Nat) : Nat := if gran = 0 then 0 else if gran = 1 then r else c

/-- The A-side parameter of (r, c), its zero point held to a range. -/
def VecBody.aParam (b : VecBody) (t : Truss) (r c : Nat) (lo hi : Int) : Param :=
  readParam t b.akind (b.qrow * 512) (paramIdx b.agran r c) lo hi

/-- The W-side parameter of column c. -/
def VecBody.wParam (b : VecBody) (t : Truss) (c : Nat) : Param :=
  readParam t b.wkind ((b.qrow + b.aRows) * 512) (paramIdx b.wgran 0 c) 0 0

/-- The column sum of column c (08 R186). -/
def VecBody.colSum (b : VecBody) (t : Truss) (c : Nat) : Int :=
  decodeInt 32 (Cells.num t.as ((b.qrow + b.aRows + b.wRows) * 512 + 4 * c) 4)

/-- What an operation leaves in PART_QNT_STATUS (08 R199). -/
structure QntMarks where
  clamps : Nat
  badScale : Bool
  badZp : Bool
  deriving DecidableEq, Repr

def QntMarks.none : QntMarks := { clamps := 0, badScale := false, badZp := false }

def QntMarks.join (a b : QntMarks) : QntMarks :=
  { clamps := a.clamps + b.clamps, badScale := a.badScale || b.badScale, badZp := a.badZp || b.badZp }

/-- The marks of a parameter that a result used. -/
def Param.marks (p : Param) : QntMarks := { clamps := 0, badScale := p.factor.isNone, badZp := p.clamped }

/-- A signed quotient num / den rounded to an integer under RND (05 R145). -/
def roundRatio (rtz : Bool) (neg : Bool) (num den : Nat) : Int :=
  let q := num / den
  let r := num % den
  let n := if rtz || decide (2 * r < den) then q else if den < 2 * r then q + 1 else q + q % 2
  if neg then -(n : Int) else n

/-- A number divided by a positive factor, rounded to an integer (08 R188). -/
def roundQuot (rtz s : Bool) (a : Nat) (e : Int) (d : FNum) : Int :=
  match d with
  | .fin _ b g =>
    if g ≤ e then roundRatio rtz s (a * 2 ^ (e - g).toNat) b else roundRatio rtz s a (b * 2 ^ (g - e).toNat)
  | _ => 0

/-- The code of an integer held to a two's complement width, and whether it was clamped. -/
def clampCode (w : Nat) (i : Int) : Nat × Bool :=
  let top : Int := 2 ^ (w - 1)
  let v := max (-top) (min (top - 1) i)
  ((v % (2 ^ w : Int)).toNat, decide (v ≠ i))

/-- A quantising conversion into INT8 or INT4 of width `w` (08 R187, R188). -/
def quantise (w : Nat) (rtz : Bool) (p : Param) (x : FNum) : Nat × QntMarks :=
  let zc := (clampCode w p.zero).1
  match p.factor with
  | Option.none => (zc, { p.marks with clamps := b2n p.clamped })
  | some d =>
    match x with
    | .nan => (zc, p.marks)
    | .inf s => ((if s then 2 ^ (w - 1) else 2 ^ (w - 1) - 1), { p.marks with clamps := 1 })
    | .fin s a e =>
      let c := clampCode w (roundQuot rtz s a e d + p.zero)
      (c.1, { p.marks with clamps := b2n c.2 })

/-- The exact value of a code under its parameter (08 R184, R189); none under an invalid scale. -/
def dequantise (p : Param) (q : Int) : FNum :=
  match p.factor with
  | Option.none => .nan
  | some d => (numInt (q - p.zero)).mul d

/-! ### Simple operations (09 R205, R206) -/

/-- The result of a sum of sources in their order, rounded to FP32 between additions (09 R206, 07 R183). -/
def addChain : FNum → List FNum → FNum
  | x, [] => x
  | x, [y] => x.add y
  | x, y :: z :: t => addChain (f32 (toF32 (x.add y))) (z :: t)

/-- The exact result, before the one rounding to the destination, of ADD, MUL, FMA, MAX, MIN, FUNC and GATE. -/
def VecBody.point (b : VecBody) (xs : List FNum) : FNum :=
  let imm := f32 b.imm
  match b.op, xs with
  | 0x01, [a] => a.add imm
  | 0x01, a :: rest => addChain a rest
  | 0x02, [a] => a.mul imm
  | 0x02, a :: c :: _ => a.mul c
  | 0x03, a :: c :: d :: _ => (a.mul c).add d
  | 0x04, [a] => a.max imm
  | 0x04, a :: c :: _ => a.max c
  | 0x05, [a] => a.min imm
  | 0x05, a :: c :: _ => a.min c
  | 0x10, a :: _ => f32 (special32 b.func a)
  | 0x11, a :: c :: _ => (f32 (special32 b.func a)).mul c
  | _, _ => .nan

/-- The values of every source at (r, c). -/
def VecBody.vals (b : VecBody) (t : Truss) (ftz : Bool) (m r c : Nat) : List FNum :=
  b.srcs.map fun o => o.value t ftz b.cols m r c

/-- The codes of one row of an elementwise operation. -/
def VecBody.pointRow (b : VecBody) (t : Truss) (ftz : Bool) (m r : Nat) : List Nat :=
  (List.range b.cols).map fun c => writeFloat ftz b.dst.elem (b.point (b.vals t ftz m r c))

/-! ### CONVERT and RESCALE (09 R207, 05 R142 to R146, 08 R188 to R191) -/

def VecBody.rtz (b : VecBody) : Bool := bits b.cvt 1 0 == 1
def VecBody.sat (b : VecBody) : Bool := bit b.cvt 2

/-- Whether a format byte is plain INT8 or INT4. -/
def plainInt (f : Nat) : Bool := fmtBlock f == 0 && (fmtElem f == 8 || fmtElem f == 9)

/-- Whether a format byte is FP32, BF16 or FP16. -/
def wideFloat (f : Nat) : Bool := fmtBlock f == 0 && decide (fmtElem f ≤ 2)

/-- The range of zero points of a plain integer format (08 R187). -/
def zpLo (f : Nat) : Int := if fmtElem f = 9 then -8 else -128
def zpHi (f : Nat) : Int := if fmtElem f = 9 then 7 else 127

/-- One element of a conversion into an unscaled destination. -/
def VecBody.convertElem (b : VecBody) (t : Truss) (ftz : Bool) (m r c : Nat) : Nat × QntMarks :=
  let o := b.src 0
  let x := o.value t ftz b.cols m r c
  let d := b.dst.elem
  if b.akind != 0 && wideFloat o.fmt && plainInt b.dst.fmt then
    quantise (elemWidth d) b.rtz (b.aParam t r c (zpLo b.dst.fmt) (zpHi b.dst.fmt)) x
  else if b.akind != 0 && plainInt o.fmt && wideFloat b.dst.fmt then
    let p := b.aParam t r c (zpLo o.fmt) (zpHi o.fmt)
    let v := dequantise p (decodeInt (elemWidth o.elem) (o.code t b.cols m r c))
    (encodeElem d b.rtz b.sat (flushNum ftz d v), p.marks)
  else (encodeElem d b.rtz b.sat (flushNum ftz d x), QntMarks.none)

/-- The blocks of a row converted into an MX format: scale bytes and codes with padding (05 R131, R133). -/
def VecBody.convertBlocks (b : VecBody) (t : Truss) (ftz : Bool) (m r : Nat) : List (Nat × List Nat) :=
  let bs := b.dst.block
  (List.range (ceilDiv b.cols bs)).map fun i =>
    let xs := (List.range (min bs (b.cols - i * bs))).map fun d => (b.src 0).value t ftz b.cols m r (i * bs + d)
    let e := encodeBlock b.dst.elem b.rtz xs
    (e.1, e.2 ++ List.replicate (bs - e.2.length) 0)

/-! One operation rounded to FP32. -/

def fma32 (a b c : FNum) : FNum := f32 (toF32 ((a.mul b).add c))
def mul32 (a b : FNum) : FNum := f32 (toF32 (a.mul b))
def add32 (a b : FNum) : FNum := f32 (toF32 (a.add b))
def sub32 (a b : FNum) : FNum := f32 (toF32 (a.add b.neg))

/-- One element of a rescale (08 R191). -/
def VecBody.rescaleElem (b : VecBody) (t : Truss) (ftz : Bool) (m r c : Nat) : Nat × QntMarks :=
  let acc := (b.src 0).value t ftz b.cols m r c
  let pa := b.aParam t r c (-128) 127
  let pw := b.wParam t c
  let marks := pa.marks.join pw.marks
  match pa.factor, pw.factor with
  | some fa, some fw =>
    let tv := if b.akind = 3 then sub32 acc (numInt (pa.zero * b.colSum t c)) else acc
    (writeFloat ftz 0 ((tv.mul fa).mul fw), marks)
  | _, _ => (canonNan 0, marks)

/-! ### Row operations (09 R213 to R217) -/

/-- Neighbouring statistics combined: one level of the tree. -/
def pairUp {α : Type} (f : α → α → α) : List α → List α
  | a :: b :: t => f a b :: pairUp f t
  | t => t

/-- The 512 lane statistics combined in nine levels (09 R213). -/
def treeOf {α : Type} (f : α → α → α) (lanes : List α) : List α := (List.range 9).foldl (fun l _ => pairUp f l) lanes

/-- The statistic of a row: each lane takes its elements in ascending order, then the tree (09 R213). -/
def rowStat {α β : Type} (start : α) (step : α → β → α) (merge : α → α → α) (xs : List β) : α :=
  let cols := xs.length
  let lanes := (List.range 512).map fun l =>
    (List.range (ceilDiv (cols - l) 512)).foldl (fun a i =>
      match xs[l + 512 * i]? with
      | some x => step a x
      | Option.none => a) start
  (treeOf merge lanes).headD start

def expOf (x : FNum) : FNum := f32 (special32 0 x)

/-- SOFTMAX's update of a lane (09 R214). -/
def softUpdate (lane : FNum × FNum) (v : FNum) : FNum × FNum :=
  if v = .inf true then lane
  else if lane.1 = .inf true then (v, fnOne)
  else if lane.1.lt v then (v, fma32 lane.2 (expOf (sub32 lane.1 v)) fnOne)
  else (lane.1, add32 lane.2 (expOf (sub32 v lane.1)))

/-- SOFTMAX's merge of two lanes, p from the lower (09 R214). -/
def softMerge (p q : FNum × FNum) : FNum × FNum :=
  if q.1 = .inf true then p
  else if p.1 = .inf true then q
  else if p.1.lt q.1 then (q.1, fma32 p.2 (expOf (sub32 p.1 q.1)) q.2)
  else (p.1, fma32 q.2 (expOf (sub32 q.1 p.1)) p.2)

/-- +0, as a number. -/
def fnZero : FNum := .fin false 0 0

/-- One row of SOFTMAX: codes, and the statistics M and S (09 R214, R215). -/
def VecBody.softmaxRow (b : VecBody) (t : Truss) (ftz : Bool) (m r : Nat) : List Nat × FNum × FNum :=
  let imm := f32 b.imm
  let z := (List.range b.cols).map fun c =>
    match b.vals t ftz m r c with
    | a :: d :: _ => fma32 a imm d
    | a :: _ => mul32 a imm
    | [] => .nan
  if z.any fun v => v.isNan || v == .inf false then (z.map fun _ => canonNan b.dst.elem, .nan, .nan)
  else if z.all fun v => v == .inf true then (z.map fun _ => 0, .inf true, fnZero)
  else
    let ms := rowStat (FNum.inf true, fnZero) softUpdate softMerge z
    let rcp := if bit b.flags 1 then fnOne else f32 (recip32 ms.2)
    (z.map fun v => writeFloat ftz b.dst.elem ((expOf (sub32 v ms.1)).mul rcp), ms.1, ms.2)

/-- 1 / COLS rounded to FP32 (09 R216). -/
def recipCols (cols : Nat) : FNum := f32 (recip32 (numInt cols))

/-- One row of RMSNORM (09 R216). -/
def VecBody.rmsRow (b : VecBody) (t : Truss) (ftz : Bool) (m r : Nat) : List Nat :=
  let x := (List.range b.cols).map fun c => (b.src 0).value t ftz b.cols m r c
  let q := rowStat fnZero (fun q v => fma32 v v q) add32 x
  let rs := f32 (special32 4 (add32 (mul32 q (recipCols b.cols)) (f32 b.imm)))
  (List.range b.cols).map fun c =>
    match b.vals t ftz m r c with
    | v :: g :: _ => writeFloat ftz b.dst.elem ((v.mul rs).mul g)
    | v :: _ => writeFloat ftz b.dst.elem (v.mul rs)
    | [] => canonNan b.dst.elem

/-- One row of LAYERNORM (09 R216). -/
def VecBody.layerRow (b : VecBody) (t : Truss) (ftz : Bool) (m r : Nat) : List Nat :=
  let n := recipCols b.cols
  let x := (List.range b.cols).map fun c => (b.src 0).value t ftz b.cols m r c
  let mu := mul32 (rowStat fnZero add32 add32 x) n
  let v := rowStat fnZero (fun q y => let d := sub32 y mu; fma32 d d q) add32 x
  let rs := f32 (special32 4 (add32 (mul32 v n) (f32 b.imm)))
  (List.range b.cols).map fun c =>
    match b.vals t ftz m r c with
    | y :: g :: be :: _ => writeFloat ftz b.dst.elem ((((sub32 y mu).mul rs).mul g).add be)
    | y :: g :: _ => writeFloat ftz b.dst.elem ((((sub32 y mu).mul rs).mul g).add fnZero)
    | y :: _ => writeFloat ftz b.dst.elem (((sub32 y mu).mul rs).add fnZero)
    | [] => canonNan b.dst.elem

/-- The largest element of a row and its index; the first NaN, where there is one (09 R217). -/
def argmaxOf (xs : List FNum) : FNum × Nat :=
  match xs.findIdx? FNum.isNan with
  | some i => (.nan, i)
  | Option.none =>
    match xs with
    | [] => (.nan, 0)
    | x :: t =>
      let best := t.foldl (fun (a : FNum × Nat × Nat) y => if a.1.lt y then (y, a.2.2 + 1, a.2.2 + 1)
        else (a.1, a.2.1, a.2.2 + 1)) (x, 0, 0)
      (best.1, best.2.1)

/-- One row of ARGMAX: the two FP32 places (09 R217). -/
def VecBody.argmaxRow (b : VecBody) (t : Truss) (ftz : Bool) (m r : Nat) : List Nat :=
  let a := argmaxOf ((List.range b.cols).map fun c => (b.src 0).value t ftz b.cols m r c)
  [toF32 a.1, a.2]

/-! ### Writing (09 R204) -/

/-- Writes the codes of one row of a destination. -/
def Operand.putRow (o : Operand) (t : Truss) (m r : Nat) (codes : List Nat) : Truss :=
  let r' := o.rowOf m r
  let w := elemWidth o.elem
  if o.tiled then
    (List.range (ceilDiv codes.length 256)).foldl (fun t ti =>
      t.write o.store (o.tileAt r' (256 * ti)) (packCodes w ((codes.drop (256 * ti)).take 256))) t
  else t.write o.store (o.base + r' * o.rowLen codes.length) (packCodes w codes)

/-- Writes one row of an MX destination: its padded codes and its scales (05 R131). -/
def Operand.putBlocks (o : Operand) (t : Truss) (m r : Nat) (blocks : List (Nat × List Nat)) : Truss :=
  let codes := blocks.flatMap (·.2)
  let t := t.write o.store (o.base + o.rowOf m r * ceilDiv (elemWidth o.elem * codes.length) 8)
    (packCodes (elemWidth o.elem) codes)
  t.write o.store (o.scaleRow * rowBytes o.store + o.rowOf m r * blocks.length)
    (blocks.map fun x => BitVec.ofNat 8 x.1)

/-- One row of a node's instance: the truss with the row written, and what it marks. `t0` is the truss as the node
found it: every read of an element precedes its write (09 R208). -/
def VecBody.runRow (b : VecBody) (t0 : Truss) (ftz : Bool) (m r : Nat) (t : Truss) : Truss × QntMarks :=
  match b.op with
  | 0x08 =>
    if b.dst.block != 0 then (b.dst.putBlocks t m r (b.convertBlocks t0 ftz m r), QntMarks.none)
    else
      let xs := (List.range b.cols).map fun c => b.convertElem t0 ftz m r c
      (b.dst.putRow t m r (xs.map (·.1)), (xs.map (·.2)).foldl QntMarks.join QntMarks.none)
  | 0x09 =>
    let xs := (List.range b.cols).map fun c => b.rescaleElem t0 ftz m r c
    (b.dst.putRow t m r (xs.map (·.1)), (xs.map (·.2)).foldl QntMarks.join QntMarks.none)
  | 0x18 =>
    let x := b.softmaxRow t0 ftz m r
    let t := b.dst.putRow t m r x.1
    let t := if bit b.flags 0 then
        t.write b.dst.store (b.statRow * rowBytes b.dst.store + 8 * b.dst.rowOf m r)
          (leBytes 4 (writeFloat ftz 0 x.2.1) ++ leBytes 4 (writeFloat ftz 0 x.2.2))
      else t
    (t, QntMarks.none)
  | 0x19 => (b.dst.putRow t m r (b.rmsRow t0 ftz m r), QntMarks.none)
  | 0x1A => (b.dst.putRow t m r (b.layerRow t0 ftz m r), QntMarks.none)
  | 0x1B => (b.dst.putRow t m r (b.argmaxRow t0 ftz m r), QntMarks.none)
  | _ => (b.dst.putRow t m r (b.pointRow t0 ftz m r), QntMarks.none)

/-- A node's instance, row after row. -/
def VecBody.runAll (b : VecBody) (t : Truss) (ftz : Bool) (m : Nat) : Truss × QntMarks :=
  (List.range b.rows).foldl (fun (a : Truss × QntMarks) r =>
    let x := b.runRow t ftz m r a.1
    (x.1, a.2.join x.2)) (t, QntMarks.none)

/-- What an instance reads and writes of its truss's scratchpads (09 R204, R215). -/
def VecBody.footprint (b : VecBody) (m : Nat) : Footprint :=
  { reads := (b.srcs.flatMap fun o => o.regions b.rows b.cols m) ++
      (if b.paramRows = 0 then [] else [(1, b.qrow * 512, b.paramRows * 512)])
    writes := b.dst.regions b.rows b.dstCols m ++ b.statRegion m }

/-- Records an operation's marks in PART_QNT_STATUS (08 R199). -/
def Partition.qntMarks (p : Partition) (q : QntMarks) : Partition :=
  let p := p.count offQnt 31 16 q.clamps
  let p := if q.badScale then p.flag offQnt 0 else p
  if q.badZp then p.flag offQnt 1 else p

/-- A vector node instance of the given operation that runs: its results, or the end of the raise on an uncorrectable
scratchpad word (10 R220). -/
def Mod.vectorNode (m : Mod) (op k c node : Nat) (w : UnitWork) : Mod :=
  let member := w.index
  match m.nodeAt k c node member with
  | none => m
  | some (u, img, _) =>
    let b := parseVec (nodeBody img node)
    if nodeUnit img node != 2 || b.op != op || m.shutStands then m
    else
      let ti := u.phys img (nodeTruss img node)
      let m := m.scratchFinds k ti (b.footprint member) w.finds
      let p := m.part k
      if (b.footprint member).bad (p.truss ti) then (m.scratchError k c).worked k c node member
      else
        let x := b.runAll (p.truss ti) (p.ctx c).ftz member
        (m.modPart k fun p => (p.modTruss ti fun _ => x.1).qntMarks x.2).worked k c node member

/-- VECTOR_ADD (09 R206). -/
def execVectorAdd (k : Fin 64) (c : Fin 16) (node : Nat) (work : UnitWork) (s : State) :
    Host.Outcome State Fault Refusal :=
  s.act fun m => m.vectorNode 0x01 k.val c.val node work

/-- VECTOR_MUL (09 R205). -/
def execVectorMul (k : Fin 64) (c : Fin 16) (node : Nat) (work : UnitWork) (s : State) :
    Host.Outcome State Fault Refusal :=
  s.act fun m => m.vectorNode 0x02 k.val c.val node work

/-- VECTOR_FMA (09 R205). -/
def execVectorFma (k : Fin 64) (c : Fin 16) (node : Nat) (work : UnitWork) (s : State) :
    Host.Outcome State Fault Refusal :=
  s.act fun m => m.vectorNode 0x03 k.val c.val node work

/-- VECTOR_MAX (05 R139). -/
def execVectorMax (k : Fin 64) (c : Fin 16) (node : Nat) (work : UnitWork) (s : State) :
    Host.Outcome State Fault Refusal :=
  s.act fun m => m.vectorNode 0x04 k.val c.val node work

/-- VECTOR_MIN (05 R139). -/
def execVectorMin (k : Fin 64) (c : Fin 16) (node : Nat) (work : UnitWork) (s : State) :
    Host.Outcome State Fault Refusal :=
  s.act fun m => m.vectorNode 0x05 k.val c.val node work

/-- CONVERT (09 R207). -/
def execConvert (k : Fin 64) (c : Fin 16) (node : Nat) (work : UnitWork) (s : State) :
    Host.Outcome State Fault Refusal :=
  s.act fun m => m.vectorNode 0x08 k.val c.val node work

/-- RESCALE (08 R191). -/
def execRescale (k : Fin 64) (c : Fin 16) (node : Nat) (work : UnitWork) (s : State) :
    Host.Outcome State Fault Refusal :=
  s.act fun m => m.vectorNode 0x09 k.val c.val node work

/-- VECTOR_FUNC (09 R210). -/
def execVectorFunc (k : Fin 64) (c : Fin 16) (node : Nat) (work : UnitWork) (s : State) :
    Host.Outcome State Fault Refusal :=
  s.act fun m => m.vectorNode 0x10 k.val c.val node work

/-- GATE (09 R212). -/
def execGate (k : Fin 64) (c : Fin 16) (node : Nat) (work : UnitWork) (s : State) :
    Host.Outcome State Fault Refusal :=
  s.act fun m => m.vectorNode 0x11 k.val c.val node work

/-- SOFTMAX (09 R214). -/
def execSoftmax (k : Fin 64) (c : Fin 16) (node : Nat) (work : UnitWork) (s : State) :
    Host.Outcome State Fault Refusal :=
  s.act fun m => m.vectorNode 0x18 k.val c.val node work

/-- RMSNORM (09 R216). -/
def execRmsnorm (k : Fin 64) (c : Fin 16) (node : Nat) (work : UnitWork) (s : State) :
    Host.Outcome State Fault Refusal :=
  s.act fun m => m.vectorNode 0x19 k.val c.val node work

/-- LAYERNORM (09 R216). -/
def execLayernorm (k : Fin 64) (c : Fin 16) (node : Nat) (work : UnitWork) (s : State) :
    Host.Outcome State Fault Refusal :=
  s.act fun m => m.vectorNode 0x1A k.val c.val node work

/-- ARGMAX (09 R217). -/
def execArgmax (k : Fin 64) (c : Fin 16) (node : Nat) (work : UnitWork) (s : State) :
    Host.Outcome State Fault Refusal :=
  s.act fun m => m.vectorNode 0x1B k.val c.val node work

/-! ### Counting (09 R209) -/

/-- Whether every format of a body is 16 bits wide or narrower. -/
def VecBody.narrow (b : VecBody) : Bool :=
  decide (elemWidth b.dst.elem ≤ 16) && b.srcs.all fun o => decide (elemWidth o.elem ≤ 16)

/-- The truss-cycle count c_vec (09 R209). -/
def VecBody.cycles (b : VecBody) : Nat :=
  let n := b.rows * b.cols
  let l := if b.narrow then 1024 else 512
  let c := match b.op with
    | 0x01 => max 1 (b.nops - 1) * ceilDiv n l
    | 0x08 => (if b.dst.block != 0 then 2 else 1) * ceilDiv n l
    | 0x10 => ceilDiv n 128
    | 0x11 => ceilDiv n 128
    | 0x18 => b.rows * (2 * ceilDiv b.cols 128 + 40)
    | 0x19 => b.rows * (2 * ceilDiv b.cols 512 + 30)
    | 0x1A => b.rows * (3 * ceilDiv b.cols 512 + 40)
    | 0x1B => b.rows * (ceilDiv b.cols 512 + 12)
    | _ => ceilDiv n l
  24 + b.paramRows + c

end Sys2Proof.Machine
end

