-- ==== Sys2Proof/Machine/Memory.lean ====
section
/-!
DEFINITION. Near and external memory: the partition address, keys of external memory, error codes and poison, host
access through BAR2, and the patrol scrub (11 R248 to R262).
-/

namespace Sys2Proof.Machine

/-! ### The partition address (11 R248, R249) -/

def nearEnd : Nat := 0x60000000
def extStart : Nat := 0x100000000
def extEnd : Nat := 0x218000000

/-- The location, the region and the mode of an address. -/
def addrLoc (a : Nat) : Nat := a % 2 ^ 40
def addrRegion (a : Nat) : Nat := bits a 43 40
def addrMode (a : Nat) : Nat := bits a 46 44

/-- Whether the view of an address is provided (11 R249) and its bits [63:48] are 0. -/
def viewOk (a : Nat) : Bool :=
  decide (a < 2 ^ 47) && (if addrRegion a = 0 then addrMode a == 0 else decide (1 ≤ addrMode a) && decide (addrMode a ≤ 4))

/-- Whether an address has a compressed view. -/
def compressed (a : Nat) : Bool := addrRegion a != 0

/-- Whether `n` bytes from a location lie in the tenant's near locations. -/
def inNear (loc n : Nat) : Bool := decide (loc + n ≤ nearEnd)

/-- Whether `n` bytes from a location lie in the tenant's external locations. -/
def inExt (loc n : Nat) : Bool := decide (extStart ≤ loc) && decide (loc + n ≤ extEnd)

/-- Whether `n` bytes from a location lie in the partition as its tenant reaches it, in one tier (11 R248). -/
def inTenant (loc n : Nat) : Bool := inNear loc n || inExt loc n

/-- Whether an address of a payload, a record or a peg names `n` bytes of the partition in the plain view (11 R249). -/
def plainTenant (a n : Nat) : Bool := decide (a < 2 ^ 40) && inTenant a n

/-- Whether a location is external. -/
def isExt (loc : Nat) : Bool := decide (extStart ≤ loc)

/-- The channel of a location as a notice names it (11 R253, 03 R94). -/
def channelOf (k loc : Nat) : Nat :=
  if isExt loc then 0x8000 + 3 * k + (loc - extStart) / 64 % 3 else 4 * k + loc / 64 % 4

/-- Whether two ranges overlap. -/
def overlaps (a n b w : Nat) : Bool := decide (a < b + w) && decide (b < a + n)

/-! ### Keys of external memory (11 R256, 17 R381, R382) -/

/-- The XTS slot bound to a partition, 0xFFFF for none (17 R398). -/
def Partition.memSlot (p : Partition) : Nat := getF (p.reg offKsStatus) 15 0

/-- A version of a slot. -/
def KeySlot.version (s : KeySlot) (v : Nat) : Option KeyVer :=
  match s.current, s.retiring with
  | some c, some r => if c.ver = v then some c else if r.ver = v then some r else none
  | some c, none => if c.ver = v then some c else none
  | none, some r => if r.ver = v then some r else none
  | none, none => none

/-- The number that stands for key material: equal keys have equal numbers, and 0 is no key. -/
def keyNumber (v : Option KeyVer) : Nat :=
  match v with
  | some k => leNat k.material + 1
  | none => 0

/-- Slot and version that a use of the partition's memory key latches now (17 R382), none without a binding. -/
def Mod.memVersion (m : Mod) (k : Nat) : Option (Nat × Nat) :=
  let slot := (m.part k).memSlot
  if 256 ≤ slot then none
  else (m.keySlot slot).current.map fun v => (slot, v.ver)

/-- The number of the key that a latched version is. -/
def Mod.keyOf (m : Mod) (u : Option (Nat × Nat)) : Nat :=
  match u with
  | some (slot, ver) => keyNumber ((m.keySlot slot).version ver)
  | none => 0

/-- The number of the partition's memory key now. -/
def Mod.memKey (m : Mod) (k : Nat) : Nat := m.keyOf (m.memVersion k)

/-! ### Bytes -/

/-- The tweak of an external granule of partition `k` (11 R253, R255): the global number of its channel, and the granule's
place in the channel. -/
def xtsTweak (k g : Nat) : Nat :=
  let i := g - extStart / 64
  (3 * k + i % 3) * 2 ^ 32 + i / 3

/-- The byte at a location of partition `k`, read under a key: a data unit of external memory written under another key
arrives as pseudo-random bytes (11 R255, R256). -/
def Partition.byteAt (p : Partition) (k key a : Nat) : Byte :=
  if isExt a then
    let g := a / 64
    let w := Table.get 0 g p.extKey
    if w = key then Sparse.get a p.ext
    else (Config.xtsUnit w key (xtsTweak k g) (Cells.read p.ext (64 * g) 64)).getD (a % 64) 0
  else Sparse.get a p.near

/-- The `n` bytes from a location, read under a key. -/
def Partition.bytesAt (p : Partition) (k key loc n : Nat) : List Byte := (List.range n).map fun i => p.byteAt k key (loc + i)

/-- Bytes put into one granule; in external memory the rest of the granule is encrypted anew with them (11 R255). -/
def Partition.putBytes (p : Partition) (k key loc : Nat) (bs : List Byte) : Partition :=
  if isExt loc then
    let g := loc / 64
    if Table.get 0 g p.extKey = key then { p with ext := Cells.write p.ext loc bs }
    else
      let old := p.bytesAt k key (64 * g) 64
      { p with ext := Cells.write (Cells.write p.ext (64 * g) old) loc bs, extKey := Table.set g key p.extKey }
  else { p with near := Cells.write p.near loc bs }

/-- Whether a granule is marked poisoned (11 R257). -/
def Partition.poisoned (p : Partition) (g : Nat) : Bool :=
  (if isExt (64 * g) then p.extPoison else p.nearPoison).contains g

/-- A granule marked poisoned, or its mark taken away. -/
def Partition.setPoison (p : Partition) (g : Nat) (b : Bool) : Partition :=
  let upd (l : List Nat) : List Nat := if b then (if l.contains g then l else g :: l) else l.filter (· != g)
  if isExt (64 * g) then { p with extPoison := upd p.extPoison } else { p with nearPoison := upd p.nearPoison }

/-! ### Errors (11 R257, R260, R262) -/

/-- The condition GV_MEM_UNCORRECTABLE (11 R260, 03 R93): it stands until the host clears it, with one notice at its
start. -/
def Mod.memCondition (m : Mod) (k chan : Nat) : Mod :=
  if getB ((m.part k).reg offSuspend) 3 then m
  else (m.modPart k fun p => { p.flag offSuspend 3 with memObj := chan }).notice k 3 0xFFFF chan 1

def eccReg (loc : Nat) : Nat := if isExt loc then offXmEcc else offNmEcc
def errReg (loc : Nat) : Nat := if isExt loc then offXmErr else offNmErr

/-- An uncorrectable error or poisoned delivery in the tier's registers (11 R262). -/
def Partition.eccMark (p : Partition) (g : Nat) (scrub : Bool) : Partition :=
  let loc := 64 * g
  if getB (p.reg (eccReg loc)) 31 then p.flag (eccReg loc) 30
  else ((p.flag (eccReg loc) 31).setFld (eccReg loc) 29 29 (b2n scrub)).setPair (errReg loc) loc

/-- An uncorrectable error or poisoned delivery: the registers and the condition; `chan` names the channel of the
notice. -/
def Mod.eccError (m : Mod) (k g chan : Nat) (scrub : Bool) : Mod :=
  (m.modPart k fun p => p.eccMark g scrub).memCondition k chan

/-- The granules that `n` bytes from a location touch. -/
def granules (loc n : Nat) : List Nat := (List.range ((loc + n - 1) / 64 + 1 - loc / 64)).map (· + loc / 64)

/-- The shards of a partition whose ranges overlap `n` bytes from a location, with their slots (14 R315). -/
def Partition.shardsAt (p : Partition) (loc n : Nat) : List (Nat × Shard) :=
  p.shards.filter fun e => overlaps loc n e.2.loc e.2.len

/-- What a read delivers: its bytes, and the granules delivered poisoned. -/
structure Reading where
  bytes : List Byte
  bad : List Nat
  deriving DecidableEq, Repr

/-- A read of memory (11 R257): `e` is what the code finds, at the first granule; `unit` is whether the read is a unit of
the DMA engine or of BAR2, to which bytes of a BAD shard go poisoned (14 R322); `chan` names the channel of a notice
in place of the granule's own (11 R260). -/
def Mod.memRead (m : Mod) (k key loc n : Nat) (e : Ecc) (unit : Bool) (chan : Option Nat := none) : Reading × Mod :=
  let gs := granules loc n
  let m := match e with
    | .corrected => m.modPart k fun p => p.count (eccReg loc) 15 0
    | .uncorrectable => m.modPart k fun p => p.setPoison (loc / 64) true
    | .clean => m
  let p := m.part k
  let bad := gs.filter fun g =>
    p.poisoned g || (unit && (p.shardsAt (64 * g) 64).any fun s => s.2.state == .bad)
  let m := m.forAll (fun m g => m.eccError k g (chan.getD (channelOf k (64 * g))) false) bad
  ({ bytes := p.bytesAt k key loc n, bad := bad }, m)

/-- A write of bytes within one granule (11 R257): covering all 64 bytes it stands as written, poisoned or not; else it
is read, changed and written back: a poisoned granule stays poisoned, and an uncorrectable error on that read poisons it
and drops the write. -/
def Mod.writeGranule (m : Mod) (k key loc : Nat) (bs : List Byte) (poison : Bool) (e : Ecc) : Mod :=
  let g := loc / 64
  if bs.length = 64 then m.modPart k fun p => (p.putBytes k key loc bs).setPoison g poison
  else
    match e with
    | .uncorrectable => (m.modPart k fun p => p.setPoison g true).eccError k g (channelOf k loc) false
    | .corrected => m.modPart k fun p => (if p.poisoned g then p else p.putBytes k key loc bs).count (eccReg loc) 15 0
    | .clean => m.modPart k fun p => if p.poisoned g then p else p.putBytes k key loc bs

/-- A write of any size and alignment, granule by granule; `bad` names the granules that arrive poisoned, `e` what the
read of the first granule covered in part finds. -/
def Mod.memWrite (m : Mod) (k key loc : Nat) (bs : List Byte) (bad : List Nat) (e : Ecc) : Mod :=
  m.forAll (fun m g =>
    let lo := max loc (64 * g)
    let hi := min (loc + bs.length) (64 * g + 64)
    m.writeGranule k key lo ((bs.drop (lo - loc)).take (hi - lo)) (bad.contains g)
      (if g = loc / 64 then e else .clean)) (if bs.isEmpty then [] else granules loc bs.length)

/-! ### Host access through BAR2 (11 R251) -/

/-- The location of a BAR2 offset, none where it reads 0 and ignores writes (11 R251). -/
def Mod.bar2Loc (m : Mod) (k off : Nat) : Option Nat :=
  if off < nearEnd then some off
  else
    let base := getF ((m.part k).reg offBar2Sel) 4 0
    let loc := extStart + base * 0x10000000 + (off - nearEnd)
    if 18 ≤ base ∨ extEnd ≤ loc ∨ (m.memVersion k).isNone = true then none else some loc

/-- The pieces of a BAR2 access within granules: offset in the access, length, location. -/
def Mod.bar2Pieces (m : Mod) (k off n : Nat) : List (Nat × Nat × Nat) :=
  (if n = 0 then [] else granules off n).filterMap fun g =>
    let lo := max off (64 * g)
    let hi := min (off + n) (64 * g + 64)
    (m.bar2Loc k lo).map fun loc => (lo - off, hi - lo, loc)

/-- Whether the host reaches a partition's memory through its VF (18 R405, 20 R450). -/
def Mod.bar2Open (m : Mod) (k : Nat) : Bool :=
  m.vfExists k && (m.part k).created && !(m.part k).underReset

/-- What a raise of queue `q` becomes by a condition of its own: void, its notice given (03 R93, R94). -/
def Context.voidOwn (x : Context) (sel : Raise → Bool) (code : Nat) : Context :=
  let f (u : Run) : Run :=
    { u with members := u.members.map fun mb => if sel mb.raise then { mb with raise := mb.raise.voidOwn code } else mb }
  { x with run := x.run.map f, parked := x.parked.map fun e => (e.1, f e.2) }

/-- A raise of partition `k` whose promise its own condition voids, with the notice of its start (03 R93, R94). -/
def Mod.voidOwn (m : Mod) (k c : Nat) (r : Raise) (code obj : Nat) : Mod :=
  match (m.part k).resvOf c r.q with
  | some (i, _) =>
    if r.guar && r.voided.isNone then
      (m.modCtx k c fun x => x.voidOwn (fun y => y.serial == r.serial) code).notice k code (16 * k + i) obj 1
    else m
  | none => m

/-- Whether BAR2 traffic of a run has passed what the reservation of queue `q` allows (03 R93). DESIGN CHOICE
(assumption 49): the elapsed time counts from the start of the raise, its stops at node boundaries included. -/
def Mod.overHostBw (m : Mod) (k c q : Nat) (u : Run) : Bool :=
  match (m.part k).resvOf c q with
  | none => false
  | some (_, v) => decide (v.hostBw * (m.devtime.toNat - u.tStart.toNat) + 65536000 < u.bar2 * 1000)

/-- `n` bytes of BAR2 traffic into the memory of a partition (03 R93): beyond `HOST_BW` times the elapsed time plus 64 KiB,
the promise of a started raise is void. -/
def Mod.hostTraffic (m : Mod) (k n : Nat) : Mod :=
  let count (u : Run) : Run := if u.guar then { u with bar2 := u.bar2 + n } else u
  let m := m.modPart k fun p => { p with ctxs := p.ctxs.map fun e =>
    (e.1, { e.2 with run := e.2.run.map count, parked := e.2.parked.map fun x => (x.1, count x.2) }) }
  m.forAll (fun m (e : Nat × Context) => m.forAll (fun m (u : Run) => m.forAll (fun m (mb : Member) =>
    if m.overHostBw k e.1 mb.raise.q u then m.voidOwn k e.1 mb.raise 6 0 else m) u.members) e.2.started) (m.part k).ctxs

/-- A BAR2 read (11 R251, R258): with EP and data bytes 0 where a granule is poisoned. -/
def Mod.bar2Read (m : Mod) (k off n : Nat) (e : Ecc) : Mod :=
  let key := m.memKey k
  let r := (m.bar2Pieces k off n).foldl (fun (acc : List (Nat × List Byte) × Bool × Ecc × Mod) (c : Nat × Nat × Nat) =>
    let (rd, m) := acc.2.2.2.memRead k key c.2.2 c.2.1 acc.2.2.1 true
    (acc.1 ++ [(c.1, rd.bytes)], acc.2.1 || !rd.bad.isEmpty, .clean, m)) ([], false, e, m)
  let data := if r.2.1 then zeros n
    else r.1.foldl (fun bs c => bs.take c.1 ++ c.2 ++ bs.drop (c.1 + c.2.length)) (zeros n)
  ({ r.2.2.2 with read := some { bytes := data, ep := r.2.1 } }).hostTraffic k n

/-- A BAR2 write (11 R251): piece by piece; into a shard it is discarded (14 R319). -/
def Mod.bar2Write (m : Mod) (k off : Nat) (data : List Byte) (e : Ecc) : Mod :=
  let key := m.memKey k
  let m := (m.bar2Pieces k off data.length).foldl (fun (acc : Ecc × Mod) (c : Nat × Nat × Nat) =>
    let m := acc.2
    if ((m.part k).shardsAt c.2.2 c.2.1).isEmpty then
      (.clean, m.memWrite k key c.2.2 ((data.drop c.1).take c.2.1) [] acc.1)
    else (acc.1, m.modPart k fun p => p.flag offShardStatus 30)) (e, m)
  m.2.hostTraffic k data.length

/-- BAR2_READ (11 R251); from a partition that does not exist or is under reset every byte reads 0 (18 R405). -/
def execBar2Read (k : Fin 64) (off : BitVec 32) (len : Nat) (e : Ecc) (s : State) : Host.Outcome State Fault Refusal :=
  s.act fun m => m.host fun m =>
    if m.bar2Open k.val then m.bar2Read k.val off.toNat len e
    else if m.vfExists k.val then { m with read := some { bytes := zeros len, ep := false } }
    else m

/-- BAR2_WRITE (11 R251). -/
def execBar2Write (k : Fin 64) (off : BitVec 32) (data : List Byte) (e : Ecc) (s : State) :
    Host.Outcome State Fault Refusal :=
  s.actWrite data fun m => m.host fun m => if m.bar2Open k.val then m.bar2Write k.val off.toNat data e else m

/-! ### Upkeep (11 R254, R259) -/

/-- The granules the scrub reads: of near memory, or of external memory with its reserved part. -/
def scrubLoc (ext : Bool) (g : Nat) : Option Nat :=
  if ext then (if g < 75497472 then some (extStart + 64 * g) else none)
  else if g < 25165824 then some (64 * g) else none

/-- A scrub read (11 R257, R259): a corrected granule is written back, an uncorrectable one is poisoned; one already
poisoned is delivered to no one. -/
def Mod.patrolScrub (m : Mod) (k loc : Nat) (e : Ecc) : Mod :=
  let g := loc / 64
  if (m.part k).poisoned g then m
  else
    match e with
    | .clean => m
    | .corrected => m.modPart k fun p => p.count (eccReg loc) 15 0
    | .uncorrectable => (m.modPart k fun p => p.setPoison g true).eccError k g (channelOf k loc) true

/-- PATROL_SCRUB (11 R259); the channels work once they are trained. -/
def execPatrolScrub (k : Fin 64) (ext : Bool) (g : Nat) (e : Ecc) (s : State) : Host.Outcome State Fault Refusal :=
  s.act fun m =>
    match scrubLoc ext g with
    | some loc =>
      if if ext then m.boot.extTrained else m.boot.nearTrained then m.patrolScrub k.val loc e else m
    | none => m

/-- MEM_REFRESH (11 R254): a channel is briefly unavailable; contents and registers stand as they are. -/
def execMemRefresh (_k : Fin 64) (_ext : Bool) (_chan : Fin 4) (s : State) : Host.Outcome State Fault Refusal :=
  s.act fun m => m

end Sys2Proof.Machine
end

