-- ==== Sys2Proof/Machine/Compress.lean ====
section
/-!
DEFINITION. Compression regions and the block codec (11 R263 to R275).
-/

namespace Sys2Proof.Machine

/-! ### Regions (11 R263, R264) -/

/-- A region as its registers give it. -/
structure Region where
  base : Nat
  limit : Nat
  dir : Nat
  tbl : Nat
  mode : Nat
  fmt : Nat
  tag : Nat
  deriving DecidableEq, Repr

/-- `LOC` of a region's pair: bits [39:0]. -/
def Partition.cmpLoc (p : Partition) (off : Nat) : Nat := p.pair off % 2 ^ 40

def Partition.region (p : Partition) (r : Nat) : Region :=
  let c := p.reg (offCmpCtrl r)
  { base := p.cmpLoc (offCmpBase r), limit := p.cmpLoc (offCmpLimit r), dir := p.cmpLoc (offCmpDir r)
    tbl := p.cmpLoc (offCmpTbl r), mode := getF c 26 24, fmt := getF c 23 20, tag := getF c 15 0 }

/-- `EN` and `LOADED` of a region. -/
def Partition.cmpEn (p : Partition) (r : Nat) : Bool := getB (p.reg (offCmpCtrl r)) 30
def Partition.cmpLoaded (p : Partition) (r : Nat) : Bool := getB (p.reg (offCmpCtrl r)) 31

/-- The enabled regions other than `r`. -/
def Partition.otherRegions (p : Partition) (r : Nat) : List Region :=
  ((List.range 16).filter fun i => i != 0 && i != r && p.cmpEn i).map p.region

/-- Whether `n` bytes from a location overlap an enabled region (14 R317, 18 R409). -/
def Partition.meetsRegion (p : Partition) (loc n : Nat) : Bool :=
  (p.otherRegions 0).any fun g => overlaps loc n g.base (g.limit - g.base)

/-- Code lengths of the symbols of a table (11 R266). -/
def tableLens (t : List Byte) : List Nat := t.flatMap fun b => [b.toNat % 16, b.toNat / 16]

/-- Whether a table is valid (11 R266): the Kraft sum, in units of 2^-15, is at most 1 and some symbol has a code; for a
lossy region bytes 8 to 127 are 0. -/
def tableOk (t : List Byte) (lossy : Bool) : Bool :=
  let lens := tableLens t
  let used := lens.filter (· != 0)
  decide ((used.map fun l => 2 ^ (15 - l)).sum ≤ 2 ^ 15) && !used.isEmpty && (!lossy || allZero (t.drop 8))

/-- The checks of an enable, in order (11 R264), after the table has been read. -/
def Partition.enableErr (p : Partition) (r : Nat) (t : List Byte) (bad : Bool) : Nat :=
  let g := p.region r
  let size := g.limit - g.base
  let dirLen := 8 * (size / 4096)
  let others := p.otherRegions r
  if g.base % 4096 != 0 || g.limit % 4096 != 0 || decide (g.limit ≤ g.base) || !inTenant g.base size then 1
  else if g.dir % 64 != 0 || !inTenant g.dir dirLen ||
      (g :: others).any (fun o => overlaps g.dir dirLen o.base (o.limit - o.base)) then 2
  else if !bad && !tableOk t (g.mode != 0) then 3
  else if bad then 4
  else if others.any fun o => overlaps g.base size o.base (o.limit - o.base) then 5
  else if decide (4 ≤ g.mode) || (g.mode != 0 && g.fmt != 1 && g.fmt != 2) || decide (0xB ≤ g.fmt) then 6
  else 0

/-- An enable (11 R264): the table is read and the region loaded, or `ERR` written and `EN` cleared. A table that does
not lie in the tenant's locations, or lies there without a key, breaks R266 as nothing can be read of it. -/
def Mod.cmpEnable (m : Mod) (k r : Nat) (e : Ecc) : Mod :=
  let p := m.part k
  let g := p.region r
  let there := inTenant g.tbl 128 && (!isExt g.tbl || (m.memVersion k).isSome)
  let (rd, m) := if there then m.memRead k (m.memKey k) g.tbl 128 e true else ({ bytes := [], bad := [] }, m)
  let err := p.enableErr r rd.bytes (!rd.bad.isEmpty)
  m.modPart k fun p =>
    let c := setF (p.reg (offCmpCtrl r)) 29 27 err
    { p with cmpTables := if err = 0 then Table.set r rd.bytes p.cmpTables else p.cmpTables }.setReg (offCmpCtrl r)
      (if err = 0 then setB (setB c 31 true) 30 true else setB (setB c 30 false) 31 false)

/-- A write of the control register of region `r` (11 R263, R264): fields [26:0] act only while `EN` is 0. -/
def Mod.cmpCtrlWrite (m : Mod) (k r : Nat) (value : Word) (e : Ecc) : Mod :=
  let old := (m.part k).reg (offCmpCtrl r)
  let en := getB value 30
  if getB old 30 then
    if en then m
    else m.modPart k fun p => p.setReg (offCmpCtrl r) (setB (setB old 30 false) 31 false)
  else
    let v := setF (setF (setF old 26 24 (getF value 26 24)) 23 20 (getF value 23 20)) 15 0 (getF value 15 0)
    let m := m.modPart k fun p => p.setReg (offCmpCtrl r) v
    if en then m.cmpEnable k r e else m

/-- CMP_REGION_ENABLE (11 R264): the value has `EN` 1. -/
def execCmpRegionEnable (f : Fn) (k : Fin 64) (r : Fin 16) (value : Word) (e : Ecc) (s : State) :
    Host.Outcome State Fault Refusal :=
  s.act fun m => m.host fun m =>
    if m.writable f k.val && r.val != 0 && getB value 30 then m.cmpCtrlWrite k.val r.val value e else m

/-- CMP_REGION_DISABLE (11 R264): the value has `EN` 0. -/
def execCmpRegionDisable (f : Fn) (k : Fin 64) (r : Fin 16) (value : Word) (s : State) :
    Host.Outcome State Fault Refusal :=
  s.act fun m => m.host fun m =>
    if m.writable f k.val && r.val != 0 && !getB value 30 then m.cmpCtrlWrite k.val r.val value .clean else m

/-! ### Codes (11 R266; RFC 1951 §3.2.2) -/

/-- The first code of each length. -/
def firstCodes (lens : List Nat) : List Nat :=
  ((List.range 15).foldl (fun (acc : List Nat × Nat) i =>
    let n := if i = 0 then 0 else (lens.filter (· == i)).length
    let code := (acc.2 + n) * 2
    (acc.1 ++ [code], code)) ([0], 0)).1

/-- The code of a symbol: its length and bits as a number. -/
def codeOf (lens : List Nat) (sym : Nat) : Nat × Nat :=
  let l := lens.getD sym 0
  (l, (firstCodes lens).getD l 0 + ((lens.take sym).filter (· == l)).length)

/-- The `n` bits of a number, most significant first (11 R266). -/
def msbBits (n v : Nat) : List Bool := (List.range n).map fun i => bit v (n - 1 - i)

/-- A bit stream as bytes, each filled from bit 0 upward. -/
def bitsToBytes : List Bool → List Byte
  | b0 :: b1 :: b2 :: b3 :: b4 :: b5 :: b6 :: b7 :: t =>
    BitVec.ofNat 8 (b2n b0 + 2 * b2n b1 + 4 * b2n b2 + 8 * b2n b3 + 16 * b2n b4 + 32 * b2n b5 + 64 * b2n b6 +
      128 * b2n b7) :: bitsToBytes t
  | [] => []
  | t => [BitVec.ofNat 8 (((List.range t.length).map fun i => b2n (t.getD i false) * 2 ^ i).sum)]

/-- Bytes as a bit stream. -/
def bytesToBits (bs : List Byte) : List Bool := bs.flatMap fun b => (List.range 8).map fun i => bit b.toNat i

/-- Codes by length and number, for decoding. -/
def codeBook (lens : List Nat) : List (Nat × Nat × Nat) :=
  (List.range lens.length).filterMap fun s =>
    let c := codeOf lens s
    if c.1 = 0 then none else some (c.1, c.2, s)

/-- Reads one symbol: at most 15 bits; none where no code is assigned. -/
def readSym (book : List (Nat × Nat × Nat)) (bs : List Bool) (len acc : Nat) : Nat → Option (Nat × List Bool)
  | 0 => none
  | fuel + 1 =>
    match bs with
    | [] => none
    | b :: t =>
      let acc := 2 * acc + b2n b
      match book.find? fun c => c.1 == len + 1 && c.2.1 == acc with
      | some c => some (c.2.2, t)
      | none => readSym book t (len + 1) acc fuel

/-- Reads a field of `n` bits, most significant first. -/
def readBits (n : Nat) (bs : List Bool) : Option (Nat × List Bool) :=
  if bs.length < n then none else some ((bs.take n).foldl (fun a b => 2 * a + b2n b) 0, bs.drop n)

/-! ### Check value (11 R265) -/

/-- One byte into the CRC-32C. -/
def crcByte (c : Nat) (b : Byte) : Nat :=
  (List.range 8).foldl (fun c _ => if c % 2 = 1 then (c / 2) ^^^ 0x82F63B78 else c / 2) (c ^^^ b.toNat)

/-- CRC-32C, initial value and final exclusive OR 0xFFFF_FFFF (11 R265, 15 R330). -/
def crc32c (bs : List Byte) : Nat := bs.foldl crcByte 0xFFFFFFFF ^^^ 0xFFFFFFFF

/-! ### Exact blocks (11 R267) -/

/-- Bytes of an element under a region's format. -/
def exactWidth (fmt : Nat) : Nat := if fmt = 0 then 4 else if fmt ≤ 2 then 2 else 1

/-- The bits of one element, its most significant byte coded and the others raw; none where a symbol has no code. -/
def exactElem (lens : List Nat) (el : List Byte) : Option (List Bool) :=
  match el.reverse with
  | [] => some []
  | b :: rest =>
    let c := codeOf lens b.toNat
    if c.1 = 0 then none else some (msbBits c.1 c.2 ++ rest.flatMap fun x => msbBits 8 x.toNat)

/-- The elements of a block. -/
def elemsOf (w : Nat) (bs : List Byte) : List (List Byte) :=
  (List.range (bs.length / w)).map fun i => (bs.drop (w * i)).take w

/-- The stored bytes of an exact block and its `FORM`: coded, or raw where it would exceed 63 granules. -/
def encodeExact (lens : List Nat) (fmt : Nat) (bs : List Byte) : List Byte × Nat :=
  let coded := (elemsOf (exactWidth fmt) bs).foldl (fun (acc : Option (List Bool)) el =>
    match acc, exactElem lens el with
    | some a, some b => some (a ++ b)
    | _, _ => none) (some [])
  match coded with
  | some b =>
    let n := ceilDiv b.length 512
    if n ≤ 63 then (slice (bitsToBytes b) 0 (64 * max n 1), 0) else (bs, 1)
  | none => (bs, 1)

/-- Reads `n` elements of an exact payload. -/
def decodeExact (book : List (Nat × Nat × Nat)) (w : Nat) : Nat → List Bool → Option (List Byte × List Bool)
  | 0, bs => some ([], bs)
  | n + 1, bs =>
    match readSym book bs 0 0 15 with
    | none => none
    | some (s, bs) =>
      match readBits (8 * (w - 1)) bs with
      | none => none
      | some (v, bs) =>
        match decodeExact book w n bs with
        | none => none
        | some (out, bs) => some ((leBytes (w - 1) v ++ [BitVec.ofNat 8 s]) ++ out, bs)

/-! ### Lossy blocks (11 R268 to R270) -/

/-- Stored length, and the fallback's bits of `d` and of `m`, by rate 1 ½, 2 ⅜, 3 ¼. -/
def lossyStored (rate : Nat) : Nat := [2048, 2048, 1536, 1024].getD rate 2048
def fallbackF (rate : Nat) : Nat := [3, 3, 3, 2].getD rate 3
def fallbackK (rate : Nat) : Nat := [3, 3, 1, 0].getD rate 0

/-- A value rounded to ±2^e (1 + m / 2^k), ties to the even significand; above the largest finite value it is rounded
toward zero (11 R269). -/
def roundK (fmt k : Nat) (x : FNum) : FNum :=
  match x with
  | .fin s m e =>
    if m = 0 then x
    else
      let q := magLog2 m e - k
      let near := quanta false m e q
      let big := match decodeFloat fmt (maxCode fmt) with
        | .fin _ bm be => (FNum.fin false bm be).lt (.fin false near q)
        | _ => false
      .fin s (if big then quanta true m e q else near) q
  | y => y

/-- ⌊log₂|y|⌋ of a nonzero value, none for a zero. -/
def expOfVal (x : FNum) : Option Int :=
  match x with
  | .fin _ m e => if m = 0 then none else some (magLog2 m e)
  | _ => none

/-- The group exponents of 32 groups of 64 values; none for a group of zeros (11 R269). -/
def groupExps (ys : List FNum) : List (Option Int) :=
  (List.range 32).map fun g => ((ys.drop (64 * g)).take 64).foldl (fun (a : Option Int) y =>
    match a, expOfVal y with
    | none, b => b
    | some a, none => some a
    | some a, some b => some (max a b)) none

/-- The symbol of a value in a group, `z` standing for zero (11 R269). -/
def lossySym (y : FNum) (eg : Option Int) (z : Nat) : Nat :=
  match eg, expOfVal y with
  | some E, some l => if (z : Int) ≤ E - l then z else (E - l).toNat
  | _, _ => z

/-- The mantissa bits m of a value held to k bits: its significand is 2^k + m. -/
def mantBits (y : FNum) (k : Nat) : Nat :=
  match y with
  | .fin _ m e =>
    if m = 0 then 0
    else
      let q := magLog2 m e - k
      quanta true m e q - 2 ^ k
  | _ => 0

/-- The sign of a value. -/
def signOf (y : FNum) : Bool :=
  match y with
  | .fin s _ _ => s
  | .inf s => s
  | .nan => false

/-- The 96-byte head and payload of a lossy block, cut to its stored length (11 R268). -/
def lossyBlock (form k fmt rate tag : Nat) (exps : List (Option Int)) (payload : List Bool) : List Byte :=
  let head := leBytes 1 form ++ leBytes 1 k ++ leBytes 1 fmt ++ leBytes 1 rate ++ leBytes 2 tag ++ zeros 2 ++
    leBytes 4 payload.length ++ zeros 20
  let eg := exps.flatMap fun e => match e with
    | some v => sleBytes 2 v
    | none => leBytes 2 0x8000
  slice (head ++ eg ++ bitsToBytes payload) 0 (lossyStored rate)

/-- The entropy form at k mantissa bits, where it fits (11 R269). -/
def entropyAt (lens : List Nat) (fmt rate tag : Nat) (xs : List FNum) (k : Nat) : Option (List Byte) :=
  let ys := xs.map (roundK fmt k)
  let eg := groupExps ys
  let syms := (List.range ys.length).map fun j => lossySym (ys.getD j fnZero) (eg.getD (j / 64) none) 15
  if syms.all fun d => lens.getD d 0 != 0 then
    let n := (syms.map fun d => 1 + lens.getD d 0 + (if d < 15 then k else 0)).sum
    if n ≤ lossyStored rate * 8 - 768 then
      let payload := (ys.zip syms).flatMap fun ys => signOf ys.1 ::
        (let c := codeOf lens ys.2
         msbBits c.1 c.2 ++ if ys.2 < 15 then msbBits k (mantBits ys.1 k) else [])
      some (lossyBlock 0 k fmt rate tag eg payload)
    else none
  else none

/-- The first k from `n` down at which the entropy form fits. -/
def entropyDown (lens : List Nat) (fmt rate tag : Nat) (xs : List FNum) : Nat → Option (List Byte)
  | 0 => entropyAt lens fmt rate tag xs 0
  | n + 1 => match entropyAt lens fmt rate tag xs (n + 1) with
    | some b => some b
    | none => entropyDown lens fmt rate tag xs n

/-- The stored bytes of a lossy block, and whether it took the fallback form (11 R269). -/
def encodeLossy (lens : List Nat) (fmt rate tag : Nat) (bs : List Byte) : List Byte × Bool :=
  let xs := (elemsOf 2 bs).map fun el => decodeFloat fmt (leNat el)
  if xs.any fun x => match x with | .fin _ _ _ => false | _ => true then
    (lossyBlock 2 0 fmt rate tag (List.replicate 32 (some 0)) [], false)
  else
    match entropyDown lens fmt rate tag xs (manBits fmt) with
    | some b => (b, false)
    | none =>
      let f := fallbackF rate
      let kf := fallbackK rate
      let ys := xs.map (roundK fmt kf)
      let eg := groupExps ys
      let payload := (List.range ys.length).flatMap fun j =>
        let y := ys.getD j fnZero
        let d := lossySym y (eg.getD (j / 64) none) (2 ^ f - 1)
        signOf y :: (msbBits f d ++ msbBits kf (if d = 2 ^ f - 1 then 0 else mantBits y kf))
      (lossyBlock 1 0 fmt rate tag eg payload, true)

/-- A decoded element (11 R270): its code in the format. -/
def lossyValue (fmt : Nat) (s : Bool) (E : Option Int) (d z k m : Nat) : Nat :=
  if d = z then roundTo fmt (.fin s 0 0)
  else roundTo fmt (.fin s (2 ^ k + m) (E.getD 0 - (d : Int) - (k : Int)))

/-- Reads `n` lossy elements from element `j` on; none where a code is unassigned, the payload runs out, or a group of
zeros holds another value (11 R271, check 3). -/
def decodeLossy (book : List (Nat × Nat × Nat)) (entropy : Bool) (fmt f k : Nat) (eg : List (Option Int)) :
    Nat → Nat → List Bool → Option (List Byte × List Bool)
  | 0, _, bs => some ([], bs)
  | n + 1, j, bs =>
    let z := if entropy then 15 else 2 ^ f - 1
    match bs with
    | [] => none
    | s :: bs =>
      match (if entropy then readSym book bs 0 0 15 else readBits f bs) with
      | none => none
      | some (d, bs) =>
        match (if entropy && d == z then some (0, bs) else readBits k bs) with
        | none => none
        | some (m, bs) =>
          let E := eg.getD (j / 64) none
          if E.isNone && d != z then none
          else
            match decodeLossy book entropy fmt f k eg n (j + 1) bs with
            | none => none
            | some (out, bs) => some (leBytes 2 (lossyValue fmt s E d z k m) ++ out, bs)

/-! ### Reading a block (11 R271, R272) -/

/-- What a block read gives: its 4,096 bytes, and, where it is lost, the DETAIL of R272. -/
structure BlockRead where
  bytes : List Byte
  lost : Option Nat
  nonfinite : Bool
  deriving DecidableEq, Repr

/-- The exponents of a lossy head. -/
def headExps (st : List Byte) : List (Option Int) :=
  (List.range 32).map fun g =>
    let v := fld st (32 + 2 * g) 2
    if v = 0x8000 then none else some (decodeInt 16 v)

/-- Check 2 of R271 on a lossy head. -/
def headOk (g : Region) (st : List Byte) : Bool :=
  let form := fld st 0 1
  let k := fld st 1 1
  let rate := g.mode
  let n := fld st 8 4
  let lo : Int := if g.fmt = 1 then -133 else -24
  let hi : Int := if g.fmt = 1 then 127 else 15
  decide (form ≤ 2) && decide (k ≤ manBits g.fmt) && (form == 0 || k == 0) && fld st 2 1 == g.fmt &&
    fld st 3 1 == rate && fld st 4 2 == g.tag && fld st 6 2 == 0 && allZero (slice st 12 20) &&
    (if form = 0 then decide (n ≤ lossyStored rate * 8 - 768)
     else if form = 1 then n == 2048 * (1 + fallbackF rate + fallbackK rate) else n == 0) &&
    (headExps st).all fun e => match e with
      | none => form != 2
      | some v => decide (lo ≤ v) && decide (v ≤ hi) && (form != 2 || v == 0)

/-- Checks 1 to 4 of R271 and the decoding, none where one fails. `ent` is the directory entry. -/
def decodeBlock (g : Region) (lens : List Nat) (ent st : List Byte) : Option (List Byte × Bool) :=
  let len64 := fld ent 4 1
  let form := fld ent 5 1
  let book := codeBook lens
  if fld ent 6 2 != g.tag then none
  else if g.mode = 0 then
    if form = 1 then (if len64 = 64 then some (st, false) else none)
    else if form != 0 || len64 = 0 || 63 < len64 then none
    else
      let w := exactWidth g.fmt
      match decodeExact book w (4096 / w) (bytesToBits st) with
      | some (out, rest) => if rest.all (· == false) then some (out, false) else none
      | none => none
  else if form != 2 || 64 * len64 != lossyStored g.mode then none
  else if !headOk g st then none
  else
    let lf := fld st 0 1
    let n := fld st 8 4
    let all := bytesToBits (st.drop 96)
    if !(all.drop n).all (· == false) then none
    else if lf = 2 then some ((List.range 2048).flatMap fun _ => leBytes 2 (canonNan g.fmt), true)
    else
      let f := fallbackF g.mode
      let k := if lf = 0 then fld st 1 1 else fallbackK g.mode
      match decodeLossy book (lf == 0) g.fmt f k (headExps st) 2048 0 (all.take n) with
      | some (out, []) => some (out, false)
      | _ => none

/-- The code lengths of a region's loaded table (11 R264). -/
def Mod.regionLens (m : Mod) (k r : Nat) : List Nat := tableLens (Table.get [] r (m.part k).cmpTables)

/-- A read of block `b` of region `r` (11 R271, R272); `e` is what the read of its stored bytes finds, `de` what that of
its directory granule finds. -/
def Mod.readBlock (m : Mod) (k key r b : Nat) (e de : Ecc) : BlockRead × Mod :=
  let g := (m.part k).region r
  let slot := g.base + 4096 * b
  let chan := some (channelOf k slot)
  let dirAt := g.dir + 8 * b
  let (ent, m) := m.memRead k key dirAt 8 de true chan
  let n := 64 * max 1 (min 64 (fld ent.bytes 4 1))
  let (st, m) := m.memRead k key slot n e true chan
  if !ent.bad.isEmpty || !st.bad.isEmpty then ({ bytes := zeros 4096, lost := some 2, nonfinite := false }, m)
  else
    match decodeBlock g (m.regionLens k r) ent.bytes st.bytes with
    | none =>
      ({ bytes := zeros 4096, lost := some 3, nonfinite := false },
       (m.modPart k fun p => p.flag offCmpStatus 31).memCondition k (channelOf k slot))
    | some (out, nf) =>
      if crc32c st.bytes = fld ent.bytes 0 4 then
        ({ bytes := out, lost := none, nonfinite := nf },
         if nf then m.modPart k fun p => p.count offCmpStatus 23 16 else m)
      else
        ({ bytes := zeros 4096, lost := some 4, nonfinite := false },
         (m.modPart k fun p => p.flag offCmpStatus 30).memCondition k (channelOf k slot))

/-- A write of block `b` (11 R274): the stored bytes and the directory entry; `e` is what the read of the entry's granule
finds. Answers whether the writing raise ends with ST_INTEGRITY, DETAIL 2. -/
def Mod.writeBlock (m : Mod) (k key r b : Nat) (bs : List Byte) (poison : Bool) (e : Ecc) : Bool × Mod :=
  let g := (m.part k).region r
  let slot := g.base + 4096 * b
  let lens := m.regionLens k r
  let (st, form, fall) := if g.mode = 0 then
      (let x := encodeExact lens g.fmt bs; (x.1, x.2, false))
    else (let x := encodeLossy lens g.fmt g.mode g.tag bs; (x.1, 2, x.2))
  let m := if fall then m.modPart k fun p => p.count offCmpStatus 15 0 else m
  let m := m.memWrite k key slot st (if poison then granules slot st.length else []) .clean
  let dirAt := g.dir + 8 * b
  let ent := leBytes 4 (crc32c st) ++ leBytes 1 (st.length / 64) ++ leBytes 1 form ++ leBytes 2 g.tag
  let m := m.memWrite k key dirAt ent [] e
  ((m.part k).poisoned (dirAt / 64), m)

end Sys2Proof.Machine
end

