-- ==== Sys2Proof/Machine/Sides.lean ====
section
/-!
DEFINITION. The sides of transfers: locators, windows as registers name them, and the reading and writing of a piece of a
side (10 R220, R227, R231 to R233, R246; 11 R258).
-/

namespace Sys2Proof.Machine

/-! ### Locators (10 R227) -/

def locStore (v : Nat) : Nat := v % 4
def locTruss (v : Nat) : Nat := bits v 2 2
def locRow (v : Nat) : Nat := bits v 31 16

/-- Whether an own-scratchpad locator obeys R227. -/
def ownLocOk (v : Nat) : Bool := decide (v < 2 ^ 32) && bits v 15 3 == 0 && locStore v != 3

/-- The locator of a row of an own scratchpad. -/
def ownLoc (st truss row : Nat) : Nat := st + 4 * truss + 65536 * row

def winPart (v : Nat) : Nat := bits v 5 0
def winNo (v : Nat) : Nat := bits v 9 6

/-- Whether a window locator obeys R227. -/
def winLocOk (v : Nat) : Bool := decide (v < 2 ^ 32) && bits v 15 10 == 0

/-! ### Windows (10 R231, R246) -/

def Partition.win (p : Partition) (w : Nat) : Word := p.reg (offWinCtrl w)
def winOpen (c : Word) : Bool := getB c 31
def winGuar (c : Word) : Bool := getB c 25
def winStore (c : Word) : Nat := getF c 22 21
def winTruss (c : Word) : Nat := getF c 20 20
def winFirst (r : Word) : Nat := getF r 13 0
def winRows (r : Word) : Nat := getF r 31 16

/-- Rotation positions that a window takes (10 R231). -/
def winShares (c : Word) : Nat := if winGuar c then 16 else getF c 19 15

/-- The open windows of a store port other than `w`, in ascending number (10 R232). -/
def Partition.portWindows (p : Partition) (st t w : Nat) : List Word :=
  ((List.range 16).filter fun i => i != w && winOpen (p.win i) && winStore (p.win i) == st && winTruss (p.win i) == t).map p.win

/-- The window that a descriptor's side names, with its row and its direction: true for a write. -/
def Desc.window (d : Desc) : Option (Nat × Nat × Nat × Bool) :=
  if d.job != .sides then none
  else if d.dstKind = 2 then some (winPart d.dst, winNo d.dst, locRow d.dst, true)
  else if d.srcKind = 2 then some (winPart d.src, winNo d.src, locRow d.src, false)
  else none

/-! ### Pieces -/

/-- A piece of a transfer: its bytes, the 64-byte chunks that arrive poisoned, the DETAIL with which poison ends a raise,
and whether an uncorrectable scratchpad word stopped the read. -/
structure Piece where
  bytes : List Byte
  bad : List Nat
  detail : Nat
  err : Bool
  deriving DecidableEq, Repr

/-- A read of a store of truss `t` of partition `k` through the DMA or window port (10 R220). -/
def Mod.scratchRead (m : Mod) (k t st a n : Nat) (e : Ecc) : Piece × Mod :=
  let m := match e with
    | .corrected => m.modPart k fun p => p.count offSpEcc 15 0
    | .uncorrectable => m.modPart k fun p => p.modTruss t fun u => u.spoil st (a / 8)
    | .clean => m
  let u := (m.part k).truss t
  if u.readBad st a n then
    ({ bytes := [], bad := [], detail := 0, err := true }, m.modPart k fun p => p.flag offSpEcc 31)
  else ({ bytes := u.read st a n, bad := [], detail := 0, err := false }, m)

/-- A write of whole words through the DMA or window port; the words of a poisoned chunk take a bad code (11 R258). -/
def Mod.scratchWrite (m : Mod) (k t st a : Nat) (pc : Piece) : Mod :=
  m.modPart k fun p => p.modTruss t fun u =>
    let u := u.write st a pc.bytes
    pc.bad.foldl (fun u c => (List.range 8).foldl (fun u i => u.spoil st ((a + 64 * c) / 8 + i)) u) u

/-- Where a window's row `r` stands: owner, truss, store, first byte. -/
def Mod.winAt (m : Mod) (v at' : Nat) : Nat × Nat × Nat × Nat :=
  let k := winPart v
  let c := (m.part k).win (winNo v)
  let r := (m.part k).reg (offWinRange (winNo v))
  (k, winTruss c, winStore c, (winFirst r + locRow v) * rowBytes (winStore c) + at')

/-- Reads `n` bytes at offset `at'` of a memory side (kind 0) or an own scratchpad (kind 1). -/
def Mod.readLocal (m : Mod) (k key kind v at' n : Nat) (e : UnitEcc) : Piece × Mod :=
  if kind = 0 then
    let loc := addrLoc v + at'
    if compressed v then
      let r := addrRegion v
      let (b, m) := m.readBlock k key r ((loc - ((m.part k).region r).base) / 4096) e.data e.srcDir
      ({ bytes := b.bytes, bad := if b.lost.isSome then List.range 64 else [], detail := b.lost.getD 0, err := false }, m)
    else
      let (rd, m) := m.memRead k key loc n e.data true
      ({ bytes := rd.bytes, bad := rd.bad.map fun g => g - loc / 64, detail := 2, err := false }, m)
  else m.scratchRead k (locTruss v) (locStore v) (locRow v * rowBytes (locStore v) + at') n e.data

/-- Writes a piece at offset `at'` of a memory side (kind 0) or an own scratchpad (kind 1); `de` is what the read of a
compressed side's directory granule finds. Answers the DETAIL with which the write itself ends the raise with
ST_INTEGRITY (a directory granule lost, 11 R274). -/
def Mod.writeLocal (m : Mod) (k key kind v at' : Nat) (pc : Piece) (de : Ecc) : Option Nat × Mod :=
  if kind = 0 then
    let loc := addrLoc v + at'
    if compressed v then
      let r := addrRegion v
      let (lost, m) := m.writeBlock k key r ((loc - ((m.part k).region r).base) / 4096) pc.bytes (!pc.bad.isEmpty) de
      (if lost then some 2 else none, m)
    else (none, m.memWrite k key loc pc.bytes (pc.bad.map (· + loc / 64)) .clean)
  else (none, m.scratchWrite k (locTruss v) (locStore v) (locRow v * rowBytes (locStore v) + at') pc)

/-- Posted writes of a piece to host memory, at most 512 bytes each; those that carry a poisoned granule go with EP set
(11 R258). -/
def Mod.hostWrites (m : Mod) (addr : Nat) (pc : Piece) : Mod :=
  if pc.bad.isEmpty then
    m.forAll (fun m i => m.send (.hostWrite (addr + 512 * i) ((pc.bytes.drop (512 * i)).take 512) false))
      (List.range (ceilDiv pc.bytes.length 512))
  else
    m.forAll (fun m i => m.send (.hostWrite (addr + 64 * i) ((pc.bytes.drop (64 * i)).take 64) (pc.bad.contains i)))
      (List.range (ceilDiv pc.bytes.length 64))

end Sys2Proof.Machine
end

