-- ==== Sys2Proof/Machine/Pages.lean ====
section
/-!
DEFINITION. What the descriptors of the page walker move: the body of a page-walk node, the places of a READ's slots, and
the units of a page (12 R281, R283, R286 to R290).
-/

namespace Sys2Proof.Machine

/-- Bytes of an element of a latent format (12 R281). -/
def latentBytes (fmt : Nat) : Nat := if fmt ≤ 2 then 2 else 1

/-- TW: bytes of a token row (12 R281). -/
def tokenBytes (r fmt : Nat) : Nat := r * latentBytes fmt

/-! ### The body (12 R283) -/

def kvOp (b : List Byte) : Nat := fld b 0 1
def kvPeg (b : List Byte) : Nat := fld b 1 1
def kvFmt (b : List Byte) : Nat := fld b 2 1
def kvFlag (b : List Byte) (i : Nat) : Bool := bit (fld b 3 1) i
def kvR (b : List Byte) : Nat := fld b 4 2
def kvSlots (b : List Byte) : Nat := fld b 6 2
def kvWin (b : List Byte) : Nat := fld b 8 4
def kvGlobCount (b : List Byte) : Nat := fld b 12 1
def kvGlobPeg (b : List Byte) : Nat := fld b 13 1
def kvApp (b : List Byte) : Nat := fld b 14 2
def kvRow (b : List Byte) (member : Nat) : Nat := fld b 16 2 + member * fld b 20 2
def kvMaskRow (b : List Byte) (member : Nat) : Nat := fld b 18 2 + member * fld b 20 2

/-- Store of an APPEND's source, and of a READ's mask. -/
def kvSrcStore (b : List Byte) : Nat := if kvFlag b 4 then 2 else 1
def kvMaskStore (b : List Byte) : Nat := if kvFlag b 2 then 2 else 1

/-- Token row bytes of a node (12 R281). -/
def kvTw (b : List Byte) : Nat := tokenBytes (kvR b) (kvFmt b)

/-- Reduction and column tiles of a READ's operand, and WS rows of a tile (12 R288). -/
def kvKt (b : List Byte) : Nat := if kvFlag b 0 then kvR b / 128 else ceilDiv (kvSlots b) 2
def kvNt (b : List Byte) : Nat := if kvFlag b 0 then ceilDiv (kvSlots b) 4 else ceilDiv (kvR b) 256
def kvT (b : List Byte) : Nat := 64 * latentBytes (kvFmt b)
def kvRegionRows (b : List Byte) : Nat := kvKt b * kvNt b * kvT b

/-! ### Places of a slot (12 R288, R289) -/

/-- Byte of WS at row `i` and column `j` of a READ's operand. -/
def kvByte (b : List Byte) (member i j : Nat) : Nat :=
  (kvRow b member + (j / 256 * kvKt b + i / 128) * kvT b) * 512 + (256 * (i % 128) + j % 256) * latentBytes (kvFmt b)

/-- Byte of WS that holds element `i` of token row `t` of slot `s` (12 R288). -/
def kvPlace (b : List Byte) (member s t i : Nat) : Nat :=
  if kvFlag b 0 then kvByte b member i (64 * s + t) else kvByte b member (64 * s + t) i

/-- The runs of consecutive bytes that a slot fills: of each reduction row its 64 columns, or its 64 rows of each column
tile, padding columns with them. -/
def kvSlotRuns (b : List Byte) (member s : Nat) : List (Nat × Nat) :=
  let e := latentBytes (kvFmt b)
  if kvFlag b 0 then (List.range (kvR b)).map fun i => (kvByte b member i (64 * s), 64 * e)
  else (List.range (kvNt b)).map fun n => (kvByte b member (64 * s) (256 * n), 64 * 256 * e)

/-- The runs that token row `t` of a slot fills, padding columns with them. -/
def kvTokenRuns (b : List Byte) (member s t : Nat) : List (Nat × Nat) :=
  let e := latentBytes (kvFmt b)
  if kvFlag b 0 then (List.range (kvR b)).map fun i => (kvByte b member i (64 * s + t), e)
  else (List.range (kvNt b)).map fun n => (kvByte b member (64 * s + t) (256 * n), 256 * e)

/-- The padding columns of token row `t` of a slot: those past `R` of the last column tile. -/
def kvPadRuns (b : List Byte) (member s t : Nat) : List (Nat × Nat) :=
  if kvFlag b 0 ∨ kvR b % 256 = 0 then []
  else [(kvByte b member (64 * s + t) (kvR b), (256 - kvR b % 256) * latentBytes (kvFmt b))]

/-- The slots past `SLOTS` that stand in the last tiles (12 R288). -/
def kvPadSlots (b : List Byte) : List Nat :=
  (List.range ((if kvFlag b 0 then 4 * kvNt b else 2 * kvKt b) - kvSlots b)).map (· + kvSlots b)

/-- The words of some runs of WS, which take a valid code. -/
def Truss.openRuns (t : Truss) (runs : List (Nat × Nat)) : Truss :=
  t.setStore 0 t.ws (t.wsBad.filter fun w => !runs.any fun r => wordMeets r.1 r.2 w)

/-- Runs of WS at zero. -/
def Truss.zeroRuns (t : Truss) (runs : List (Nat × Nat)) : Truss :=
  t.setStore 0 (runs.foldl (fun c r => Cells.clear c r.1 r.2) t.ws) t.wsBad

/-- The bytes of a mask: an FP32 place for each flag, +0 or minus infinity (12 R289, 13 R305). -/
def maskBytes (vis : List Bool) : List Byte := vis.flatMap fun v => leBytes 4 (if v then 0 else 0xFF800000)

/-- What the walk writes of a slot beside the delivered rows (12 R287 to R289): the zero rows and the padding, and the
slot's places of the mask; with the last slot, the slots of padding. DESIGN CHOICE (assumption 51): it does so with the
slot's first unit, and the words of the slot take a valid code then. -/
def Truss.openSlot (t : Truss) (b : List Byte) (member : Nat) (g : PageDesc) : Truss :=
  let t := t.openRuns (kvSlotRuns b member g.slot)
  let t := t.zeroRuns ((List.range 64).flatMap fun r =>
    if g.mask.getD r false then kvPadRuns b member g.slot r else kvTokenRuns b member g.slot r)
  let t := if g.last then
      let runs := (kvPadSlots b).flatMap fun s => kvSlotRuns b member s
      (t.openRuns runs).zeroRuns runs
    else t
  if kvFlag b 1 then
    let st := kvMaskStore b
    t.write st (kvMaskRow b member * rowBytes st + 256 * g.slot)
      (maskBytes ((List.range 64).map fun r => g.mask.getD r false))
  else t

/-- Scatters bytes of a token row from element `o` of the row on; the words of a poisoned granule take a bad code
(11 R258). -/
def Truss.placeRow (t : Truss) (b : List Byte) (member s r o : Nat) (row : List Byte) (badAt : Nat → Bool) : Truss :=
  let e := latentBytes (kvFmt b)
  (List.range (row.length / e)).foldl (fun (t : Truss) i =>
    let a := kvPlace b member s r (o + i)
    let t := t.write 0 a (slice row (e * i) e)
    if badAt (e * i) then t.spoil 0 (a / 8) else t) t

/-- The rows of a mask, ascending. -/
def maskRows (mask : List Bool) : List Nat := (List.range 64).filter fun t => mask.getD t false

/-! ### Units (12 R285) -/

/-- The node instance that a walker's descriptor serves: its run, its image and its member. -/
def Mod.descNode (m : Mod) (k : Nat) (d : Desc) : Option (Run × List Byte × Nat × Nat × Member) :=
  match d.owner with
  | .node c node member =>
    let x := (m.part k).ctx c
    x.run.bind fun u => u.members[member]?.map fun mb => (u, x.image u, node, member, mb)
  | _ => none

/-- The bytes of a READ's unit: `n` bytes at offset `at'` of its delivered rows, in pieces of 128, which no row splits
(12 R278). Answers the DETAIL of poison. -/
def Mod.readPage (m : Mod) (k t : Nat) (b : List Byte) (member : Nat) (g : PageDesc) (at' n : Nat) (e : Ecc) : Option Nat × Mod :=
  let tw := kvTw b
  let rows := maskRows g.mask
  let m := if at' = 0 then
      (m.modPart k fun p =>
        let p := p.modTruss t fun tr => tr.openSlot b member g
        if g.zero then p else p.count offKvStatus 15 0)
    else m
  let r := (List.range (n / 128)).foldl (fun (acc : Bool × Ecc × Mod) i =>
    let o := at' + 128 * i
    let row := rows.getD (o / tw) 0
    let loc := g.loc + row * tw + o % tw
    let (rd, m) := acc.2.2.memRead k 0 loc 128 acc.2.1 true
    (acc.1 || !rd.bad.isEmpty, .clean, m.modPart k fun p => p.modTruss t fun tr =>
      tr.placeRow b member g.slot row (o % tw / latentBytes (kvFmt b)) rd.bytes fun x => rd.bad.contains ((loc + x) / 64)))
    (false, e, m)
  (if r.1 then some 2 else none, r.2.2)

/-- Where an APPEND's page takes its first byte from: store and byte of its source (12 R290). -/
def pageSource (b : List Byte) (member : Nat) (g : PageDesc) : Nat × Nat :=
  let st := kvSrcStore b
  (st, kvRow b member * rowBytes st + (64 * g.idx + (maskRows g.mask).headD 0 - g.lt) * kvTw b)

/-- The unit of an APPEND's page: `n` bytes at offset `at'` of its rows, also into the shadow page (12 R290). Answers
whether a scratchpad word of the source failed. -/
def Mod.writePage (m : Mod) (k t key : Nat) (b : List Byte) (member : Nat) (g : PageDesc) (at' n : Nat) (e : Ecc) : Bool × Mod :=
  let src := pageSource b member g
  let first := (maskRows g.mask).headD 0 * kvTw b
  let (pc, m) := m.scratchRead k t src.1 (src.2 + at') n e
  if pc.err then (true, m)
  else
    let m := m.memWrite k key (g.loc + first + at') pc.bytes [] .clean
    (false, match g.shadow with
      | some loc => m.memWrite k key (loc + first + at') pc.bytes [] .clean
      | none => m)

/-- Whether a page descriptor's range may be used beside the shards of the partition (14 R319), and its shadow page under a
bound key (11 R256). -/
def Mod.pageAllowed (m : Mod) (k ch c n : Nat) (g : PageDesc) : Bool :=
  let p := m.part k
  g.zero || ((p.shardsAt g.loc n).all (fun e => !g.write && e.2.ctx == c) &&
    (match g.shadow with
     | some loc => (p.shardsAt loc n).isEmpty && ((p.chan ch).key.isSome || (m.memVersion k).isSome)
     | none => true))

end Sys2Proof.Machine
end

