-- ==== Sys2Proof/Machine/Trees.lean ====
section
/-!
DEFINITION. Trees and their records: the body of a speculation node, the records of 13 R302 and R307, tree masks, the
accepted path, and the units of the descriptors that move them (13 R299 to R307).
-/

namespace Sys2Proof.Machine

/-! ### The body (13 R300) -/

def specOp (b : List Byte) : Nat := fld b 0 1
def specPeg (b : List Byte) : Nat := fld b 1 1
def specFmt (b : List Byte) : Nat := fld b 2 1
def specChain (b : List Byte) : Bool := bit (fld b 3 1) 0
def specStore (b : List Byte) : Nat := if bit (fld b 3 1) 1 then 2 else 1
def specR (b : List Byte) : Nat := fld b 4 2
def specNmax (b : List Byte) : Nat := fld b 6 1
def specTree (b : List Byte) : Nat := fld b 7 1
def specPrev (b : List Byte) : Nat := fld b 8 1
def specAcc (b : List Byte) : Nat := fld b 9 1
def specRef (b : List Byte) : Nat := fld b 10 2
def specRow (b : List Byte) (member : Nat) : Nat := fld b 12 2 + member * fld b 14 2

/-- The address in a peg of a member, and its location. -/
def Member.addr (mb : Member) (peg : Nat) : Nat := (mb.pegs.getD peg 0).toNat
def Member.loc (mb : Member) (peg : Nat) : Nat := addrLoc (mb.addr peg)

/-! ### Records (13 R302, R307) -/

def recBytes : Nat := 448

def treeN (r : List Byte) : Nat := fld r 0 1
def treeParent (r : List Byte) (i : Nat) : Nat := fld r (64 + i) 1
def treeToken (r : List Byte) (i : Nat) : Nat := fld r (128 + 4 * i) 4

/-- Whether a tree record obeys 13 R302. -/
def treeOk (nmax : Nat) (r : List Byte) : Bool :=
  let n := treeN r
  decide (1 ≤ n) && decide (n ≤ nmax) && fld r 1 3 == 0 && allZero (slice r 8 56) &&
    (List.range 64).all fun i =>
      if i = 0 then treeParent r 0 == 0xFF
      else if i < n then decide (treeParent r i < i)
      else treeParent r i == 0 && treeToken r i == 0

def recA (r : List Byte) : Nat := fld r 0 1
def recValid (r : List Byte) : Bool := bit (fld r 1 1) 0
def recStamp (r : List Byte) : Nat := fld r 4 4
def recBonus (r : List Byte) : Nat := fld r 8 4
def recBase (r : List Byte) : Nat := fld r 12 4
def recPath (r : List Byte) (j : Nat) : Nat := fld r (64 + j) 1
def recTok (r : List Byte) (j : Nat) : Nat := fld r (128 + 4 * j) 4

/-- What acceptance and guess records share (13 R307). -/
def recOk (r : List Byte) : Bool :=
  decide (1 ≤ recA r) && decide (recA r ≤ 64) && recValid r && fld r 2 2 == 0 && allZero (slice r 16 48) &&
    allZero (slice r 384 64) && (List.range 64).all fun j => decide (j < recA r) || recTok r j == 0

/-- Whether an acceptance record obeys 13 R307. -/
def accOk (r : List Byte) : Bool :=
  recOk r && decide (fld r 1 1 < 4) && (List.range 64).all fun j => decide (j < recA r) || recPath r j == 0xFF

/-- `DEPTH` of the nodes (13 R303, step 4): 0 for the root and for inert nodes. -/
def treeDepths (r : List Byte) : List Nat :=
  (List.range 64).foldl (fun (ds : List Nat) i =>
    ds ++ [if i = 0 ∨ treeN r ≤ i then 0 else ds.getD (treeParent r i) 0 + 1]) []

/-- The tree of one node that replaces a tree on a wrong root (13 R303, step 3). -/
def singleTree (stamp bonus : Nat) : List Byte :=
  leBytes 1 1 ++ zeros 3 ++ leBytes 4 stamp ++ zeros 56 ++ leBytes 1 0xFF ++ zeros 63 ++ leBytes 4 bonus ++ zeros 316

/-! ### Delivered tokens (12 R287) -/

/-- Numbers in ascending order, each once. -/
def insertNat (x : Nat) : List Nat → List Nat
  | [] => [x]
  | y :: ys => if x < y then x :: y :: ys else if x = y then y :: ys else y :: insertNat x ys

/-- The page indices that tokens `a` to `b - 1` fall in. -/
def pageRange (a b : Nat) : List Nat := if a < b then (List.range ((b - 1) / 64 + 1 - a / 64)).map (· + a / 64) else []

/-- The token rows that a READ delivers (12 R287): the window, and the globals below `LT`. -/
def kvDelivered (win : Nat) (globs : List Nat) (lt p : Nat) : Bool :=
  decide (p < lt) && (decide (lt - win ≤ p) || globs.contains p)

/-- The page indices of the delivered rows, ascending. -/
def kvPages (win : Nat) (globs : List Nat) (lt : Nat) : List Nat :=
  (globs.filter fun p => decide (p < lt)).foldl (fun a p => insertNat (p / 64) a) (pageRange (lt - win) lt)

/-- The rows of page `idx` that are delivered. -/
def kvRowMask (win : Nat) (globs : List Nat) (lt idx : Nat) : List Bool :=
  (List.range 64).map fun t => kvDelivered win globs lt (64 * idx + t)

/-- The sequence that a started raise holds for a peg of a member (12 R280). -/
def Run.kvUse (u : Run) (peg member : Nat) : Option KvUse := u.kv.find? fun x => x.peg == peg && x.member == member

/-! ### Masks (13 R305) -/

/-- Whether node `a` is node `i` or an ancestor of it (13 R305); an inert node has only itself. -/
def treeSees (tree : List Byte) : Nat → Nat → Nat → Bool
  | 0, _, _ => false
  | fuel + 1, i, a =>
    if i = a then true
    else if i = 0 ∨ treeN tree ≤ i then false
    else treeSees tree fuel (treeParent tree i) a

/-- What a place of the tree mask holds (13 R305). A delivered token at or above `B` + `NMAX` is none of its cases: its
place is a free function of the mask's inputs (01 R38; assumption 7). -/
def maskPlace (tree : List Byte) (base nmax i p : Nat) (delivered : Bool) : Word :=
  if !delivered then 0xFF800000
  else if p < base then 0
  else if p < base + nmax then (if treeSees tree 65 i (p - base) then 0 else 0xFF800000)
  else Config.treeMask tree base i p

/-- The bytes of places `from'` to `from' + n - 1` of a MASK, row after row (13 R305). -/
def treeMaskBytes (tree : List Byte) (base nmax slots win : Nat) (globs : List Nat) (lt from' n : Nat) : List Byte :=
  let idxs := kvPages win globs lt
  (List.range n).flatMap fun x =>
    let i := (from' + x) / (64 * slots)
    let j := (from' + x) % (64 * slots)
    let p := 64 * idxs.getD (j / 64) 0 + j % 64
    leBytes 4 (maskPlace tree base nmax i p (decide (j / 64 < idxs.length) && kvDelivered win globs lt p)).toNat

/-! ### Acceptance (13 R306, R307) -/

/-- The accepted path from node `u` on (13 R306). -/
def acceptFrom (tree : List Byte) (choice : Nat → Nat) : Nat → Nat → List Nat
  | 0, u => [u]
  | fuel + 1, u =>
    match (List.range (treeN tree)).find? fun i =>
        decide (1 ≤ i) && treeParent tree i == u && treeToken tree i == choice u with
    | some v => u :: acceptFrom tree choice fuel v
    | none => [u]

/-- The acceptance record of a path (13 R307). -/
def acceptRec (tree : List Byte) (path : List Nat) (bonus base : Nat) (retreed : Bool) : List Byte :=
  leBytes 1 path.length ++ leBytes 1 (1 + 2 * b2n retreed) ++ zeros 2 ++ leBytes 4 (recStamp tree) ++ leBytes 4 bonus ++
    leBytes 4 base ++ zeros 48 ++ ((List.range 64).flatMap fun j => leBytes 1 (path.getD j 0xFF)) ++
    ((List.range 64).flatMap fun j => leBytes 4 (if j < path.length then treeToken tree (path.getD j 0) else 0)) ++ zeros 64

/-- The tree base of the first sequence that the frame's APPENDs name (13 R306). -/
def Run.firstBase (u : Run) (img : List Byte) (member : Nat) : Nat :=
  match (List.range (frameNodes img)).find? fun i => nodeUnit img i == 5 && kvOp (nodeBody img i) == 2 with
  | some i => (match u.kvUse (kvPeg (nodeBody img i)) member with
      | some x => x.base.getD 0
      | none => 0)
  | none => 0

/-! ### Units (13 R299) -/

/-- Whether a record of `n` bytes at an address may be read by a raise of context `c`, or written where `write` (10 R228,
11 R249, R256, 13 R302, 14 R319). -/
def Mod.recordOk (m : Mod) (k ch c a n : Nat) (write : Bool) : Bool :=
  let p := m.part k
  plainTenant a n && (!isExt a || (p.chan ch).key.isSome || (m.memVersion k).isSome) &&
    (p.shardsAt a n).all fun e => !write && e.2.ctx == c

/-- The records latched by an instance. -/
def Run.rec' (u : Run) (node member : Nat) : List Byte × List Byte := Table.get ([], []) (node * 64 + member) u.recs

/-- Records latched by an instance. -/
def Run.setRec (u : Run) (node member : Nat) (r : List Byte × List Byte) : Run :=
  { u with recs := Table.set (node * 64 + member) r u.recs }

/-- A record of 448 bytes read by a descriptor, with whether it arrived poisoned (11 R257, 14 R322). -/
def Mod.unitRec (m : Mod) (k key : Nat) (mb : Member) (peg : Nat) (e : Ecc) : List Byte × Bool × Mod :=
  let (rd, m) := m.memRead k key (mb.loc peg) recBytes e true
  (rd.bytes, !rd.bad.isEmpty, m)

/-- The unit of a MASK: `n` bytes at offset `at'` of its region (13 R305); the first one reads the tree. Answers the DETAIL
of poison. -/
def Mod.maskUnit (m : Mod) (k key : Nat) (d : Desc) (at' n : Nat) (e : Ecc) : Option Nat × Mod :=
  match m.descNode k d, d.owner with
  | some (u, img, node, member, mb), .node c _ _ =>
    let b := nodeBody img node
    let rb := nodeBody img (specRef b)
    let (tree, lost, m) := if at' = 0 then m.unitRec k key mb (specTree b) e else ((u.rec' node member).1, false, m)
    let m := if at' = 0 then m.modRun k c fun u => u.setRec node member (tree, []) else m
    let base := ((u.kvUse (specPeg b) member).bind (·.base)).getD 0
    let lt := Table.get 0 (specRef b * 64 + member) u.lts
    let globs := Table.get [] (specRef b * 64 + member) u.globs
    let bytes := treeMaskBytes tree base (specNmax b) (kvSlots rb) (kvWin rb) globs lt (at' / 4) (n / 4)
    let st := specStore b
    (if lost then some 2 else none, m.modPart k fun p => p.modTruss (u.phys img (nodeTruss img node)) fun t =>
      t.write st (specRow b member * rowBytes st + at') bytes)
  | _, _ => (none, m)

/-- The units of an ACCEPT (13 R306): the first reads the tree and the choices and writes the record with `FLAGS` 0, the
second writes `FLAGS`. Answers whether a scratchpad word of the choices failed, and the DETAIL of poison. -/
def Mod.acceptUnit (m : Mod) (k key : Nat) (d : Desc) (at' : Nat) (e : UnitEcc) : Bool × Option Nat × Mod :=
  match m.descNode k d, d.owner with
  | some (u, img, node, member, mb), .node c _ _ =>
    let b := nodeBody img node
    let at0 := mb.loc (specAcc b)
    if at' ≠ 0 then (false, none, m.memWrite k key (at0 + 1) (slice (u.rec' node member).1 1 1) [] e.data)
    else
      let (tree, lost, m) := m.unitRec k key mb (specTree b) e.srcDir
      let st := specStore b
      let (pc, m) := m.scratchRead k (u.phys img (nodeTruss img node)) st (specRow b member * rowBytes st) (8 * treeN tree) e.data
      if pc.err then (true, none, m)
      else
        let choice (i : Nat) : Nat := fld pc.bytes (8 * i + 4) 4
        let path := acceptFrom tree choice 64 0
        let r := acceptRec tree path (choice (path.getLastD 0)) (u.firstBase img member) (u.retreed.contains member)
        let m := m.memWrite k key at0 (putFld r 1 1 0) [] .clean
        (false, if lost then some 2 else none, m.modRun k c fun u => u.setRec node member (r, []))
  | _, _ => (false, none, m)

end Sys2Proof.Machine
end

