-- ==== Sys2Proof/Machine/Dma.lean ====
section
/-!
DEFINITION. The DMA engine: windows, the checks of sides, moving one unit, order of issue, bus errors, dropped descriptors and
channels (10 R224 to R246, 01 R25, R28 to R32, 11 R258, 14 R319).
-/

namespace Sys2Proof.Machine

/-! ### Windows (10 R231 to R234, R246) -/

/-- The checks of an open request, in order (10 R231; a truss out of service, 18 R414). -/
def Mod.winErr (m : Mod) (k w : Nat) : Nat :=
  let p := m.part k
  let c := p.win w
  let r := p.reg (offWinRange w)
  let others := p.portWindows (winStore c) (winTruss c) w
  let src := getF c 5 0
  if winStore c = 3 ∨ winRows r = 0 ∨ storeRows (winStore c) < winFirst r + winRows r ∨ p.inService (winTruss c) = false
  then 1
  else if src = k ∨ m.sameTenant k src = false then 2
  else if getF c 24 23 = 0 ∨ getF c 19 15 = 0 ∨ 16 < getF c 19 15 then 3
  else if (winGuar c && !others.isEmpty) || others.any winGuar then 4
  else if 16 < winShares c + (others.map winShares).sum then 5
  else 0

/-- A write of a window's control register (10 R231, R234): fields [25:0] act while the window is not open, `CLOSE` goes
before `REQ`, and a request is checked at once. -/
def Mod.winCtrlWrite (m : Mod) (k w : Nat) (value : Word) : Mod :=
  let old := (m.part k).win w
  let v := if winOpen old then old else setF (setF old 25 15 (getF value 25 15)) 5 0 (getF value 5 0)
  let m := m.modPart k fun p => p.setReg (offWinCtrl w) v
  if getB value 30 then
    m.modPart k fun p =>
      let v := if getB value 29 then setF v 28 26 0 else v
      p.setReg (offWinCtrl w) (setB v 30 (winOpen v))
  else if getB value 29 then
    let err := m.winErr k w
    m.modPart k fun p => p.setReg (offWinCtrl w) (setB (setF v 28 26 err) 31 (winOpen v || err == 0))
  else m

/-- DMA_WIN_OPEN (10 R231): the value has `REQ` 1 and `CLOSE` 0. -/
def execDmaWinOpen (f : Fn) (k : Fin 64) (w : Fin 16) (value : Word) (s : State) : Host.Outcome State Fault Refusal :=
  s.act fun m => m.host fun m =>
    if m.writable f k.val && getB value 29 && !getB value 30 then m.winCtrlWrite k.val w.val value else m

/-- DMA_WIN_CLOSE (10 R234): the value has `CLOSE` 1. -/
def execDmaWinClose (f : Fn) (k : Fin 64) (w : Fin 16) (value : Word) (s : State) : Host.Outcome State Fault Refusal :=
  s.act fun m => m.host fun m =>
    if m.writable f k.val && getB value 30 then m.winCtrlWrite k.val w.val value else m

/-- Whether some unit accepted by a window is not yet written (10 R234). -/
def Mod.winBusy (m : Mod) (k w : Nat) : Bool :=
  m.parts.any fun e => e.2.chans.any fun h => h.2.winOk &&
    (match h.2.queue.head?.bind Desc.window with
     | some (j, i, _, _) => j == k && i == w
     | none => false)

/-! ### Sides (10 R226 to R228) -/

/-- Whether a side's bytes go through a PS row, which takes two units together (10 R224). -/
def Mod.sidePs (m : Mod) (kind v : Nat) : Bool :=
  (kind == 1 && locStore v == 2) || (kind == 2 && winStore ((m.part (winPart v)).win (winNo v)) == 2)

/-- The bytes of a transfer that move together: a block of a compressed view, a row of PS, a token row (13 R313), else 512
(10 R224, 11 R274). -/
def Mod.unitBytes (m : Mod) (d : Desc) : Nat :=
  match d.job with
  | .row _ => max 1 d.len
  | .page _ | .accept => 512
  | _ =>
    if (d.srcKind == 0 && compressed d.src) || (d.dstKind == 0 && compressed d.dst) then 4096
    else if m.sidePs d.srcKind d.src || m.sidePs d.dstKind d.dst then 1024
    else 512

/-- Whether a raise of context `c`, the host or an attachment may use the range of a memory side (14 R319). -/
def Partition.shardsAllow (p : Partition) (d : Desc) (isDst : Bool) (loc : Nat) : Bool :=
  (p.shardsAt loc d.len).all fun e =>
    match d.owner with
    | .node c _ _ => !isDst && e.2.ctx == c
    | .host => !isDst
    | .shard s => !isDst || e.1 == s

/-- Whether a unit of `n` bytes at offset `at'` of a compressed side may be used: its region is loaded with the address's
mode, and the unit lies in it (11 R249, R264). -/
def Partition.viewAllows (p : Partition) (a len at' n : Nat) : Bool :=
  let r := addrRegion a
  let g := p.region r
  p.cmpLoaded r && addrMode a == g.mode + 1 && addrLoc a % 4096 == 0 && len % 4096 == 0 &&
    decide (g.base ≤ addrLoc a + at') && decide (addrLoc a + at' + n ≤ g.limit)

/-- Whether bytes of a memory side stand in external memory: its own, or those of its view's directory (11 R255, R265). -/
def Partition.sideExt (p : Partition) (a : Nat) : Bool :=
  isExt (addrLoc a) || (compressed a && isExt (p.region (addrRegion a)).dir)

/-- Whether a memory side may be used for the unit at offset `at'` (10 R228, 11 R248, R249, R256). -/
def Mod.memSideOk (m : Mod) (k ch : Nat) (d : Desc) (isDst : Bool) (a at' n : Nat) : Bool :=
  let p := m.part k
  let loc := addrLoc a
  a % 64 == 0 && viewOk a && inTenant loc d.len &&
    (!p.sideExt a || (p.chan ch).key.isSome || (m.memVersion k).isSome) &&
    (!compressed a || p.viewAllows a d.len at' n) && p.shardsAllow d isDst loc

/-- Whether one side may be used at run time for the unit at offset `at'` (10 R228); a window's own checks come with each
unit (R233). -/
def Mod.sideOk (m : Mod) (k ch : Nat) (d : Desc) (isDst : Bool) (at' n : Nat) : Bool :=
  let kind := if isDst then d.dstKind else d.srcKind
  let v := if isDst then d.dst else d.src
  match kind with
  | 0 => m.memSideOk k ch d isDst v at' n
  | 1 => ownLocOk v && d.len % rowBytes (locStore v) == 0 &&
      decide (locRow v * rowBytes (locStore v) + d.len ≤ storeBytes (locStore v))
  | 2 => winLocOk v
  | _ => v % 64 == 0

/-- Whether the sides of a descriptor may be used for the unit at offset `at'`: kinds 2 and 3 do not meet (10 R228), and the
lane's own descriptors reach pages and records (12 R285, 13 R299). -/
def Mod.sidesOk (m : Mod) (k ch : Nat) (d : Desc) (at' : Nat) : Bool :=
  match d.job, m.descNode k d with
  | .page g, some (_, img, node, _, _) =>
    (match d.owner with
     | .node c _ _ => m.pageAllowed k ch c (64 * kvTw (nodeBody img node)) g
     | _ => true)
  | .page _, none => true
  | .mask, some (_, img, node, _, mb) =>
    (match d.owner with
     | .node c _ _ => m.recordOk k ch c (mb.addr (specTree (nodeBody img node))) recBytes false
     | _ => true)
  | .accept, some (_, img, node, _, mb) =>
    (match d.owner with
     | .node c _ _ => m.recordOk k ch c (mb.addr (specTree (nodeBody img node))) recBytes false &&
        m.recordOk k ch c (mb.addr (specAcc (nodeBody img node))) recBytes true
     | _ => true)
  | .mask, none | .accept, none => true
  | .sides, _ | .row _, _ =>
    let n := m.unitBytes d
    !d.fault && !(decide (2 ≤ d.srcKind) && decide (2 ≤ d.dstKind)) && m.sideOk k ch d false at' n && m.sideOk k ch d true at' n

/-- R233 for the unit of `n` bytes at offset `at'` of a descriptor of partition `j`; the owner is of the sender's tenant now
as it was when the window opened (17 R374), and the windows of a partition under reset are closed (18 R405). -/
def Mod.winAccepts (m : Mod) (j : Nat) (d : Desc) (guar : Bool) (at' n : Nat) : Bool :=
  match d.window with
  | none => true
  | some (k, w, row, isWrite) =>
    let p := m.part k
    let c := p.win w
    let r := p.reg (offWinRange w)
    let rb := rowBytes (winStore c)
    p.created && !p.underReset && winOpen c && !getB c 30 && getF c 5 0 == j && m.sameTenant k j &&
      decide (row + (at' + n + rb - 1) / rb ≤ winRows r) &&
      (if isWrite then getB c 23 else getB c 24) && (!guar || winGuar c) && d.len % rb == 0

/-! ### Moving one unit -/

/-- Reads the `n` bytes at offset `at'` of the source of a descriptor. -/
def Mod.readSide (m : Mod) (k ch : Nat) (d : Desc) (at' n : Nat) (e : UnitEcc) : Piece × Mod :=
  let h := (m.part k).chan ch
  match d.srcKind with
  | 0 => m.readLocal k (m.keyOf h.key) 0 d.src at' n e
  | 1 => m.readLocal k 0 1 d.src at' n e
  | 2 => let x := m.winAt d.src at'; m.scratchRead x.1 x.2.1 x.2.2.1 x.2.2.2 n e.data
  | _ => ({ bytes := slice (h.hostData.getD []) 0 n, bad := [], detail := 0, err := false }, m)

/-- Writes a piece at offset `at'` of the destination of a descriptor. -/
def Mod.writeSide (m : Mod) (k ch : Nat) (d : Desc) (at' : Nat) (pc : Piece) (e : UnitEcc) : Option Nat × Mod :=
  match d.dstKind with
  | 0 => m.writeLocal k (m.keyOf ((m.part k).chan ch).key) 0 d.dst at' pc e.dstDir
  | 1 => m.writeLocal k 0 1 d.dst at' pc e.dstDir
  | 2 => let x := m.winAt d.dst at'; (none, m.scratchWrite x.1 x.2.1 x.2.2.1 x.2.2.2 pc)
  | _ => (none, m.hostWrites (d.dst + at') pc)

/-- The bytes that the digest engine takes as a shard's unit is written (14 R318). -/
def Partition.hashUnit (p : Partition) (d : Desc) (bs : List Byte) : Partition :=
  match d.owner with
  | .shard slot => { p with shards := p.shards.map fun e =>
      (e.1, if e.1 = slot then { e.2 with hashed := e.2.hashed ++ bs } else e.2) }
  | _ => p

/-- The unit of a descriptor that moves bytes between its sides: whether the read failed on a scratchpad word, and the
DETAIL of poison. -/
def Mod.moveSides (m : Mod) (k ch : Nat) (d : Desc) (at' n : Nat) (e : UnitEcc) : Bool × Option Nat × Mod :=
  let (pc, m) := m.readSide k ch d at' n e
  if pc.err then (true, none, m)
  else
    let (lost, m) := m.writeSide k ch d at' pc e
    (false, if !pc.bad.isEmpty then some pc.detail else lost, m.modPart k fun p => p.hashUnit d pc.bytes)

/-- Bytes of the unit at offset `at'` of a descriptor. -/
def Mod.unitLen (m : Mod) (d : Desc) (at' : Nat) : Nat := min (m.unitBytes d) (d.len - at')

/-- The unit at offset `at'` of a descriptor moves (10 R229, 12 R285, 13 R299): whether the read failed on a scratchpad word,
and the DETAIL of poison. -/
def Mod.moveUnit (m : Mod) (k ch : Nat) (d : Desc) (at' : Nat) (e : UnitEcc) : Bool × Option Nat × Mod :=
  let n := m.unitLen d at'
  let key := m.keyOf ((m.part k).chan ch).key
  match d.job with
  | .sides | .row _ => m.moveSides k ch d at' n e
  | .page g =>
    (match m.descNode k d with
     | none => (false, none, m)
     | some (u, img, node, member, _) =>
       let t := u.phys img (nodeTruss img node)
       if g.write then
         let r := m.writePage k t key (nodeBody img node) member g at' n e.data
         (r.1, none, r.2)
       else (false, m.readPage k t (nodeBody img node) member g at' n e.data))
  | .mask => (false, m.maskUnit k key d at' n e.data)
  | .accept => m.acceptUnit k key d at' e

/-- No error in any read of a unit. -/
def UnitEcc.clean : UnitEcc := { data := .clean, srcDir := .clean, dstDir := .clean }

/-! ### Ends of descriptors -/

/-- Ends the uses of keys by a channel's head (17 R382). -/
def Mod.dmaKeyEnd (m : Mod) (k ch : Nat) : Mod :=
  m.keyRelease fun u => match u with
    | .dma j c => j == k && c == ch
    | _ => false

/-- The channel without its head, with nothing begun. -/
def Channel.popHead (h : Channel) (done : Nat) : Channel :=
  { h with queue := h.queue.drop 1, written := 0, flight := 0, hostData := none, winOk := false, key := none, done := done }

/-- Marks a shard's transfer failed, the first failure staying. -/
def Partition.shardFail (p : Partition) (slot status detail : Nat) : Partition :=
  { p with shards := p.shards.map fun e =>
      (e.1, if e.1 = slot ∧ e.2.failed.isNone = true then { e.2 with failed := some (status, detail) } else e.2) }

/-- The owner of a descriptor that did not end well: a raise ends with a status once its running nodes have ended, a
host-pushed descriptor sets ERR, an attachment fails (10 R238, R239, R245, 14 R317). What the failing node has queued
behind it is not issued (DESIGN CHOICE, assumption 51). -/
def Mod.ownerFails (m : Mod) (k ch : Nat) (d : Desc) (status detail : Nat) : Mod :=
  match d.owner with
  | .node c node member =>
    ((m.modPart k fun p => p.modChan ch fun h =>
      { h with queue := h.queue.filter (·.owner != d.owner), waiting := h.waiting.filter (·.owner != d.owner) }).markRun k c
      status detail).worked k c node member
  | .host => m.modPart k fun p => p.flag (offChStatus ch) 7
  | .shard slot => m.modPart k fun p => (p.flag (offChStatus ch) 7).shardFail slot status detail

/-- A descriptor's last unit has been written (10 R229, R230); what ends with a walker's descriptor is the lane's. -/
def Mod.descDone (m : Mod) (k ch : Nat) (d : Desc) : Mod :=
  let m := (m.dmaKeyEnd k ch).modPart k fun p => p.modChan ch fun h => h.popHead d.len
  match d.owner with
  | .node c node member => if d.job == .sides then m.worked k c node member else m
  | .host => m.modPart k fun p => p.count (offChStatus ch) 31 16
  | .shard slot => m.modPart k fun p =>
      let more := (p.chan ch).queue.any (fun x => x.owner == d.owner) || (p.chan ch).waiting.any fun x => x.owner == d.owner
      let p := p.count (offChStatus ch) 31 16
      if more then p
      else { p with shards := p.shards.map fun e => (e.1, if e.1 = slot then { e.2 with arrived := true } else e.2) }

/-- The raise of a transfer that received poisoned data (11 R258, 03 R93): it will end with ST_INTEGRITY, and its promise
is void. -/
def Mod.poisonRaise (m : Mod) (k : Nat) (d : Desc) (detail : Nat) : Mod :=
  match d.owner with
  | .node c _ mb => (m.modRun k c fun u => u.voidMember mb 3).markRun k c stIntegrity detail
  | .host => m
  | .shard slot => m.modPart k fun p => p.shardFail slot stIntegrity 2

/-! ### Issue (10 R224, R225) -/

/-- Whether a guaranteed-class raise runs on a partition. -/
def Partition.guarRuns (p : Partition) : Bool :=
  p.ctxs.any fun e => match e.2.run with
    | some u => u.guar
    | none => false

/-- Whether a descriptor belongs to the guaranteed-class raise that runs. -/
def Partition.ofGuar (p : Partition) (d : Desc) : Bool :=
  match d.owner with
  | .node c _ _ => (match (p.ctx c).run with
      | some u => u.guar
      | none => false)
  | _ => false

/-- Whether the engine works for a channel: neither the partition nor the channel is out of service (10 R239, 18 R403,
19 R432). -/
def Mod.engineOn (m : Mod) (k ch : Nat) : Bool :=
  let p := m.part k
  m.running && p.created && !p.underReset && !m.shutStands && !getB (p.reg (offChCtrl ch)) 0

/-- Whether the engine serves a channel's head, a stop apart: while a guaranteed-class raise runs, only its own
descriptors (10 R225). -/
def Mod.serves (m : Mod) (k ch : Nat) : Bool :=
  let p := m.part k
  m.engineOn k ch && (match (p.chan ch).queue.head? with
    | some d => !p.guarRuns || p.ofGuar d
    | none => false)

/-- Whether a stop of the engine stands (10 R238, R242). -/
def Partition.dmaStopped (p : Partition) : Bool := getB (p.reg offDmaEng) 16

/-- Whether the engine issues units of a channel's head now, its rank and what blocks it apart (10 R238). -/
def Mod.issues (m : Mod) (k ch : Nat) : Bool := m.serves k ch && !(m.part k).dmaStopped

/-- The directed path of the bay fabric that a descriptor's units cross to a window on another bay (10 R235, 01 R27). -/
def Desc.crosses (d : Desc) (j : Nat) : Option Nat :=
  d.window.bind fun (k, _, _, isWrite) =>
    if k / 16 = j / 16 then none else some (if isWrite then j / 16 * 4 + k / 16 else k / 16 * 4 + j / 16)

/-- Whether a best-effort unit of channel `ch` of partition `j` asks for a path (01 R30). -/
def Mod.asksPath (m : Mod) (path j ch : Nat) : Bool :=
  let h := (m.part j).chan ch
  m.issues j ch && !h.winOk && (match h.queue.head? with
    | some d => d.crosses j == some path && !(m.part j).ofGuar d
    | none => false)

/-- Whether some channel of a partition below `j` asks for a path: it wins over `j` (01 R31, rank 2). -/
def Mod.outranked (m : Mod) (path j : Nat) : Bool :=
  m.parts.any fun e => decide (e.1 < j) && (List.range 16).any fun ch => m.asksPath path e.1 ch

/-- Whether the arbiter of a path gives it to channel `ch` of partition `j`: its holder keeps it while it asks, and then
the lowest partition that asks takes it (01 R30, R31). -/
def Mod.pathGrants (m : Mod) (path j ch : Nat) : Bool :=
  match Table.find path m.holders with
  | some h => if h = (j, ch) then true else !m.asksPath path h.1 h.2 && !m.outranked path j
  | none => !m.outranked path j

/-- Fabric slots of a path that the reservation of the guaranteed-class raise of a descriptor holds (01 R28). -/
def Partition.pathSlots (p : Partition) (d : Desc) (path : Nat) : Nat :=
  match d.owner with
  | .node c _ _ =>
    (match (p.ctx c).run with
     | some u => (match p.resvOf c u.q with
        | some (_, v) => Table.get 0 path v.slots
        | none => 0)
     | none => 0)
  | _ => 0

/-- Whether the fabric carries the next unit of a head now (01 R25, R30, R32): a guaranteed-class raise crosses only in slots
that its reservation holds, best effort only as the path's arbiter grants. -/
def Mod.fabricFree (m : Mod) (j ch : Nat) (d : Desc) : Bool :=
  match d.crosses j with
  | none => true
  | some path =>
    let p := m.part j
    if p.ofGuar d then decide (1 ≤ p.pathSlots d path) else m.pathGrants path j ch

/-- Units of the head that fit into what may be in flight: eight of 512 bytes (10 R224). -/
def Mod.flightRoom (m : Mod) (h : Channel) (d : Desc) : Nat :=
  let n := m.unitBytes d
  min (max 1 (4096 / n)) (ceilDiv (d.len - h.written) n)

/-- Whether a head's units pass neither PCIe inward nor a window: how many of them are in flight is open. -/
def Desc.flies (d : Desc) : Bool := d.window.isNone && d.srcKind != 3

/-- Whether a channel can issue a unit now (10 R224): it is not blocked by what is in flight, by its window's path, or by a
host read that is outstanding. -/
def Mod.issuable (m : Mod) (k ch : Nat) : Bool :=
  let h := (m.part k).chan ch
  m.issues k ch && (match h.queue.head? with
    | none => false
    | some d =>
      if d.window.isSome then !h.winOk && m.fabricFree k ch d
      else if d.srcKind = 3 then h.hostData.isNone && !(m.pcie.reads.any fun q => q.serves == .channel k ch)
      else d.len == 0 || decide (h.flight < m.flightRoom h d))

/-- Whether a channel takes the next issue slot: it can issue a unit, and no channel below it can (10 R224). -/
def Mod.issuesNext (m : Mod) (k ch : Nat) : Bool :=
  m.issuable k ch && (List.range ch).all fun i => !m.issuable k i

/-- Whether units of the head have been issued and are not written. -/
def Channel.flying (h : Channel) : Bool := decide (0 < h.flight) || h.winOk || h.hostData.isSome

/-- Whether the next unit of a channel's head may be written now: it is in flight, in a stop too (10 R238 rule 2), or it is
issued now. -/
def Mod.unitMoves (m : Mod) (k ch : Nat) : Bool :=
  (m.engineOn k ch && ((m.part k).chan ch).flying) || m.issuesNext k ch

/-- What the engine has issued of a channel whose turn it is: how far ahead of the bytes written is open (10 R224). -/
def Mod.issueAhead (m : Mod) (k ch : Nat) : Mod :=
  let h := (m.part k).chan ch
  match h.queue.head? with
  | none => m
  | some d =>
    if d.flies && m.issuesNext k ch then
      let (x, m) := m.draw
      m.modPart k fun p => p.modChan ch fun h => { h with flight := h.flight + x % (m.flightRoom h d + 1 - h.flight) }
    else m

/-! ### Dropped descriptors (10 R240) -/

/-- Drops the head of a channel within the bounds of R240: which of the units in flight arrive is open. `stuck` says that
the first of them is the one that failed. -/
def Mod.dropHead (m : Mod) (k ch : Nat) (stuck : Bool) : Mod :=
  let m := if stuck then m else m.issueAhead k ch
  let h := (m.part k).chan ch
  match h.queue.head? with
  | none => m
  | some d =>
    let n := m.unitBytes d
    let free := if !m.sidesOk k ch d h.written then 0
      else if d.flies then (if stuck then m.flightRoom h d else h.flight)
      else if h.winOk || h.hostData.isSome then 1 else 0
    let m := m.orphanReads k ch
    let (y, m) := if free = 0 then (0, m) else m.draw
    let r := (List.range free).foldl (fun (acc : Bool × Nat × Mod) i =>
      let at' := h.written + n * i
      if bit y i && !(stuck && i == 0) && acc.2.2.sidesOk k ch d at' then
        let u := acc.2.2.moveUnit k ch d at' UnitEcc.clean
        (acc.1 && !u.1, if acc.1 && !u.1 then at' + m.unitLen d at' else acc.2.1, u.2.2)
      else (false, acc.2.1, acc.2.2)) (true, h.written, m)
    (r.2.2.dmaKeyEnd k ch).modPart k fun p => p.modChan ch fun h => h.popHead r.2.1

/-! ### Bus errors (10 R237, R238, R243) -/

/-- The status of the owning raise by cause (10 R237). -/
def causeStatus (cause : Nat) : Nat :=
  match cause with
  | 1 => stIntegrity
  | 2 => stTimeout
  | _ => stNotPermitted

/-- DMA_ERR records the first error until its VALID is cleared (10 R243). -/
def Partition.dmaErrMark (p : Partition) (ch cause : Nat) (host : Bool) (unit : Nat) : Partition :=
  if getB (p.reg offDmaErr) 31 then p.flag offDmaErr 30
  else
    let v := setF (setF (setF (setF (p.reg offDmaErr) 29 27 cause) 26 23 ch) 22 22 (b2n host)) 21 0 unit
    p.setReg offDmaErr (setB v 31 true)

/-- Whether a descriptor was pushed by the host or for an attachment. -/
def Desc.hostPushed (d : Desc) : Bool :=
  match d.owner with
  | .node _ _ _ => false
  | _ => true

/-- A detected bus error (10 R238, rule 1): recorded, and the engine stops on all channels; what the others had in flight by
then is open. -/
def Mod.engineStops (m : Mod) (k ch cause : Nat) (host : Bool) (unit : Nat) : Mod :=
  let m := m.forAll (fun m i => if i = ch then m else m.issueAhead k i) (List.range 16)
  m.modPart k fun p => (p.dmaErrMark ch cause host unit).flag offDmaEng 16

/-- A bus error on the head of a channel (10 R238): recorded, every channel stops, the descriptor is dropped and its owner
ends with the status of R237. -/
def Mod.busError (m : Mod) (k ch cause : Nat) : Mod :=
  let h := (m.part k).chan ch
  match h.queue.head? with
  | none => m
  | some d =>
    let m := m.engineStops k ch cause d.hostPushed (h.written / 512)
    (m.dropHead k ch true).ownerFails k ch d (causeStatus cause) (match d.owner with
      | .shard _ => if cause = 2 then 0 else 1
      | _ => ch)

/-! ### The unit of a head (10 R229) -/

/-- Whether a descriptor's bytes stand in external memory, on either side (11 R256). -/
def Mod.usesExt (m : Mod) (k : Nat) (d : Desc) : Bool :=
  let p := m.part k
  match d.job, m.descNode k d with
  | .page g, _ => g.shadow.isSome
  | .mask, some (_, img, node, _, mb) => isExt (mb.loc (specTree (nodeBody img node)))
  | .accept, some (_, img, node, _, mb) =>
    isExt (mb.loc (specTree (nodeBody img node))) || isExt (mb.loc (specAcc (nodeBody img node)))
  | _, _ => (d.srcKind == 0 && p.sideExt d.src) || (d.dstKind == 0 && p.sideExt d.dst)

/-- Latches the memory key for a head with bytes in tenant external memory as its first unit issues (17 R382). -/
def Mod.latchKey (m : Mod) (k ch : Nat) (d : Desc) : Mod :=
  if m.usesExt k d && ((m.part k).chan ch).key.isNone then
    match m.memVersion k with
    | some u => (m.modPart k fun p => p.modChan ch fun h => { h with key := some u }).keyUse u.1 u.2 (.dma k ch)
    | none => m
  else m

/-- The function whose routing ID a descriptor's host reads carry: a FETCH's issuer (14 R318), else the partition's VF.
DESIGN CHOICE (assumption 51): the manual gives the routing ID of a FETCH alone. -/
def Partition.readFn (p : Partition) (k : Nat) (d : Desc) : Fn :=
  match d.owner with
  | .shard slot => (match Table.find slot p.shards with
      | some s => s.fn
      | none => fnOfIdx k)
  | _ => fnOfIdx k

/-- The head's next unit has been written: one less in flight. -/
def Channel.wrote (h : Channel) (n : Nat) : Channel :=
  { h with written := h.written + n, flight := h.flight - 1, hostData := none, winOk := false }

/-- The next unit of a channel's head (10 R229): its checks, its host data, its window, and the move. Answers whether it was
the descriptor's last. -/
def Mod.unitStep (m : Mod) (k ch : Nat) (d : Desc) (e : UnitEcc) : Bool × Mod :=
  let at' := ((m.part k).chan ch).written
  if !m.sidesOk k ch d at' then (false, m.busError k ch 3)
  else
    let m := m.latchKey k ch d
    let h := (m.part k).chan ch
    let n := m.unitLen d at'
    if d.window.isSome && !h.winOk then (false, m)
    else if d.job == .sides && d.srcKind == 3 && h.hostData.isNone then
      (false, if m.pcie.reads.any fun q => q.serves == .channel k ch then m
        else m.issueRead ((m.part k).readFn k d) (.channel k ch) (d.src + at') n)
    else
      let r := m.moveUnit k ch d at' e
      if r.1 then (false, r.2.2.busError k ch 1)
      else
        let m := match r.2.1 with
          | some detail => r.2.2.poisonRaise k d detail
          | none => r.2.2
        let m := m.modPart k fun p => p.modChan ch fun h => h.wrote n
        if d.len ≤ at' + n then (true, m.descDone k ch d) else (false, m.issueAhead k ch)

/-- WINDOW_UNIT_RX (10 R233, 01 R30): the unit of sender `j`'s head is accepted once the fabric carries it, or the sender's
engine stops with cause 4. -/
def execWindowUnitRx (j : Fin 64) (ch : Fin 16) (s : State) : Host.Outcome State Fault Refusal :=
  s.act fun m =>
    let p := m.part j.val
    let h := p.chan ch.val
    match h.queue.head? with
    | none => m
    | some d =>
      if !m.issuesNext j.val ch.val || d.window.isNone || !m.sidesOk j.val ch.val d h.written then m
      else if m.winAccepts j.val d (p.ofGuar d) h.written (m.unitBytes d) then
        let m := match d.crosses j.val with
          | some path => if p.ofGuar d then m else { m with holders := Table.set path (j.val, ch.val) m.holders }
          | none => m
        m.modPart j.val fun p => p.modChan ch.val fun h => { h with winOk := true }
      else m.busError j.val ch.val 4

/-- Whether the scratchpad words that a head's next unit reads hold a bad code (10 R220). -/
def Mod.sourceBad (m : Mod) (k ch : Nat) (d : Desc) : Bool :=
  let h := (m.part k).chan ch
  let n := m.unitLen d h.written
  match d.job, m.descNode k d with
  | .page g, some (u, img, node, member, _) =>
    let src := pageSource (nodeBody img node) member g
    g.write && ((m.part k).truss (u.phys img (nodeTruss img node))).readBad src.1 (src.2 + h.written) n
  | .accept, some (u, img, node, member, _) =>
    let b := nodeBody img node
    let st := specStore b
    h.written == 0 && ((m.part k).truss (u.phys img (nodeTruss img node))).readBad st (specRow b member * rowBytes st) 8
  | .sides, _ =>
    (match d.srcKind with
     | 1 => ((m.part k).truss (locTruss d.src)).readBad (locStore d.src) (locRow d.src * rowBytes (locStore d.src) + h.written) n
     | 2 => (let x := m.winAt d.src h.written
             ((m.part x.1).truss x.2.1).readBad x.2.2.1 x.2.2.2 n) && h.winOk
     | _ => false)
  | _, _ => false

/-- Whether a bus error of a cause stands against a channel's head (10 R237): of causes 1 and 2 a host read that is
outstanding fails, or a scratchpad word of the source is bad; of 3 and 4 the checks of R228 and R233 fail. -/
def Mod.errorStands (m : Mod) (k ch cause : Nat) (d : Desc) : Bool :=
  let h := (m.part k).chan ch
  let reading := m.pcie.reads.any fun q => q.serves == .channel k ch
  match cause with
  | 1 => reading || (m.sidesOk k ch d h.written && m.sourceBad k ch d)
  | 2 => reading
  | 3 => !m.sidesOk k ch d h.written
  | 4 => d.window.isSome && !h.winOk && !m.winAccepts k d ((m.part k).ofGuar d) h.written (m.unitBytes d)
  | _ => false

/-- DMA_BUS_ERROR (10 R238); a second one before the restart is handled within the same stop. In the cycle in which
`DISABLE` dropped the channel's head the error of causes 1 and 2 that it met is recorded, and the raise is ended by
`DISABLE` (R241). -/
def execDmaBusError (k : Fin 64) (ch : Fin 16) (cause : Fin 5) (s : State) : Host.Outcome State Fault Refusal :=
  s.act fun m =>
    let h := (m.part k.val).chan ch.val
    match h.queue.head?, h.cut with
    | some d, _ =>
      if m.serves k.val ch.val && m.errorStands k.val ch.val cause.val d then m.busError k.val ch.val cause.val else m
    | none, some (t, unit, host) =>
      if t == m.devtime && decide (1 ≤ cause.val) && m.running && !(m.part k.val).underReset then
        (m.engineStops k.val ch.val cause.val host unit).modPart k.val fun p => p.modChan ch.val fun h => { h with cut := none }
      else m
    | none, none => m

/-! ### Queues (10 R225, R230, R239) -/

/-- A descriptor that the bay controller or the page walker would push (10 R225, R239): onto the queue, behind those that
wait for room, or, where the channel is disabled, the end of its raise. -/
def Mod.pushDesc (m : Mod) (k ch : Nat) (d : Desc) : Mod :=
  if getB ((m.part k).reg (offChCtrl ch)) 0 then m.ownerFails k ch d stAborted ch
  else
    m.modPart k fun p => p.modChan ch fun h =>
      if h.waiting.isEmpty && decide (h.queue.length < 16) then { h with queue := h.queue ++ [d] }
      else { h with waiting := h.waiting ++ [d] }

/-- The first waiting descriptor that `f` names, pushed if the queue has room (10 R225, 12 R285). -/
def Channel.retry (h : Channel) (f : Desc → Bool) : Channel :=
  match h.waiting.find? f with
  | some d => if h.queue.length < 16 then { h with queue := h.queue ++ [d], waiting := h.waiting.erase d } else h
  | none => h

/-- BAY_DESC_PUSH_RETRY (10 R225). -/
def execBayDescPushRetry (k : Fin 64) (ch : Fin 16) (s : State) : Host.Outcome State Fault Refusal :=
  s.act fun m => m.alive fun m => if (m.part k.val).underReset then m
    else m.modPart k.val fun p => p.modChan ch.val fun h => h.retry fun d => d.job == .sides

/-- PAGE_WALK_PUSH (12 R285). -/
def execPageWalkPush (k : Fin 64) (ch : Fin 16) (s : State) : Host.Outcome State Fault Refusal :=
  s.act fun m => m.alive fun m => if (m.part k.val).underReset then m
    else m.modPart k.val fun p => p.modChan ch.val fun h => h.retry fun d => d.job != .sides

/-- The fields of a body (10 R226). -/
def bodyLen (b : List Byte) : Nat := fld b 4 4
def bodyFlags (b : List Byte) : Nat := fld b 2 1

/-- Whether a length and the sides' stores agree (10 R226). -/
def lenOk (b : List Byte) : Bool :=
  let n := bodyLen b
  let ps := (fld b 0 1 == 1 && locStore (fld b 8 8) == 2) || (fld b 1 1 == 1 && locStore (fld b 16 8) == 2)
  decide (512 ≤ n) && decide (n ≤ 2 ^ 31) && n % 512 == 0 && (!ps || n % 1024 == 0)

/-- Whether a literal side value obeys R227, and R249 for a memory side. -/
def sideValueOk (kind v n : Nat) : Bool :=
  match kind with
  | 0 => v % 64 == 0 && viewOk v && (!compressed v || (addrLoc v % 4096 == 0 && n % 4096 == 0))
  | 1 => ownLocOk v
  | 2 => winLocOk v
  | _ => v % 64 == 0

/-- Whether a host descriptor is well formed (10 R230). -/
def hostDescOk (b : List Byte) : Bool :=
  let sk := fld b 0 1
  let dk := fld b 1 1
  decide (sk ≤ 3) && decide (dk ≤ 3) && fld b 2 2 == 0 && lenOk b &&
    sideValueOk sk (fld b 8 8) (bodyLen b) && sideValueOk dk (fld b 16 8) (bodyLen b) && fld b 24 8 == 0

/-- The descriptor of a literal body. -/
def literalDesc (owner : DescOwner) (b : List Byte) : Desc :=
  { owner := owner, srcKind := fld b 0 1, dstKind := fld b 1 1, src := fld b 8 8, dst := fld b 16 8, len := bodyLen b
    job := .sides, fault := false, raw := b }

/-- A descriptor taken from a channel's window (10 R230, R239). -/
def Partition.takeDesc (p : Partition) (ch : Nat) : Partition :=
  let b := Cells.read p.descWin (32 * ch) 32
  if !hostDescOk b then p.flag (offChStatus ch) 6
  else if getB (p.reg (offChCtrl ch)) 0 || decide (16 ≤ (p.chan ch).queue.length) then p.flag (offChStatus ch) 5
  else p.modChan ch fun h => { h with queue := h.queue ++ [literalDesc .host b] }

/-- A descriptor-window write, window by window in ascending order (10 R230, 04 R105). -/
def Partition.descWrite (p : Partition) (off : Nat) (data : List Byte) : Partition :=
  (List.range 16).foldl (fun (p : Partition) ch =>
    let lo := max off (32 * ch)
    let hi := min (off + data.length) (32 * ch + 32)
    if lo < hi then
      let p := { p with descWin := Cells.write p.descWin lo ((data.drop (lo - off)).take (hi - lo)) }
      if hi = 32 * ch + 32 then p.takeDesc ch else p
    else p) p

/-- DMA_DESC_HOST_PUSH (10 R230). -/
def execDmaDescHostPush (f : Fn) (k : Fin 64) (off : Fin 512) (data : List Byte) (s : State) :
    Host.Outcome State Fault Refusal :=
  s.actWrite data fun m => m.host fun m =>
    if m.writable f k.val then m.modPart k.val fun p => p.descWrite off.val data else m

/-- A channel is disabled (10 R239, R240): its head is dropped within the bounds, what is queued behind it writes nothing,
and the owners end. -/
def Mod.chDisable (m : Mod) (k ch : Nat) : Mod :=
  let h := (m.part k).chan ch
  let m := (m.dropHead k ch false).modPart k fun p => p.flag (offChCtrl ch) 0
  let rest := (h.queue.drop 1).length
  let m := m.modPart k fun p => p.modChan ch fun x =>
    { x with queue := [], waiting := [], done := if rest = 0 then x.done else 0
             cut := h.queue.head?.map fun d => (m.devtime, h.written / 512, d.hostPushed) }
  m.forAll (fun m d => m.ownerFails k ch d stAborted ch) (h.queue ++ h.waiting)

/-- DMA_CH_DISABLE (10 R239). -/
def execDmaChDisable (f : Fn) (k : Fin 64) (ch : Fin 16) (s : State) : Host.Outcome State Fault Refusal :=
  s.act fun m => m.host fun m =>
    if m.writable f k.val && !getB ((m.part k.val).reg (offChCtrl ch.val)) 0 then m.chDisable k.val ch.val else m

/-- DMA_CH_ENABLE (10 R239): the channel returns to service with an empty queue. -/
def execDmaChEnable (f : Fn) (k : Fin 64) (ch : Fin 16) (s : State) : Host.Outcome State Fault Refusal :=
  s.act fun m => m.host fun m =>
    if m.writable f k.val then m.modPart k.val fun p => p.setFld (offChCtrl ch.val) 0 0 0 else m

/-! ### The DMA node (10 R226) -/

/-- A side of a node with its peg and its member's stride added: the value, and whether a bit of [63:40] of a memory side
changed or a locator names a truss that the frame does not (10 R226, 11 R249, 04 R109). -/
def Mod.nodeSide (m : Mod) (u : Run) (img : List Byte) (mb : Member) (member : Nat) (b : List Byte) (isDst : Bool) :
    Nat × Bool :=
  let kind := fld b (if isDst then 1 else 0) 1
  let v := fld b (if isDst then 16 else 8) 8
  let flags := bodyFlags b
  let pegOn := bit flags (if isDst then 2 else 1)
  let peg := mb.pegs.getD (fld b (if isDst then 29 else 28) 1) 0
  let w := if pegOn then (v + peg.toNat) % 2 ^ 64 else v
  let shift := if bit flags 0 then member * fld b 24 4 else 0
  match kind with
  | 0 => ((w + shift) % 2 ^ 64, w / 2 ^ 40 != v / 2 ^ 40)
  | 1 =>
    let t := locTruss w
    let w' := w - 4 * t + 4 * u.phys img t + 65536 * (shift / rowBytes (locStore w))
    (w', !ownLocOk w || (!frameBoth img && t == 1))
  | 2 => (w + 65536 * (shift / rowBytes (winStore ((m.part (winPart w)).win (winNo w)))), false)
  | _ => ((w + shift) % 2 ^ 64, false)

/-- The descriptor of a DMA node's instance (10 R226). -/
def Mod.nodeDesc (m : Mod) (u : Run) (img : List Byte) (mb : Member) (c node member : Nat) : Desc :=
  let b := nodeBody img node
  let src := m.nodeSide u img mb member b false
  let dst := m.nodeSide u img mb member b true
  { owner := .node c node member, srcKind := fld b 0 1, dstKind := fld b 1 1, src := src.1, dst := dst.1
    len := bodyLen b, job := .sides, fault := src.2 || dst.2, raw := slice b 0 32 }

/-- Whether a node instance already has a descriptor on some channel. -/
def Partition.hasDesc (p : Partition) (c node member : Nat) : Bool :=
  p.chans.any fun e => (e.2.queue ++ e.2.waiting).any fun d => d.owner == .node c node member

/-- DMA_TRANSFER (10 R226): the node's descriptor is pushed on the channel of its priority. -/
def execDmaTransfer (k : Fin 64) (c : Fin 16) (node member : Nat) (s : State) : Host.Outcome State Fault Refusal :=
  s.act fun m =>
    match m.nodeAt k.val c.val node member with
    | none => m
    | some (u, img, mb) =>
      if nodeUnit img node != 3 || (m.part k.val).hasDesc c.val node member || m.shutStands then m
      else m.pushDesc k.val (nodePrio img node % 16) (m.nodeDesc u img mb c.val node member)

end Sys2Proof.Machine
end

