-- ==== Sys2Proof/Machine/Completions.lean ====
section
/-!
DEFINITION. Completions of the device's reads of host memory, and their timer (02 R47 to R49).
-/

namespace Sys2Proof.Machine

/-- The data of a whole read request go to the operation it serves. -/
def Mod.readDone (m : Mod) (q : ReadReq) (data : List Byte) : Mod :=
  match q.serves with
  | .firmware => m.fwData data
  | .channel k ch => m.modPart k fun p => p.modChan ch fun h => { h with hostData := some data }
  | .dropped => m

/-- A read request failed: the operation it serves ends (02 R47, R65, 10 R237). -/
def Mod.readFailed (m : Mod) (q : ReadReq) (timeout : Bool) : Mod :=
  match q.serves with
  | .firmware => if timeout then m.failLoad stTimeout 0 else m.failLoad stIntegrity 1
  | .channel k ch => if (m.part k).underReset then m else m.busError k ch (if timeout then 2 else 1)
  | .dropped => m

/-- A completion (02 R47, R48): matched by its tag to an outstanding request, whose data are held until it is complete, or
discarded as unexpected. A part with UR, CA or poison ends the request and frees its tag at once; the manual does not say
what later parts of that split completion are, and the model takes them as late ones (DESIGN CHOICE, assumption 47). -/
def Mod.completion (m : Mod) (tag : Nat) (status : CplStatus) (data : List Byte) : Mod :=
  match m.pcie.reads.find? fun q => q.tag == tag with
  | none => m.lateCompletion tag
  | some q =>
    match status with
    | .success =>
      let got := q.got ++ data
      if q.len ≤ got.length then (m.dropRead tag).readDone q (got.take q.len)
      else { m with pcie := { m.pcie with reads := m.pcie.reads.map fun x => if x.tag = tag then { x with got := got } else x } }
    | _ => (m.dropRead tag).readFailed q false

/-- PCIE_COMPLETION_RX (02 R47, R48). -/
def execPcieCompletionRx (tag : BitVec 14) (status : CplStatus) (data : List Byte) (s : State) :
    Host.Outcome State Fault Refusal :=
  s.act fun m => m.host fun m => m.completion tag.toNat status data

/-- The timer of an outstanding request expires (02 R47, R49): reported, the tag in quarantine, the operation ended. -/
def Mod.readTimeout (m : Mod) (tag : Nat) : Mod :=
  match m.pcie.reads.find? fun q => q.tag == tag with
  | none => m
  | some q =>
    let m := (m.dropRead tag).send (.aer "Completion Timeout" tag)
    { m with pcie := { m.pcie with quarantined := m.pcie.quarantined ++ [tag] } }.readFailed q true

/-- COMPLETION_TIMEOUT (02 R47). -/
def execCompletionTimeout (tag : BitVec 14) (s : State) : Host.Outcome State Fault Refusal :=
  s.act fun m => m.host fun m => m.readTimeout tag.toNat

end Sys2Proof.Machine
end

