-- ==== Sys2Proof/Machine/Seq.lean ====
section
/-!
DEFINITION. Sequence entries, page tables and pages of the key-value cache (12 R277 to R282).
-/

namespace Sys2Proof.Machine

/-- A sequence entry (12 R278). -/
structure SeqEntry where
  raw : List Byte
  deriving DecidableEq, Repr

def SeqEntry.pt (s : SeqEntry) : Nat := fld s.raw 0 8
def SeqEntry.lc (s : SeqEntry) : Nat := fld s.raw 8 4
def SeqEntry.lt (s : SeqEntry) : Nat := fld s.raw 12 4
def SeqEntry.slc (s : SeqEntry) : Nat := fld s.raw 16 4
def SeqEntry.pages (s : SeqEntry) : Nat := fld s.raw 20 4
def SeqEntry.spt (s : SeqEntry) : Nat := fld s.raw 24 8
def SeqEntry.r (s : SeqEntry) : Nat := fld s.raw 32 2
def SeqEntry.fmt (s : SeqEntry) : Nat := fld s.raw 34 1
def SeqEntry.valid (s : SeqEntry) : Bool := bit (fld s.raw 35 1) 0
def SeqEntry.shadow (s : SeqEntry) : Bool := bit (fld s.raw 35 1) 1

/-- TW of a sequence (12 R281). -/
def SeqEntry.tw (s : SeqEntry) : Nat := tokenBytes s.r s.fmt

/-- Whether a latent shape is one of R278. -/
def latentOk (r fmt : Nat) : Bool :=
  r % 128 == 0 && decide (128 ≤ r) && decide (r ≤ 2048) && decide (1 ≤ fmt) && decide (fmt ≤ 4)

/-- Check 3 of R280: `VALID`, the fields of R278, and tables in the tenant range. -/
def SeqEntry.ok (s : SeqEntry) : Bool :=
  s.valid && decide (fld s.raw 35 1 < 4) && s.pt % 64 == 0 && decide (s.lc ≤ s.lt) && decide (1 ≤ s.pages) &&
    decide (s.pages ≤ 16384) && latentOk s.r s.fmt && allZero (slice s.raw 36 28) && inExt s.pt (8 * s.pages) &&
    (if s.shadow then s.spt % 64 == 0 && inExt s.spt (8 * s.pages) else s.spt == 0)

/-- Location of entry `h` of the sequence table (12 R277, R298). -/
def Partition.seqLoc (p : Partition) (h : Nat) : Nat := p.pair offKvBase % 2 ^ 40 / 64 * 64 + 64 * h

/-- Entry `h`, with whether its granule is lost. -/
def Mod.readEntry (m : Mod) (k h : Nat) (e : Ecc) : SeqEntry × Bool × Mod :=
  let (rd, m) := m.memRead k (m.memKey k) ((m.part k).seqLoc h) 64 e false
  ({ raw := rd.bytes }, !rd.bad.isEmpty, m)

/-- The one write of an entry's granule (12 R279): `LC`, `LT`, and `SLC` where it follows. -/
def Mod.writeEntry (m : Mod) (k h lc lt : Nat) (slc : Option Nat) : Mod :=
  let key := m.memKey k
  let loc := (m.part k).seqLoc h
  let raw := (m.part k).bytesAt k key loc 64
  let raw := putFld (putFld raw 8 4 lc) 12 4 lt
  let raw := match slc with
    | some v => putFld raw 16 4 v
    | none => raw
  m.memWrite k key loc raw [] .clean

/-- What a look at a page table finds. -/
inductive PageFind where
  | page (loc : Nat)
  | absent
  | lost
  deriving DecidableEq, Repr

/-- What value `v` of a page-table entry names (12 R282): a page must be present and lie wholly in near locations, a shadow
page wholly in the external tenant range. -/
def SeqEntry.page (s : SeqEntry) (shadow : Bool) (v : Nat) : PageFind :=
  let loc := v / 4096 * 4096
  let size := 64 * s.tw
  if v % 4096 = 1 ∧ v < 2 ^ 40 ∧ (if shadow then inExt loc size else inNear loc size) = true then .page loc else .absent

/-- The pages of several indices by what is found at each: all of them, or the first failure. -/
def allPages (find : Nat → PageFind) : List Nat → List Nat × Option PageFind
  | [] => ([], none)
  | i :: is =>
    match find i with
    | .page loc => let r := allPages find is; (loc :: r.1, r.2)
    | f => ([], some f)

/-- Location of entry `idx` of a page table of a sequence. -/
def SeqEntry.tableLoc (s : SeqEntry) (shadow : Bool) (idx : Nat) : Nat := (if shadow then s.spt else s.pt) + 8 * idx

/-- The page-table entries of several indices read from memory, none where one is lost (12 R285, R291). -/
def Mod.readTable (m : Mod) (k : Nat) (s : SeqEntry) (shadow : Bool) (idxs : List Nat) (e : Ecc) : Option (Table Nat) × Mod :=
  let r := (idxs.filter fun i => decide (i < s.pages)).foldl (fun (acc : Bool × Table Nat × Ecc × Mod) i =>
    let (rd, m) := acc.2.2.2.memRead k (m.memKey k) (s.tableLoc shadow i) 8 acc.2.2.1 false
    (acc.1 && rd.bad.isEmpty, Table.set i (leNat rd.bytes) acc.2.1, .clean, m)) (true, [], e, m)
  (if r.1 then some r.2.1 else none, r.2.2.2)

/-- The pages of several indices by the entries a raise read at its start (12 R285). -/
def KvUse.find (x : KvUse) (s : SeqEntry) (shadow : Bool) (idxs : List Nat) : List Nat × Option PageFind :=
  allPages (fun i => s.page shadow (Table.get 0 i (if shadow then x.shadows else x.pages))) idxs

/-- Reads token rows `a` to `b - 1` from near pages whose list begins at the page of `a` (16 R361): their bytes, and the
64-byte chunks that arrive poisoned. -/
def Mod.tokenRows (m : Mod) (k : Nat) (en : SeqEntry) (pages : List Nat) (a b : Nat) : List Byte × List Nat × Mod :=
  (List.range (b - a)).foldl (fun (acc : List Byte × List Nat × Mod) i =>
    let t := a + i
    let loc := pages.getD (t / 64 - a / 64) 0 + t % 64 * en.tw
    let (rd, m) := acc.2.2.memRead k 0 loc en.tw .clean true
    (acc.1 ++ rd.bytes, acc.2.1 ++ rd.bad.map fun g => acc.1.length / 64 + g - loc / 64, m)) ([], [], m)

end Sys2Proof.Machine
end

