-- ==== Sys2Proof/Machine/LinkBase.lean ====
section
/-!
DEFINITION. What every link command shares: paths, the send queue and replay buffer of a link, quiet points, and the end
of transfers (15 R325, R330, R331, R338, R344, R348).
-/

namespace Sys2Proof.Machine

/-! ### Links and paths -/

/-- Port and hosting bay of link `n` (15 R325). -/
def portOf (n : Nat) : Nat := n / 12
def bayOfLink (n : Nat) : Nat := n % 12 / 3

/-- Kinds of path: 1 to 3 as in 15 R336, and that of a sister binding (16 R361). -/
def pathEndpoint : Nat := 1
def pathTransit : Nat := 2
def pathBest : Nat := 3
def pathSister : Nat := 4

/-- Whether a link is trained and has a live lane (15 R347). -/
def Mod.linkUp (m : Mod) (n : Nat) : Bool := (m.link n).partner.isSome && (m.link n).live != 0

/-- Whether a link is granted to a job (15 R334). -/
def Mod.linkGranted (m : Mod) (n : Nat) : Bool := m.jobs.any fun (e : Nat × Job) => e.2.links.contains n

/-- The S links that a binding holds (16 R358). -/
def Binding.links (b : Binding) : List Nat :=
  (List.range 12).filterMap fun ll => if bit (fld b.payload 16 2) ll then some (72 + ll) else none

/-- Whether a sister binding holds a link (16 R358). -/
def Mod.linkBound (m : Mod) (n : Nat) : Bool := m.binds.any fun (e : Nat × Binding) => e.2.links.contains n

/-- A path changed. -/
def Mod.modPath (m : Mod) (pid : Nat) (f : Path → Path) : Mod :=
  { m with paths := m.paths.map fun (e : Nat × Path) => (e.1, if e.1 = pid then f e.2 else e.2) }

/-- Whether a link of a port takes best-effort traffic (15 R327, R352; 01 R32): up, its coordinates in order, and held by no
job and no binding. -/
def Mod.linkOpen (m : Mod) (n : Nat) : Bool := m.linkUp n && (m.link n).coordOk && !m.linkGranted n && !m.linkBound n

/-- The link by which this end of a path sends its control entries: its own, or for a best-effort path the lowest link of
its port that takes best-effort traffic (15 R352). -/
def Mod.pathLink (m : Mod) (p : Path) : Option Nat :=
  if p.kind = pathBest then ((List.range 12).map (· + 12 * portOf p.link)).find? m.linkOpen else some p.link

/-! ### Frames (15 R330, R331) -/

/-- The CRC of a frame (15 R330). -/
def frameCrc (seq path type : Nat) (body : List Byte) : Nat :=
  crc32c (leBytes 2 seq ++ leBytes 2 (path + 4096 * type) ++ body)

/-- The lanes of a mask, ascending. -/
def lanesOf (b : BitVec 4) : List Nat := (List.range 4).filter fun i => bit b.toNat i

/-- Frames of the replay buffer of 256 KiB (15 R331). -/
def replayFrames : Nat := 1024

/-- Uncorrectable codewords of a link (15 R354): how many have gone by when a frame fails or a lane is lost is open. -/
def Mod.fecCount (m : Mod) (n : Nat) : Mod := m.chipCountSome (offLinkErr n) 15 0

/-- Whether a link can send a payload frame now (15 R327, R331, R348). -/
def Link.canSend (l : Link) : Bool :=
  l.partner.isSome && l.coordOk && l.live != 0 && !l.widening && decide (l.replay.length < replayFrames)

/-- The MSG entry that goes with a frame in transit: one that came ahead of the frame; else the outbound `SEQ` is kept for
one that follows it (15 R331, R338). -/
def Path.passFrame (p : Path) (key seq : Nat) : Option (Nat × Nat) × Path :=
  match Table.find key p.fwdMsgs with
  | some x => (some x, { p with fwdMsgs := Table.erase key p.fwdMsgs })
  | none => (none, { p with passed := Table.set key seq p.passed })

/-- The MSG entry of a frame that is placed next on a link. -/
def Mod.frameMsg (m : Mod) (n : Nat) (f : OutFrame) : Option (Nat × Nat) × Mod :=
  match f.inbound, Table.find f.path m.paths with
  | some (l, seq), some p =>
    let x := p.passFrame (65536 * l + seq) (m.link n).txSeq.toNat
    (x.1, m.modPath f.path fun _ => x.2)
  | _, _ => (f.msg, m)

/-- A payload frame leaves (15 R331, R339): with the next `SEQ`, on the live lane of its turn, ascending by `SEQ`; its MSG
entry goes with it and its tag behind it, and it is kept for replay. -/
def Mod.placeFrame (m : Mod) (n : Nat) (f : OutFrame) : Mod :=
  let (msg, m) := m.frameMsg n f
  let seq := (m.link n).txSeq
  let type := if f.poison then 2 else 1
  let g : LinkFrame :=
    { seq := seq, path := BitVec.ofNat 12 f.path, type := BitVec.ofNat 4 type, body := f.body
      crc := BitVec.ofNat 32 (frameCrc seq.toNat f.path type f.body) }
  let ls := lanesOf (m.link n).live
  let lane := ls.getD (seq.toNat % max 1 ls.length) 0
  let m := match msg with
    | some (tag, len) => m.send (.linkMsg n f.path tag len seq.toNat)
    | none => m
  let m := (m.modLink n fun l => { l with replay := l.replay ++ [(g, lane)], txSeq := l.txSeq + 1 }).send (.linkFrame n lane g)
  match f.gtag with
  | some (i, tag) => m.send (.linkTag n f.path i tag)
  | none => m

/-- The first frame of a list that `f` names, and the list without it. -/
def takeFirst (f : OutFrame → Bool) : List OutFrame → Option (OutFrame × List OutFrame)
  | [] => none
  | x :: xs => if f x then some (x, xs) else (takeFirst f xs).map fun y => (y.1, x :: y.2)

/-- The lowest number of a list above `last`, or the lowest of all. -/
def nextTurn (last : Nat) (xs : List Nat) : Option Nat :=
  match (xs.filter fun x => decide (last < x)).min? with
  | some x => some x
  | none => xs.min?

/-- Sends the waiting frames of a link while it can (15 R331, R334): the paths take turns, one frame each, ascending. -/
def Mod.linkPump (m : Mod) (n : Nat) : Mod :=
  m.forAll (fun m _ =>
    let l := m.link n
    match if l.canSend then nextTurn l.lastPath (l.sendQ.map (·.path)) else none with
    | none => m
    | some pid =>
      match takeFirst (fun f => f.path == pid) l.sendQ with
      | none => m
      | some (f, rest) => (m.modLink n fun l => { l with sendQ := rest, lastPath := pid }).placeFrame n f) (m.link n).sendQ

/-! ### Best-effort traffic (15 R352, 01 R30, R31) -/

/-- Whether a link takes a best-effort frame now. -/
def Mod.linkFree (m : Mod) (n : Nat) : Bool := m.linkOpen n && (m.link n).canSend && (m.link n).sendQ.isEmpty

/-- The next link of a list after `last` that `ok` names, turning. -/
def nextLink (ok : Nat → Bool) (last : Nat) (ns : List Nat) : Option Nat :=
  match (ns.filter fun n => decide (last < n)).find? ok with
  | some n => some n
  | none => ns.find? ok

/-- The partition whose frame the arbiter of a port sends next: the holder while its transfer lasts, else the lowest that
waits (01 R30, R31). -/
def Port.winner (q : Port) : Option Nat :=
  match q.holder with
  | some k => if q.waiting.any fun f => f.part == k then some k else (q.waiting.map (·.part)).min?
  | none => (q.waiting.map (·.part)).min?

/-- The best-effort frames of a port leave while a link takes them (15 R352): on its links in turn. -/
def Mod.portPump (m : Mod) (p : Nat) : Mod :=
  m.forAll (fun m _ =>
    let q := m.port p
    match q.winner, nextLink m.linkFree (12 * p + q.lastLink) ((List.range 12).map (· + 12 * p)) with
    | some k, some n =>
      (match takeFirst (fun f => f.part == k) q.waiting with
       | some (f, rest) =>
         (m.modPort p fun _ => { waiting := rest, holder := if f.last then none else some k, lastLink := n % 12 }).placeFrame n f
       | none => m)
    | _, _ => m) (m.port p).waiting

/-! ### Sister traffic (16 R361, R363, R364) -/

/-- The binding that holds a link. -/
def Mod.bindOn (m : Mod) (n : Nat) : Option Nat :=
  (m.binds.find? fun (e : Nat × Binding) => e.2.links.contains n).map (·.1)

/-- Whether a held link takes a frame of its binding now. -/
def Mod.heldFree (m : Mod) (n : Nat) : Bool := (m.link n).canSend && (m.link n).sendQ.isEmpty

/-- The partition whose frame a held link of bay `b` takes next (16 R361, R363): the partitions of the bay take turns, one
frame each, ascending; a message of the binding itself goes once nothing waits before it (R367). -/
def Binding.nextPart (x : Binding) (b : Nat) : Option Nat :=
  match x.queue with
  | [] => none
  | f :: _ =>
    if f.part = 64 then some 64
    else nextTurn x.lastPart ((x.queue.takeWhile fun f => f.part != 64).filterMap fun f =>
      if f.part / 16 = b then some f.part else none)

/-- The next frame of a binding for the held links of bay `b`, and the link it takes. -/
def Mod.bindStep (m : Mod) (i b : Nat) : Mod :=
  match Table.find i m.binds with
  | none => m
  | some x =>
    match x.nextPart b, nextLink m.heldFree x.lastLink (x.links.filter fun n => bayOfLink n == b) with
    | some k, some n =>
      (match takeFirst (fun f => f.part == k) x.queue with
       | some (f, rest) =>
         ({ m with binds := Table.set i { x with queue := rest, lastPart := k % 64, lastLink := n } m.binds }).placeFrame n f
       | none => m)
    | _, _ => m

/-- The waiting frames of a binding leave while its held links take them. -/
def Mod.bindPump (m : Mod) (i : Nat) : Mod :=
  match Table.find i m.binds with
  | none => m
  | some x => m.forAll (fun m _ => m.forAll (fun m b => m.bindStep i b) [0, 1, 2, 3]) x.queue

/-- Everything that waits for a link and can now leave on it does. -/
def Mod.pump (m : Mod) (n : Nat) : Mod :=
  let m := (m.linkPump n).portPump (portOf n)
  match m.bindOn n with
  | some i => m.bindPump i
  | none => m

/-- Payload frames of a job's path enter the send queue of a link. -/
def Mod.queueFrames (m : Mod) (n : Nat) (fs : List OutFrame) : Mod :=
  (m.modLink n fun l => { l with sendQ := l.sendQ ++ fs }).pump n

/-- Payload frames of a path enter the queue they wait in: that of the path's link, or of its port (15 R334, R352). -/
def Mod.pathFrames (m : Mod) (p : Path) (fs : List OutFrame) : Mod :=
  if p.kind = pathBest then
    (m.modPort (portOf p.link) fun q => { q with waiting := q.waiting ++ fs }).portPump (portOf p.link)
  else m.queueFrames p.link fs

/-- Whether no frame that `f` names waits on a link or a port any more. -/
def Mod.noFrame (m : Mod) (f : OutFrame → Bool) : Bool :=
  (m.links.all fun (e : Nat × Link) => e.2.sendQ.all fun x => !f x) &&
    m.ports.all fun (e : Nat × Port) => e.2.waiting.all fun x => !f x

/-- The waiting frames that `f` names are dropped. -/
def Mod.dropFrames (m : Mod) (f : OutFrame → Bool) : Mod :=
  { m with links := m.links.map fun (e : Nat × Link) => (e.1, { e.2 with sendQ := e.2.sendQ.filter fun x => !f x })
           ports := m.ports.map fun (e : Nat × Port) => (e.1, { e.2 with waiting := e.2.waiting.filter fun x => !f x }) }

/-- Sends frames of the replay buffer again, ahead of new ones (15 R331, R346): those that `f` names, on the lanes that
are live now; in a widening, once it ends (R348). -/
def Mod.resend (m : Mod) (n : Nat) (f : LinkFrame × Nat → Bool) : Mod :=
  if (m.link n).live = 0 then m
  else if (m.link n).widening then
    m.modLink n fun l =>
      { l with again := l.again ++ (l.replay.filter fun e => f e && !l.again.contains e.1.seq.toNat).map fun e => e.1.seq.toNat }
  else
    m.forAll (fun m (e : LinkFrame × Nat) =>
      if f e then
        let ls := lanesOf (m.link n).live
        let lane := ls.getD (e.1.seq.toNat % max 1 ls.length) 0
        ((m.modLink n fun l => { l with replay := l.replay.map fun x => if x.1.seq = e.1.seq then (x.1, lane) else x }).chipCount
          (offLinkErr n) 31 16).send (.linkFrame n lane e.1)
      else m) (m.link n).replay

/-- The hold of a widening is over (15 R348): what was to be replayed goes ahead of new frames. -/
def Mod.resumeLink (m : Mod) (n : Nat) : Mod :=
  let again := (m.link n).again
  ((m.modLink n fun l => { l with again := [] }).resend n fun e => again.contains e.1.seq.toNat).pump n

/-! ### The maximum hold (01 R30, R33) -/

/-- A cut-off is recorded (01 R33). -/
def Mod.arbRecord (m : Mod) (a : Arbiter) : Mod :=
  match arbBit a with
  | some b => (m.chipFlag offArbHold b).chipCount offArbHoldCnt 31 0
  | none => m

/-- ARB_HOLD_CUTOFF (01 R30, rule 4): the holder of an arbiter still transfers as its maximum hold runs out; the grant is
withdrawn, the rest of the transfer waits as a new request, and the cut-off is recorded. The transfers of the PCIe
ingress end with their commands, and its bit alone changes (assumption 38). -/
def execArbHoldCutoff (a : Arbiter) (s : State) : Host.Outcome State Fault Refusal :=
  s.act fun m => m.alive fun m =>
    match a with
    | .pcieIngress => m.arbRecord a
    | .fabric src dst =>
      let path := 4 * src.val + dst.val
      (match Table.find path m.holders with
       | some h =>
         if m.asksPath path h.1 h.2 then ({ m with holders := Table.erase path m.holders }).arbRecord a else m
       | none => m)
    | .port p =>
      (match (m.port p.val).holder with
       | some k =>
         if (m.port p.val).waiting.any fun f => f.part == k then
           ((m.modPort p.val fun q => { q with holder := none }).arbRecord a).portPump p.val
         else m
       | none => m)

/-! ### Quiet points (03 R91, 15 R348) -/

/-- Whether some reservation is open on the module. -/
def Mod.anyResv (m : Mod) : Bool := m.parts.any fun (e : Nat × Partition) => e.2.resvs.any fun r => !r.2.closed

/-- The reservations whose `JOB` holds a link, closed ones not yet released included, with their partitions. -/
def Mod.resvsOnLink (m : Mod) (n : Nat) : List (Nat × Reservation) :=
  m.parts.flatMap fun (e : Nat × Partition) => (e.2.resvs.filter fun r => m.resvHolds n r.2).map fun r => (e.1, r.2)

/-- Whether this module is quiet on a link: at a quiet point of 03 R91 where a reservation uses the link, else with its
send queue and replay buffer empty (15 R348). Before its first accepted landing a reservation may be landed on at once;
a closed one accepts no landing (03 R77). -/
def Mod.linkQuiet (m : Mod) (n : Nat) : Bool :=
  let rs := m.resvsOnLink n
  if rs.isEmpty then
    (m.link n).sendQ.isEmpty && (m.link n).replay.isEmpty && (match (m.bindOn n).bind fun i => Table.find i m.binds with
      | some x => x.queue.isEmpty
      | none => true)
  else rs.all fun e =>
    (((m.part e.1).ctx e.2.ctxNo).unfinished e.2.queueNo).isEmpty &&
      (e.2.closed || (match e.2.prev with
       | none => false
       | some t => decide (m.devtime.toNat + 4000 ≤ t.toNat + e.2.period)))

/-- Sends a LANE entry (15 R331). -/
def Mod.sendLane (m : Mod) (n : Nat) (widen ack quiet : Bool) : Mod :=
  m.send (.linkLane n (m.link n).live (m.link n).standby widen ack quiet)

/-! ### Link nodes (15 R340) -/

def linkOp (b : List Byte) : Nat := fld b 0 1
def linkSends (b : List Byte) : Bool := linkOp b == 1 || linkOp b == 3
def linkReceives (b : List Byte) : Bool := linkOp b == 2 || linkOp b == 3
def linkLen (b : List Byte) : Nat := fld b 4 4
def linkPath (b : List Byte) : Nat := fld b 32 2 % 4096
def linkTag (b : List Byte) (member : Nat) : Nat := (fld b 34 2 + member) % 65536

/-- The instances of link nodes of a run that are under way on the paths `sel` names: started and not ended. -/
def Run.linkNodes (u : Run) (img : List Byte) (sel : Nat → Bool) : List (Nat × Nat) :=
  u.nodes.filterMap fun (e : Nat × NodePhase) =>
    let node := e.1 / 64
    if e.2 != .done && nodeUnit img node == 4 && sel (linkPath (nodeBody img node)) then some (node, e.1 % 64) else none

/-- The instances whose receives are armed on the paths `sel` names. -/
def Mod.armedNodes (m : Mod) (k c q : Nat) (sel : Nat → Bool) : List (Nat × Nat) :=
  m.paths.flatMap fun (e : Nat × Path) =>
    if sel e.1 && e.2.owner == k then
      ((e.2.arms ++ e.2.msgs.filterMap (·.arm)).filter fun a => a.c == c && a.q == q).map fun a => (a.node, a.member)
    else []

/-- Ends every transfer on the paths `sel` names, and with it its raise (15 R338, R344). -/
def Mod.endTransfers (m : Mod) (sel : Nat → Bool) (status : Nat) (detail : Nat → Nat) : Mod :=
  m.forAll (fun m (p : Nat × Partition) =>
    m.forAll (fun m (x : Nat × Context) =>
      m.forAll (fun m (u : Run) =>
        let gone := u.linkNodes (x.2.image u) sel ++ m.armedNodes p.1 x.1 u.q sel
        match gone with
        | [] => m
        | (node, _) :: _ => m.within p.1 x.1 u.q fun m =>
          let m := m.markRun p.1 x.1 status (detail node)
          let m := m.modRun p.1 x.1 fun u =>
            gone.foldl (fun (u : Run) i => if u.phase i.1 i.2 = some .running then u.setNode i.1 i.2 .worked else u) u
          { m with paths := m.paths.map fun (e : Nat × Path) =>
              (e.1, if sel e.1 && e.2.owner == p.1 then e.2.dropRun x.1 u.q else e.2) }) x.2.started) p.2.ctxs) m.parts

/-- A path closes, its transfers ending as under a RELEASE (15 R338, R339); what of it waits to be sent is dropped (DESIGN
CHOICE, assumption 32). -/
def Mod.closePath (m : Mod) (pid : Nat) : Mod :=
  ((m.endTransfers (· == pid) stAborted fun node => 0x5000 + node).modPath pid fun p => { p with closed := true }).dropFrames
    fun f => f.path == pid

/-! ### Registers (15 R353) -/

/-- `LNK_LINK_STATUS` of link `n` (15 R353). -/
def Mod.linkStatus (m : Mod) (n : Nat) : Word :=
  let l := m.link n
  let v := setF (m.chipReg (offLinkStatus n)) 23 21 (lanesUp l.live)
  let v := setF v 27 24 l.live.toNat
  let v := setB v 28 l.coordOk
  let v := setB v 29 (m.linkGranted n)
  let v := setB v 30 (l.standby != 0)
  setB v 31 l.miscable

/-! ### Watching link nodes (15 R341, 18 R399, R419) -/

/-- Whether a running link node still waits for its message. -/
def Run.awaits (u : Run) (b : List Byte) (node member : Nat) : Bool :=
  linkReceives b && !u.received.contains (node * 64 + member)

/-- Whether a running link node still waits to send for want of credit (15 R341). -/
def Mod.creditless (m : Mod) (u : Run) (b : List Byte) (node member : Nat) : Bool :=
  linkSends b && !u.sent.contains (node * 64 + member) &&
    (match Table.find (linkPath b) m.paths with
     | some p => decide (p.credit < linkLen b)
     | none => false)

/-- Whether the condition holds that the link watchdog counts for one half of an instance: the send half for want of credit,
the receive half while its message is awaited; for a guaranteed-class raise only once its promise is void (18 R400). -/
def Mod.linkStands (m : Mod) (u : Run) (img : List Byte) (i half : Nat) : Bool :=
  let node := i / 64
  let b := nodeBody img node
  u.phase node (i % 64) == some .running && nodeUnit img node == 4 &&
    (match u.members[i % 64]? with
     | some mb => !u.guar || mb.raise.voided.isSome
     | none => false) &&
    (if half = 0 then m.creditless u b node (i % 64) else u.awaits b node (i % 64))

/-- The watch of a run brought up to date: a condition that has ended is forgotten, and one that begins takes the limit of
now (18 R419). -/
def Mod.watchRun (m : Mod) (k : Nat) (x : Context) (u : Run) : Run :=
  let img := x.image u
  let now := getF ((m.part k).reg offWdogCfg) 15 8
  let is := u.nodes.flatMap fun e => [2 * e.1, 2 * e.1 + 1]
  { u with watch := is.foldl (fun t i =>
      if m.linkStands u img (i / 2) (i % 2) then Table.set i ((Table.find i u.watch).getD now) t else t) [] }

/-- The watch of the running raises of partition `k` brought up to date. -/
def Mod.watchLinks (m : Mod) (k : Nat) : Mod :=
  m.modPart k fun p => { p with ctxs := p.ctxs.map fun e => (e.1, { e.2 with run := e.2.run.map fun u => m.watchRun k e.2 u }) }

/-- A receive half whose frames arrive: what the watchdog counts begins again (18 R399). -/
def Mod.rewatch (m : Mod) (k c node member : Nat) : Mod :=
  (m.modRun k c fun u => { u with watch := Table.erase (2 * (node * 64 + member) + 1) u.watch }).watchLinks k

end Sys2Proof.Machine
end

