-- ==== Sys2Proof/Machine/Jobs.lean ====
section
/-!
DEFINITION. Jobs and paths: LINK_PATH_SET with GRANT and RELEASE (15 R334 to R338).
-/

namespace Sys2Proof.Machine

/-- The partitions of a 64-bit mask. -/
def partsOf (mask : Nat) : List Nat := allParts.filter fun k => bit mask k

/-- Whether the partitions of a mask exist and belong to one tenant. -/
def Mod.partsOk (m : Mod) (mask : Nat) : Bool :=
  let ks := partsOf mask
  ks.all (fun k => m.exists? k) &&
    (match ks with
     | [] => true
     | k :: _ => ks.all fun j => (m.part j).tenant == (m.part k).tenant)

/-- The tenant of the partitions of a mask. -/
def Mod.partsTenant (m : Mod) (mask : Nat) : Option (BitVec 16) :=
  match partsOf mask with
  | [] => none
  | k :: _ => some (m.part k).tenant

/-- Whether a slot holds a link GCM key of a tenant (17 R376). -/
def Mod.linkKeySlot (m : Mod) (slot : Nat) (t : BitVec 16) : Bool :=
  decide (slot < 256) && (m.keySlot slot).state == .loaded && (m.keySlot slot).kind == 2 && (m.keySlot slot).tenant == t

/-- Entry `i` of a LINK_PATH_SET payload (15 R336). -/
def pathEntry (pl : List Byte) (i : Nat) : List Byte := slice pl (32 + 16 * i) 16

def entKind (e : List Byte) : Nat := fld e 0 1
def entLink (e : List Byte) : Nat := fld e 1 1
def entOut (e : List Byte) : Nat := fld e 2 1
def entPath (e : List Byte) : Nat := fld e 4 2
def entOwner (e : List Byte) : Nat := fld e 7 1

/-- The entries of a payload. -/
def pathEntries (pl : List Byte) : List (List Byte) := (List.range (fld pl 18 2)).map (pathEntry pl)

/-- The fields of an entry that break 15 R336, in ascending offset. -/
def entryChecks (o : Nat) (e : List Byte) : List (Bool × Nat) :=
  let kind := entKind e
  [(!([1, 2, 3].contains kind), o), (decide (96 ≤ entLink e) || (kind == 3 && entLink e % 12 != 0), o + 1),
   (if kind = 2 then decide (96 ≤ entOut e) else entOut e != 0, o + 2),
   (!(decide (1 ≤ fld e 3 1) && decide (fld e 3 1 ≤ 4)), o + 3), (decide (4096 ≤ entPath e), o + 4),
   (!(decide (1 ≤ fld e 6 1) && decide (fld e 6 1 ≤ 24)) || (kind == 3 && fld e 6 1 != 1), o + 6),
   (if kind = 2 then entOwner e != 0 else decide (64 ≤ entOwner e), o + 7), (decide (100 < fld e 8 2), o + 8),
   (decide (4096 ≤ fld e 10 2), o + 10), (fld e 12 4 != 0, o + 12)]

/-- Check 1 of 15 R337. -/
def pathSetFields (pl : List Byte) : Option (Nat × Nat) :=
  let op := fld pl 0 1
  let ks := fld pl 16 2
  let n := fld pl 18 2
  fieldBad ([(op != 1 && op != 2, 0), (fld pl 1 3 != 0, 1), (fld pl 4 4 == 0, 4),
      (decide (256 ≤ ks) && ks != 0xFFFF, 16), (decide (253 < n) || (op == 2 && n != 0), 18), (!allZero (slice pl 20 12), 20)] ++
    (List.range (min n 253)).flatMap fun i => entryChecks (32 + 16 * i) (pathEntry pl i))

/-- The links that an entry's grant takes. -/
def entLinks (e : List Byte) : List Nat :=
  if entKind e = 1 then [entLink e] else if entKind e = 2 then [entLink e, entOut e] else []

/-- Whether a list of numbers holds one twice. -/
def hasTwice : List Nat → Bool
  | [] => false
  | x :: xs => xs.contains x || hasTwice xs

/-- Endpoint paths that end on the hub of a bay (15 R337, check 9). -/
def Mod.hubPaths (m : Mod) (b : Nat) : Nat :=
  (m.paths.filter fun (e : Nat × Path) => (e.2.kind == 1 || e.2.kind == 3) && bayOfLink e.2.link == b).length

/-- Checks 2 to 9 of 15 R337. -/
def Mod.pathSetBad (m : Mod) (pl : List Byte) : Option (Nat × Nat) :=
  let op := fld pl 0 1
  let job := fld pl 4 4
  let mask := fld pl 8 8
  let ks := fld pl 16 2
  let es := pathEntries pl
  let old := Table.find job m.jobs
  let tenant := match m.partsTenant mask with
    | some t => some t
    | none => (match old with
      | some j => if j.parts = 0 then none else some j.tenant
      | none => none)
  let ends := es.any (fun e => entKind e != 2) ||
    m.paths.any fun (e : Nat × Path) => e.2.job == job && (e.2.kind == pathEndpoint || e.2.kind == pathBest)
  let selfJoin := es.findIdx? fun e => entKind e == 2 && (entLink e == entOut e || bayOfLink (entLink e) != bayOfLink (entOut e))
  firstBad [
    (!m.partsOk mask || es.any (fun e => entKind e != 2 && !bit mask (entOwner e)), stNotPermitted, 1),
    (es.any fun e => (entLinks e).any fun n => !m.linkUp n || decide (lanesUp (m.link n).live < 3) || !(m.link n).coordOk,
      stNotPermitted, 2),
    (es.any (fun e => (entLinks e).any fun n => m.linkBound n ||
        m.jobs.any fun (j : Nat × Job) => j.1 != job && j.2.links.contains n) ||
      (match old, m.partsTenant mask with
       | some j, some t => j.parts != 0 && j.tenant != t
       | _, _ => false), stNotPermitted, 3),
    (es.any (fun e => (Table.find (entPath e) m.paths).isSome) || hasTwice (es.map entPath), stNotPermitted, 4),
    (op == 2 && (allParts.any fun k => (m.part k).resvs.any fun r => !r.2.closed && r.2.job == job), stNotPermitted, 5),
    ((if ks = 0xFFFF then ends else (match tenant with
        | some t => !m.linkKeySlot ks t
        | none => true)), stNotPermitted, 6),
    (selfJoin.isSome, stBadField, 0x8000 + selfJoin.getD 0),
    (([0, 1, 2, 3].any fun b =>
        decide (64 < m.hubPaths b + (es.filter fun e => entKind e != 2 && bayOfLink (entLink e) == b).length)) ||
      (op == 1 && old.isNone && decide (1024 ≤ m.jobs.length)), stNoResource, 0)]

/-- The path of an entry, closed until its GRANT completes; the sender's credit is the far hold buffer of 64 KiB
(15 R341). -/
def entryPath (job : Nat) (e : List Byte) : Path :=
  { job := job, kind := entKind e, link := entLink e, outLink := entOut e, cls := fld e 3 1, hops := fld e 6 1
    owner := entOwner e, fibre := fld e 8 2, peer := fld e 10 2, txCount := 0, rxCount := 0, credit := 65536, arms := []
    msgs := [], early := [], tags := [], closed := true, fwdMsgs := [], passed := [] }

/-- GRANT (15 R335, R338): the links are granted and the paths stand at once; the response waits for
LINK_GRANT_COMPLETE. -/
def Mod.linkGrant (m : Mod) (r : Request) : Mod :=
  m.judge r (orBad (pathSetFields r.payload) (m.pathSetBad r.payload)) fun m =>
    let pl := r.payload
    let job := fld pl 4 4
    let mask := fld pl 8 8
    let es := pathEntries pl
    let old : Job := Table.get { parts := 0, tenant := 0, keySlot := 0xFFFF, links := [], grant := none } job m.jobs
    let j : Job :=
      { parts := old.parts ||| BitVec.ofNat 64 mask
        tenant := match m.partsTenant mask with
          | some t => t
          | none => old.tenant
        keySlot := if fld pl 16 2 = 0xFFFF then old.keySlot else fld pl 16 2
        links := dedup (old.links ++ es.flatMap entLinks)
        grant := some r }
    { m with jobs := Table.set job j m.jobs
             paths := es.foldl (fun t e => Table.set (entPath e) (entryPath job e) t) m.paths }.hold r

/-- LINK_GRANT (15 R337, R338); a request whose `OP` names no operation is refused here. -/
def execLinkGrant (f : Fn) (s : State) : Host.Outcome State Fault Refusal :=
  s.act fun m => m.mbxRow f 0x50 (fun r => fld r.payload 0 1 != 2) Mod.linkGrant

/-- Whether a frame is of a best-effort path (15 R334). -/
def Mod.bestFrame (m : Mod) (f : OutFrame) : Bool :=
  match Table.find f.path m.paths with
  | some p => p.kind == pathBest
  | none => false

/-- LINK_GRANT_COMPLETE (15 R338): once no best-effort frame waits on the job's links, the paths that the GRANT brought open,
and it answers. -/
def Mod.grantComplete (m : Mod) (job : Nat) : Mod :=
  match Table.find job m.jobs with
  | none => m
  | some j =>
    match j.grant with
    | none => m
    | some r =>
      if j.links.all fun n => (m.link n).sendQ.all fun f => !m.bestFrame f then
        let new := (pathEntries r.payload).map entPath
        ({ m with jobs := Table.set job { j with grant := none } m.jobs
                  paths := m.paths.map fun (e : Nat × Path) =>
                    (e.1, if e.2.job = job ∧ new.contains e.1 = true then { e.2 with closed := false } else e.2) }).finish r
          stOk 0
      else m

def execLinkGrantComplete (job : BitVec 32) (s : State) : Host.Outcome State Fault Refusal :=
  s.act fun m => m.molique fun m => m.grantComplete job.toNat

/-- RELEASE (15 R338): the job's transfers end, its paths close and its links are free; a pending GRANT of it answers. -/
def Mod.linkRelease (m : Mod) (r : Request) : Mod :=
  m.judge r (orBad (pathSetFields r.payload) (m.pathSetBad r.payload)) fun m =>
    let job := fld r.payload 4 4
    let own (pid : Nat) : Bool := match Table.find pid m.paths with
      | some p => p.job == job
      | none => false
    let m' := m.endTransfers own stAborted fun node => 0x5000 + node
    let pending := (Table.find job m.jobs).bind (·.grant)
    let m' := { m'.dropFrames (fun f => own f.path) with
      jobs := Table.erase job m'.jobs, paths := m'.paths.filter fun (e : Nat × Path) => e.2.job != job }
    let m' := m'.forAll (fun m p => m.portPump p) (List.range 8)
    let m' := match pending with
      | some g => m'.finish g stOk 0
      | none => m'
    m'.respond r stOk 0

/-- LINK_RELEASE (15 R338). -/
def execLinkRelease (f : Fn) (s : State) : Host.Outcome State Fault Refusal :=
  s.act fun m => m.mbxRow f 0x50 (fun r => fld r.payload 0 1 == 2) Mod.linkRelease

end Sys2Proof.Machine
end

