-- ==== Sys2Proof/Machine/Transfers.lean ====
section
/-!
DEFINITION. Link transfers: sealing, sending against credit, matching of messages to receives, and opening of segments
(15 R339 to R344; 17 R382, R384).
-/

namespace Sys2Proof.Machine

/-! ### Sealing (15 R339) -/

/-- The identity hash at the far end of a path: that of the link's partner over one hop, else that of the module at
`PEER` (15 R327, R339). -/
def Mod.farHash (m : Mod) (p : Path) : Nat :=
  if p.hops = 1 then
    match (m.pathLink p).bind fun n => (m.link n).partner with
    | some q => q.hash
    | none => Config.peerHash p.peer
  else Config.peerHash p.peer

/-- The 12 bytes of the IV of a segment (15 R339), most significant byte first. -/
def gcmIv (job pid : Nat) (dir : Bool) (counter : Nat) : List Byte :=
  (leBytes 12 (job * 2 ^ 64 + pid * 2 ^ 48 + b2n dir * 2 ^ 43 + counter % 2 ^ 43)).reverse

/-- The direction bit of what this module sends on a path: 0 where its own hash is the lower. -/
def Mod.sendDir (m : Mod) (p : Path) : Bool := decide (m.farHash p < Config.serialHash)

/-- The key slot of a job. -/
def Mod.jobSlot (m : Mod) (job : Nat) : Nat :=
  match Table.find job m.jobs with
  | some j => j.keySlot
  | none => 0xFFFF

/-- Slot and version that a new transfer of a job latches, none where its key is free or erasing (17 R382, R384). -/
def Mod.jobKey (m : Mod) (job : Nat) : Option (Nat × Nat) :=
  match Table.find job m.jobs with
  | none => none
  | some j => if m.linkKeySlot j.keySlot j.tenant then (m.keySlot j.keySlot).current.map fun v => (j.keySlot, v.ver) else none

/-- Bytes sealed or opened under a key and an IV (15 R339). -/
def gcmApply (key iv bs : List Byte) : List Byte := bs.mapIdx fun i b => b ^^^ Config.gcmStream key iv i

/-- The material of a latched version. -/
def Mod.keyBytes (m : Mod) (slot ver : Nat) : List Byte :=
  match (m.keySlot slot).version ver with
  | some v => v.material
  | none => []

/-! ### Sides of a link node (15 R340) -/

/-- The sides of a link body in the layout of a DMA body (10 R226, R227). -/
def linkSides (b : List Byte) : List Byte :=
  slice b 24 2 ++ slice b 1 1 ++ [0] ++ slice b 4 20 ++ slice b 28 4 ++ slice b 26 2 ++ zeros 2

/-- The descriptor that stands for a link node's sides. -/
def Mod.linkDesc (m : Mod) (u : Run) (img : List Byte) (mb : Member) (c node member : Nat) (isDst : Bool) : Desc :=
  let b := linkSides (nodeBody img node)
  let v := m.nodeSide u img mb member b isDst
  { owner := .node c node member, srcKind := fld b 0 1, dstKind := fld b 1 1, src := v.1, dst := v.1, len := bodyLen b
    job := .sides, fault := v.2, raw := slice b 0 32 }

/-- A channel number no queue has: a link node holds no descriptor, and latches the memory key by itself. -/
def noChan : Nat := 16

/-- A side of a link node met a bus error of a cause (10 R228, R238): the engine stops and the raise ends. -/
def Mod.linkBusError (m : Mod) (k c node member ch cause : Nat) : Mod :=
  let m := m.engineStops k ch cause false 0
  (m.markRun k c (causeStatus cause) ch).worked k c node member

/-- Whether the engine carries units of a run's link nodes on a channel (10 R224, R225, R238). -/
def Mod.linkIssues (m : Mod) (k : Nat) (u : Run) : Bool :=
  let p := m.part k
  m.running && p.created && !p.underReset && !m.shutStands && !getB (p.reg offDmaEng) 16 && (!p.guarRuns || u.guar)

/-! ### Halves -/

/-- Whether the halves of a link node that have ended are all it has (15 R342). -/
def Run.halvesDone (u : Run) (b : List Byte) (node member : Nat) : Bool :=
  (!linkSends b || u.sent.contains (node * 64 + member)) && (!linkReceives b || u.received.contains (node * 64 + member))

/-- A link node both of whose halves have ended has done its work. -/
def Mod.linkHalves (m : Mod) (k c node member : Nat) : Mod :=
  match m.nodeAt k c node member with
  | none => m
  | some (u, img, _) => if u.halvesDone (nodeBody img node) node member then m.worked k c node member else m

/-! ### Sending (15 R341, R342) -/

/-- Segments of a message (15 R339). -/
def segments (len : Nat) : Nat := ceilDiv len 4096

/-- Bytes of segment `i`. -/
def segLen (len i : Nat) : Nat := min 4096 (len - 4096 * i)

/-- What the reading of a message's source gathers: its frames with their poison, the DETAIL of poison, and whether a
scratchpad word failed. -/
structure Sealed where
  frames : List OutFrame
  poison : Option Nat
  err : Bool
  deriving DecidableEq, Repr

/-- The frames of a sealed segment (15 R330, R339): `n` bytes with the 64-byte chunks that are poisoned, and the tag behind
the last one. -/
def segmentFrames (pid part : Nat) (send : Option (Nat × Nat)) (key iv bs : List Byte) (bad : List Nat) (seg : Nat) :
    List OutFrame :=
  let body := gcmApply key iv bs
  let n := bs.length / 256
  (List.range n).map fun f =>
    { path := pid, part := part, body := slice body (256 * f) 256, poison := bad.any fun c => c / 4 == f, msg := none
      gtag := if f + 1 = n then some (seg, Config.gcmTag key iv body) else none, last := false, send := send, inbound := none }

/-- The frames of a message: its MSG entry goes with the first, and the last ends it. -/
def messageFrames (tag len : Nat) (fs : List OutFrame) : List OutFrame :=
  fs.mapIdx fun i f => { f with msg := if i = 0 then some (tag, len) else none, last := i + 1 == fs.length }

/-- Reads and seals the segments of a message (15 R339, R344); `e` is what the reads of the first one find. -/
def Mod.sealMessage (m : Mod) (k : Nat) (d : Desc) (pid first : Nat) (send : Nat × Nat) (key : List Byte)
    (iv : Nat → List Byte) (e : UnitEcc) : Sealed × Mod :=
  let mk := m.memKey k
  (List.range (segments d.len)).foldl (fun (acc : Sealed × Mod) i =>
    if acc.1.err then acc
    else
      let n := segLen d.len i
      let (pc, m) := acc.2.readLocal k mk d.srcKind d.src (4096 * i) n (if i = 0 then e else UnitEcc.clean)
      if pc.err then ({ acc.1 with err := true }, m)
      else
        ({ frames := acc.1.frames ++ segmentFrames pid k (some send) key (iv i) pc.bytes pc.bad (first + i)
           poison := if acc.1.poison.isNone && !pc.bad.isEmpty then some pc.detail else acc.1.poison, err := false }, m))
    ({ frames := [], poison := none, err := false }, m)

/-- Whether every segment of a link node's side may be used (10 R228). -/
def Mod.linkSideOk (m : Mod) (k : Nat) (d : Desc) (isDst : Bool) : Bool :=
  !d.fault && (List.range (segments d.len)).all fun i => m.sideOk k noChan d isDst (4096 * i) (segLen d.len i)

/-- The key version a send holds, latched at its start (17 R382). -/
def Mod.sendLatch (m : Mod) (k c node member job : Nat) : Option (Nat × Nat) × Mod :=
  let use : KeyUse := .linkSend k c node member
  match m.keys.findSome? fun (e : Nat × KeySlot) => (e.2.users.find? fun u => u.2 == use).map fun u => (e.1, u.1) with
  | some v => (some v, m)
  | none =>
    match m.jobKey job with
    | some v => (some v, m.keyUse v.1 v.2 use)
    | none => (none, m)

/-- A send latches its key as its node starts (17 R382, R384); one whose key is free or erasing ends its raise. -/
def Mod.sendStart (m : Mod) (k c node member : Nat) (b : List Byte) : Mod :=
  match Table.find (linkPath b) m.paths with
  | none => m
  | some p =>
    match m.sendLatch k c node member p.job with
    | (some _, m) => m
    | (none, m) => (m.markRun k c stKeyRevoked (m.jobSlot p.job)).worked k c node member

/-- The message of a send leaves (15 R331, R339, R341): its frames wait in turn, its credit and its segment numbers are
used, and the half has ended. -/
def Mod.sendFrames (m : Mod) (k c node member : Nat) (p : Path) (b : List Byte) (d : Desc) (x : Sealed) : Mod :=
  let pid := linkPath b
  let m := m.modPath pid fun p => { p with credit := p.credit - d.len, txCount := p.txCount + segments d.len }
  let m := m.pathFrames p (messageFrames (linkTag b member) d.len x.frames)
  let m := match x.poison with
    | some detail => m.poisonRaise k d detail
    | none => m
  (m.modRun k c fun u => { u with sent := u.sent ++ [node * 64 + member] }).linkHalves k c node member

/-- The sending half of a link node (15 R341, R342): nothing moves while it has no credit; else the message goes out whole. -/
def Mod.sendHalf (m : Mod) (k c node member : Nat) (u : Run) (img : List Byte) (mb : Member) (e : UnitEcc) : Mod :=
  let b := nodeBody img node
  let pid := linkPath b
  let ch := nodePrio img node % 16
  if u.sent.contains (node * 64 + member) then m
  else
    match Table.find pid m.paths with
    | none => m
    | some p =>
      if p.closed || !m.linkIssues k u then m
      else if getB ((m.part k).reg (offChCtrl ch)) 0 then (m.markRun k c stAborted ch).worked k c node member
      else
        match m.sendLatch k c node member p.job with
        | (none, m) => (m.markRun k c stKeyRevoked (m.jobSlot p.job)).worked k c node member
        | (some v, m) =>
          let d := m.linkDesc u img mb c node member false
          if !m.linkSideOk k d false then m.linkBusError k c node member ch 3
          else if p.credit < d.len then m
          else if 2 ^ 43 < p.txCount + segments d.len then m.closePath pid
          else
            let iv (i : Nat) := gcmIv p.job pid (m.sendDir p) (p.txCount + i)
            let (x, m) := m.sealMessage k d pid p.txCount (mb.raise.serial, node) (m.keyBytes v.1 v.2) iv e
            if x.err then m.linkBusError k c node member ch 1 else m.sendFrames k c node member p b d x

/-- LINK_SEND (15 R342). -/
def execLinkSend (k : Fin 64) (c : Fin 16) (node : Nat) (work : MemberWork) (s : State) : Host.Outcome State Fault Refusal :=
  s.act fun m =>
    match m.nodeAt k.val c.val node work.member with
    | none => m
    | some (u, img, mb) =>
      if nodeUnit img node == 4 && linkOp (nodeBody img node) == 1 then
        (m.sendHalf k.val c.val node work.member u img mb work.finds).watchLinks k.val
      else m

/-! ### Receiving (15 R341, R342, R344) -/

/-- The receiving raise of an arm ends with a status once its running nodes have ended. -/
def Mod.armEnds (m : Mod) (k : Nat) (a : Arm) (status detail : Nat) : Mod := m.within k a.c a.q fun m =>
  let m := m.markRun k a.c status detail
  let m := m.keyRelease fun u => u == .linkRecv k a.c a.q a.node a.member
  m.modRun k a.c fun u =>
    if u.phase a.node a.member = some .running then u.setNode a.node a.member .worked else u

/-- Matches the first waiting message of a path that some armed receive has the tag of to the earliest such receive
(15 R341). A message of another length is discarded, and the receiving raise ends. -/
def Mod.matchOne (m : Mod) (pid : Nat) : Mod :=
  match Table.find pid m.paths with
  | none => m
  | some p =>
    let waits (g : LinkMsg) : Bool := g.arm.isNone && !g.drop
    match p.msgs.findIdx? fun g => waits g && p.arms.any fun a => a.tag == g.tag with
    | none => m
    | some i =>
      match p.msgs[i]? with
      | none => m
      | some g =>
        match p.arms.find? fun a => a.tag == g.tag with
        | none => m
        | some a =>
          let arms := p.arms.erase a
          if a.len = g.len then
            m.modPath pid fun p => { p with arms := arms, msgs := p.msgs.set i { g with arm := some a } }
          else
            let m := m.modPath pid fun p =>
              { p with arms := arms
                       msgs := (p.msgs.set i { g with drop := true, frames := [] }).filter fun x => !x.gone }
            let m := if a.len < g.len then m.send (.linkCredit ((m.pathLink p).getD p.link) pid ((g.len - a.len) / 256)) else m
            m.armEnds p.owner a stBadField (0x5000 + a.node)

/-- What the read of a directory granule finds as a segment is written into a compressed view (11 R274): a free value, since
the command that brings the segment is the link's (DESIGN CHOICE, assumption 51). -/
def Mod.dirFinds (m : Mod) (d : Desc) : Ecc × Mod :=
  if d.dstKind == 0 && compressed d.dst then
    let (x, m) := m.draw
    (if x % 3 = 0 then .clean else if x % 3 = 1 then .corrected else .uncorrectable, m)
  else (.clean, m)

/-- The run of a context that a receive belongs to: the one that runs, or one stopped at a node boundary. -/
def Context.runOf (x : Context) (q : Nat) : Option Run := x.started.find? fun u => u.q == q

/-- Whether the engine writes segments of an armed receive now (01 R24, 10 R225, R238, 18 R403). -/
def Mod.armIssues (m : Mod) (k : Nat) (a : Arm) : Bool :=
  match ((m.part k).ctx a.c).runOf a.q with
  | some u => m.linkIssues k u
  | none => false

/-- Writes one opened segment of a message to the destination of its receive (15 R342, R344): poisoned where a frame of it
was (DETAIL 6) or its tag failed (DETAIL 7). -/
def Mod.writeSegment (m : Mod) (k : Nat) (a : Arm) (i : Nat) (bs : List Byte) (bad : Option Nat) : Mod :=
  match ((m.part k).ctx a.c).run with
  | none => m
  | some u =>
    match u.members[a.member]? with
    | none => m
    | some mb =>
      let img := ((m.part k).ctx a.c).image u
      let ch := nodePrio img a.node % 16
      let d := m.linkDesc u img mb a.c a.node a.member true
      if getB ((m.part k).reg (offChCtrl ch)) 0 then m.armEnds k a stAborted ch
      else if d.fault || !m.sideOk k noChan d true (4096 * i) bs.length then m.linkBusError k a.c a.node a.member ch 3
      else
        let pc : Piece :=
          { bytes := bs, bad := if bad.isSome then List.range (ceilDiv bs.length 64) else [], detail := 0, err := false }
        let (de, m) := m.dirFinds d
        let (lost, m) := m.writeLocal k (m.memKey k) d.dstKind d.dst (4096 * i) pc de
        match bad with
        | some detail => m.poisonRaise k d detail
        | none => (match lost with
          | some detail => m.poisonRaise k d detail
          | none => m)

/-- Whether the next segment of a matched message has all its frames and its tag. -/
def LinkMsg.ready (g : LinkMsg) (tags : Table (List Byte)) : Bool :=
  g.arm.isSome && decide (segLen g.len g.segs ≤ 256 * g.frames.length) && decide (4096 * g.segs < g.len) &&
    (Table.find (g.base + g.segs) tags).isSome

/-- Opens the next segment that is ready on a path, and ends the receive whose last segment it was (15 R342). -/
def Mod.openOne (m : Mod) (pid : Nat) : Mod :=
  match Table.find pid m.paths with
  | none => m
  | some p =>
    match p.msgs.findIdx? fun g => g.ready p.tags && (match g.arm with
        | some a => m.armIssues p.owner a
        | none => false) with
    | none => m
    | some i =>
      match p.msgs[i]? with
      | none => m
      | some g =>
        match g.arm with
        | none => m
        | some a =>
          let n := segLen g.len g.segs
          let used := g.frames.take (n / 256)
          let sealed := used.flatMap fun f => slice f.1 0 256
          let key := m.keyBytes a.slot a.ver
          let iv := gcmIv p.job pid (!m.sendDir p) (g.base + g.segs)
          let good := Table.find (g.base + g.segs) p.tags == some (Config.gcmTag key iv sealed)
          let bad := if !good then some 7 else if used.any (·.2) then some 6 else none
          let g' := { g with frames := g.frames.drop (n / 256), segs := g.segs + 1 }
          let last := decide (g.len ≤ 4096 * (g.segs + 1))
          let m := m.modPath pid fun p =>
            { p with tags := Table.erase (g.base + g.segs) p.tags
                     msgs := if last then p.msgs.eraseIdx i else p.msgs.set i g' }
          m.within p.owner a.c a.q fun m =>
          let m := m.writeSegment p.owner a g.segs (slice (gcmApply key iv sealed) 0 n) bad
          if last then
            let m := m.keyRelease fun u => u == .linkRecv p.owner a.c a.q a.node a.member
            (m.modRun p.owner a.c fun u => { u with received := u.received ++ [a.node * 64 + a.member] }).linkHalves
              p.owner a.c a.node a.member
          else m

/-- Everything that a path's frames, tags and arms now allow (15 R341, R342). -/
def Mod.pathAdvance (m : Mod) (pid : Nat) : Mod :=
  let size (m : Mod) : Nat := match Table.find pid m.paths with
    | some p => p.msgs.length + (p.msgs.map fun g => g.frames.length).sum
    | none => 0
  let m := m.forAll (fun m _ => m.matchOne pid) (List.range (size m))
  let m := m.forAll (fun m _ => m.openOne pid) (List.range (size m))
  match Table.find pid m.paths with
  | some p => m.watchLinks p.owner
  | none => m

/-- Everything that the paths of a partition now allow: its engine works again, or a raise starts or completes. -/
def Mod.advanceAll (m : Mod) (k : Nat) : Mod :=
  m.forAll (fun m (e : Nat × Path) => if e.2.owner = k then m.pathAdvance e.1 else m)
    (m.paths.filter fun (e : Nat × Path) => e.2.kind == pathEndpoint || e.2.kind == pathBest)

/-- DMA_ENGINE_RESTART (10 R238, rule 4): the engine issues again, and segments that waited for it are written. -/
def execDmaEngineRestart (k : Fin 64) (s : State) : Host.Outcome State Fault Refusal :=
  s.act fun m =>
    if (m.part k.val).underReset || !m.running then m
    else (m.modPart k.val fun p => p.setFld offDmaEng 16 16 0).advanceAll k.val

/-- Arms the receive of a link node for one member (15 R341, 17 R382): its length goes to the sender as credit, and a held
message may match at once. A key that is free or erasing ends the raise. -/
def Mod.armReceive (m : Mod) (k c q node member : Nat) (b : List Byte) : Mod :=
  let pid := linkPath b
  match Table.find pid m.paths with
  | none => m
  | some p =>
    match m.jobKey p.job with
    | none => m.markRun k c stKeyRevoked (m.jobSlot p.job)
    | some v =>
      let a : Arm := { c := c, q := q, node := node, member := member, tag := linkTag b member, len := linkLen b, slot := v.1,
                       ver := v.2 }
      let m := m.keyUse v.1 v.2 (.linkRecv k c q node member)
      let m := m.modPath pid fun p => { p with arms := p.arms ++ [a] }
      (m.send (.linkCredit ((m.pathLink p).getD p.link) pid (linkLen b / 256))).pathAdvance pid

/-- LINK_RECV (15 R341, R342): the receive was armed at the start of the raise; the node ends once its last segment is
written. -/
def execLinkRecv (k : Fin 64) (c : Fin 16) (node member : Nat) (s : State) : Host.Outcome State Fault Refusal :=
  s.act fun m =>
    match m.nodeAt k.val c.val node member with
    | none => m
    | some (_, img, _) =>
      if nodeUnit img node == 4 && linkOp (nodeBody img node) == 2 then
        (m.pathAdvance (linkPath (nodeBody img node))).linkHalves k.val c.val node member
      else m

/-- LINK_EXCHANGE (15 R340, R342): both halves. -/
def execLinkExchange (k : Fin 64) (c : Fin 16) (node : Nat) (work : MemberWork) (s : State) :
    Host.Outcome State Fault Refusal :=
  s.act fun m =>
    match m.nodeAt k.val c.val node work.member with
    | none => m
    | some (u, img, mb) =>
      if nodeUnit img node == 4 && linkOp (nodeBody img node) == 3 then
        ((m.sendHalf k.val c.val node work.member u img mb work.finds).pathAdvance (linkPath (nodeBody img node))).linkHalves
          k.val c.val node work.member
      else m

/-! ### What arrives on a path (15 R338, R339, R341) -/

/-- Where a payload frame, or an entry of a path, arriving on a link goes. -/
inductive PathDest where
  | nowhere
  | endpoint (p : Path)
  | forward (out : Nat)
  | sister
  deriving DecidableEq, Repr

/-- The connection of a path at a link (15 R334, R338). -/
def Mod.pathDest (m : Mod) (n pid : Nat) : PathDest :=
  match Table.find pid m.paths with
  | none => .nowhere
  | some p =>
    if p.closed then .nowhere
    else if p.kind = pathTransit then
      if n = p.link then .forward p.outLink else if n = p.outLink then .forward p.link else .nowhere
    else if p.kind = pathEndpoint then (if n = p.link then .endpoint p else .nowhere)
    else if p.kind = pathBest then (if portOf n = portOf p.link then .endpoint p else .nowhere)
    else .sister

/-- A frame delivered to an endpoint goes to the first message of the path that lacks frames, or waits for its MSG. -/
def Path.takeFrame (p : Path) (f : List Byte × Bool) : Path :=
  match p.msgs.findIdx? fun g => decide (256 * g.got < g.len) with
  | none => { p with early := p.early ++ [f] }
  | some i =>
    let msgs := p.msgs.mapIdx fun j g =>
      if j = i then { g with got := g.got + 1, frames := if g.drop then [] else g.frames ++ [f] } else g
    { p with msgs := msgs.filter fun g => !g.gone }

/-- A frame as a transit connection carries it on (15 R338). -/
def transitFrame (n : Nat) (f : LinkFrame) : OutFrame :=
  { path := f.path.toNat, part := 64, body := f.body, poison := f.type == 2, msg := none, gtag := none, last := true
    send := none, inbound := some (n, f.seq.toNat) }

/-- The receive whose message lacks frames next on a path, so that the frame that arrives is its. -/
def Path.nextArm (p : Path) : Option Arm := (p.msgs.find? fun g => decide (256 * g.got < g.len)).bind (·.arm)

/-- Delivers one payload frame (15 R331, R338): to its endpoint, through a transit connection, or discarded and counted. -/
def Mod.deliver (m : Mod) (n : Nat) (f : LinkFrame) : Mod :=
  let pid := f.path.toNat
  match m.pathDest n pid with
  | .nowhere => m.chipCount (offLinkErr n) 31 16
  | .forward out => m.queueFrames out [transitFrame n f]
  | .endpoint p =>
    let m := (m.modPath pid fun p => p.takeFrame (f.body, f.type == 2)).pathAdvance pid
    (match p.nextArm with
     | some a => m.within p.owner a.c a.q fun m => m.rewatch p.owner a.c a.node a.member
     | none => m)
  | .sister => m

/-- Delivers the frames held behind a gap that now follow in order (15 R331). -/
def Mod.drainAhead (m : Mod) (n : Nat) : Mod :=
  m.forAll (fun m _ =>
    let l := m.link n
    match l.ahead.find? fun f => f.seq == l.rxSeq with
    | none => m
    | some f =>
      (m.modLink n fun l => { l with rxSeq := l.rxSeq + 1, ahead := l.ahead.filter fun g => g.seq != f.seq }).deliver n f)
    (m.link n).ahead

/-- Whether a frame stands as it was sent (15 R330). -/
def frameGood (f : LinkFrame) : Bool :=
  decide (f.type.toNat ≤ 3) && f.body.length == 256 &&
    f.crc == BitVec.ofNat 32 (frameCrc f.seq.toNat f.path.toNat f.type.toNat f.body)

/-- A frame arrives (15 R331): with a failed CRC it is discarded and named in a NAK; payload frames are delivered in `SEQ`
order and acknowledged; one delivered before is discarded. Idle and control frames carry no payload, and a link whose
coordinates are not in order carries control frames only (R327). -/
def Mod.frameRx (m : Mod) (n : Nat) (f : LinkFrame) : Mod :=
  let l := m.link n
  let ahead := (f.seq - l.rxSeq).toNat
  if !frameGood f then (m.fecCount n).send (.linkNak n [f.seq.toNat])
  else if f.type.toNat = 0 ∨ f.type.toNat = 3 ∨ l.coordOk = false then m
  else if 32768 ≤ ahead then m
  else if 0 < ahead then
    if l.ahead.any fun g => g.seq == f.seq then m else m.modLink n fun l => { l with ahead := l.ahead ++ [f] }
  else
    let m := ((m.modLink n fun l => { l with rxSeq := l.rxSeq + 1 }).deliver n f).drainAhead n
    m.send (.linkAck n ((m.link n).rxSeq - 1).toNat)

/-- MSG_RX (15 R341): the message is announced, takes the frames that came ahead of it, and is matched or held; through a
transit connection the entry goes on with its first frame, under that frame's `SEQ` on the outbound link (R331, R338). -/
def Mod.msgRx (m : Mod) (n pid tag len seq : Nat) : Mod :=
  match m.pathDest n pid with
  | .forward out =>
    let key := 65536 * n + seq
    (match (Table.find pid m.paths).bind fun p => Table.find key p.passed with
     | some q => (m.modPath pid fun p =>
         { p with passed := p.passed.filter fun (e : Nat × Nat) =>
             e.1 / 65536 != n || decide (0 < (e.1 + 65536 - seq) % 65536 ∧ (e.1 + 65536 - seq) % 65536 < 32768) }).send
         (.linkMsg out pid tag len q)
     | none => m.modPath pid fun p => { p with fwdMsgs := Table.set key (tag, len) p.fwdMsgs })
  | .endpoint _ =>
    if len % 512 != 0 || len == 0 then m
    else
      (m.modPath pid fun p =>
        let took := p.early.take (len / 256)
        { p with
          early := p.early.drop (len / 256)
          rxCount := p.rxCount + segments len
          msgs := p.msgs ++ [{ tag := tag, len := len, arm := none, frames := took, got := took.length, segs := 0
                               base := p.rxCount, drop := false }] }).pathAdvance pid
  | _ => m

def execMsgRx (n : Fin 96) (path : BitVec 12) (tag : BitVec 16) (len : Nat) (seq : BitVec 16) (s : State) :
    Host.Outcome State Fault Refusal :=
  s.act fun m => m.alive fun m => if m.linkUp n.val then m.msgRx n.val path.toNat tag.toNat len seq.toNat else m

/-- CREDIT_RX (15 R341): credit in 256-byte units. -/
def execCreditRx (n : Fin 96) (path : BitVec 12) (units : Nat) (s : State) : Host.Outcome State Fault Refusal :=
  s.act fun m => m.alive fun m =>
    if m.linkUp n.val then
      match m.pathDest n.val path.toNat with
      | .forward out => m.send (.linkCredit out path.toNat units)
      | .endpoint p => (m.modPath path.toNat fun p => { p with credit := p.credit + 256 * units }).watchLinks p.owner
      | _ => m
    else m

/-- GTAG_RX (15 R339, R344): the tag of a segment; the segment is opened once its frames are there. -/
def execGtagRx (n : Fin 96) (path : BitVec 12) (segment : Nat) (tag : List Byte) (s : State) :
    Host.Outcome State Fault Refusal :=
  s.act fun m => m.alive fun m =>
    if m.linkUp n.val then
      match m.pathDest n.val path.toNat with
      | .forward out => m.send (.linkTag out path.toNat segment tag)
      | .endpoint _ => (m.modPath path.toNat fun p => { p with tags := Table.set segment tag p.tags }).pathAdvance path.toNat
      | _ => m
    else m

/-! ### Checks at the start of a raise (15 R340) -/

/-- Whether a link node's path is one that a raise of partition `k` may use; `job` is the reservation's for a
guaranteed-class raise. -/
def Mod.linkNodeOk (m : Mod) (k : Nat) (job : Option Nat) (b : List Byte) : Bool :=
  match Table.find (linkPath b) m.paths with
  | none => false
  | some p =>
    !p.closed && p.owner == k && p.hops == fld b 3 1 &&
      (if p.kind = pathEndpoint then fld b 2 1 == p.link
       else p.kind == pathBest && fld b 2 1 == 0x80 + portOf p.link) &&
      (match job with
       | some j => p.kind == pathEndpoint && p.job == j
       | none => true)

end Sys2Proof.Machine
end

