-- ==== Sys2Proof/Machine/Sister.lean ====
section
/-!
DEFINITION. Sister bindings: SISTER_BIND, heartbeats, mirrored commits and their acknowledgement, breaks and takeover
(16 R357 to R369).
-/

namespace Sys2Proof.Machine

/-! ### The payload (16 R358) -/

def Binding.standby (b : Binding) : Bool := fld b.payload 2 1 == 1
def Binding.lagged (b : Binding) : Bool := fld b.payload 3 1 == 1
def Binding.pathId (b : Binding) : Nat := fld b.payload 4 2
def Binding.keySlot (b : Binding) : Nat := fld b.payload 6 2
def Binding.parts (b : Binding) : Nat := fld b.payload 8 8
def Binding.epoch (b : Binding) : Nat := fld b.payload 20 4
def Binding.evt (b : Binding) : Nat := fld b.payload 28 2

/-- Whether a binding mirrors sequence `seq` of partition `k`. -/
def Binding.mirrors (b : Binding) (k seq : Nat) : Bool :=
  bit b.parts k && decide (fld b.payload 24 2 ≤ seq) && decide (seq ≤ fld b.payload 26 2)

/-- Check 1 of 16 R359. -/
def bindFields (pl : List Byte) : Option (Nat × Nat) :=
  let op := fld pl 0 1
  if op = 1 then
    fieldBad [(decide (12 ≤ fld pl 1 1), 1), (decide (2 ≤ fld pl 2 1), 2), (decide (2 ≤ fld pl 3 1), 3),
      (decide (4096 ≤ fld pl 4 2), 4), (decide (256 ≤ fld pl 6 2), 6), (fld pl 8 8 == 0, 8),
      (fld pl 16 2 == 0 || decide (4096 ≤ fld pl 16 2), 16),
      (!(decide (1 ≤ fld pl 18 1) && decide (fld pl 18 1 ≤ 4)), 18), (decide (100 < fld pl 19 1), 19),
      (fld pl 20 4 == 0, 20), (decide (fld pl 26 2 < fld pl 24 2), 26), (fld pl 30 2 != 0, 30)]
  else
    fieldBad ([(op != 2 && op != 3, 0), (decide (12 ≤ fld pl 1 1), 1)] ++
      (List.range 30).map fun i => (fld pl (2 + i) 1 != 0, 2 + i))

/-- Whether a partition of a mask has an open reservation or a started raise (16 R359, check 6). -/
def Mod.partsBusy (m : Mod) (mask : Nat) : Bool :=
  (partsOf mask).any fun k =>
    ((m.part k).resvs.any fun r => !r.2.closed) || (m.part k).ctxs.any fun x => !x.2.started.isEmpty

/-! ### State of a binding -/

/-- A binding changed. -/
def Mod.modBind (m : Mod) (b : Nat) (f : Binding → Binding) : Mod :=
  { m with binds := m.binds.map fun (e : Nat × Binding) => (e.1, if e.1 = b then f e.2 else e.2) }

/-- The entry write of a committing node (12 R279, 16 R363), with the tokens that it commits counted (13 R308, R314), and
the node's end. -/
def Mod.commitEntry (m : Mod) (k : Nat) (w : MirrorWait) : Mod :=
  ((m.writeEntry k w.seq w.lc w.lt (if w.shadow then some w.lc else none)).modPart k fun p =>
    p.count offSpecStatus 15 0 w.count).worked k w.ctx w.node w.member

/-- The nodes of some partitions that wait for an acknowledgement stop waiting (16 R363). -/
def Mod.releaseWaits (m : Mod) (mask : Nat) : Mod :=
  m.forAll (fun m k =>
    let ws := (m.part k).mirrorWait
    m.forAll (fun m w => m.commitEntry k w) ws |>.modPart k fun p => { p with mirrorWait := [] }) (partsOf mask)

/-- Signals event `EVT` of every partition of a binding (16 R365). -/
def Mod.bindSignal (m : Mod) (b : Binding) (t : Dword) : Mod :=
  m.forAll (fun m k => m.signal k b.evt t.toNat) (partsOf b.parts)

/-- The head of a message (16 R361). -/
def sisterHead (type part seq old new epoch : Nat) (acc : Option Nat) : List Byte :=
  leBytes 1 type ++ leBytes 1 part ++ leBytes 2 seq ++ leBytes 4 old ++ leBytes 4 new ++ leBytes 4 epoch ++
    leBytes 1 (b2n acc.isSome) ++ zeros 7 ++ leBytes 8 (acc.getD 0) ++ zeros 32

/-- The frames of a sister message of a partition, 64 for the binding's own (16 R361): sealed under R339 with `JOB` 0, the
last frame filled with zeros. `bad` names the 64-byte chunks that are poisoned. -/
def Mod.sisterFrames (m : Mod) (x : Binding) (p : Path) (part : Nat) (msg : List Byte) (bad : List Nat) : List OutFrame :=
  let text := msg ++ zeros ((256 - msg.length % 256) % 256)
  let key := match (m.keySlot x.keySlot).current with
    | some v => v.material
    | none => []
  messageFrames 0 msg.length ((List.range (segments text.length)).flatMap fun i =>
    segmentFrames x.pathId part none key (gcmIv 0 x.pathId (m.sendDir p) (p.txCount + i)) (slice text (4096 * i) (segLen text.length i))
      ((bad.filter fun c => c / 64 == i).map (· % 64)) (p.txCount + i))

/-- The frames of a message of binding `b` take their segment numbers, and `put` says where they wait. -/
def Mod.sisterSend (m : Mod) (b part : Nat) (msg : List Byte) (bad : List Nat) (put : Mod → List OutFrame → Mod) : Mod :=
  match Table.find b m.binds with
  | none => m
  | some x =>
    match Table.find x.pathId m.paths with
    | none => m
    | some p =>
      let fs := m.sisterFrames x p part msg bad
      put (m.modPath x.pathId fun p => { p with txCount := p.txCount + segments (256 * fs.length) }) fs

/-- A message of binding `b` waits in its queue, and leaves as its held links take it. -/
def Mod.sisterQueue (m : Mod) (b part : Nat) (msg : List Byte) (bad : List Nat) : Mod :=
  m.sisterSend b part msg bad fun m fs => (m.modBind b fun x => { x with queue := x.queue ++ fs }).bindPump b

/-- A cause of 16 R365 meets a binding: the primary is BROKEN and signals at once; the standby is ORPHANED by heartbeat loss
if it was ACTIVE, else BROKEN, and settles first. `tell` sends a break message. -/
def Mod.breakBind (m : Mod) (b cause : Nat) (tell : Bool) : Mod :=
  match Table.find b m.binds with
  | none => m
  | some x =>
    if x.state != .active && !(x.state == .waiting && cause != 1) then m
    else
      let m := m.modBind b fun x => { x with queue := [], unacked := [] }
      let m := if tell then m.sisterQueue b 64 (sisterHead 4 0 0 0 0 x.epoch none) [] else m
      if x.standby then
        m.modBind b fun x =>
          { x with state := if cause = 1 then .orphaned else .broken, cause := cause, settling := some m.devtime }
      else
        ((m.modBind b fun x => { x with state := .broken, cause := cause }).releaseWaits x.parts).bindSignal x
          m.devtime

/-- A binding ends, and its slot becomes empty (16 R360, R369); a BIND that still waits is answered, and the links are free
for best-effort traffic. -/
def Mod.endBind (m : Mod) (b status : Nat) : Mod :=
  match Table.find b m.binds with
  | none => m
  | some x =>
    let m := m.releaseWaits x.parts
    let m := { m with binds := Table.erase b m.binds, paths := Table.erase x.pathId m.paths
                      chip := Table.erase (offSisStatus b) m.chip }
    let m := m.portPump 6
    match x.bindReq with
    | some r => m.finish r status 0
    | none => m

/-- The bindings whose `PARTS` has a partition. -/
def Mod.bindsOf (m : Mod) (k : Nat) : List (Nat × Binding) := m.binds.filter fun (e : Nat × Binding) => bit e.2.parts k

/-- Whether a standing binding makes partition `k` a standby (16 R360). -/
def Mod.standbyPart (m : Mod) (k : Nat) : Bool := (m.bindsOf k).any fun e => e.2.standby

/-- Whether a standing binding holds sequence `seq` of standby partition `k` (16 R360). -/
def Mod.standbyHolds (m : Mod) (k seq : Nat) : Bool := (m.bindsOf k).any fun e => e.2.standby && e.2.mirrors k seq

/-! ### SISTER_BIND (16 R359, R366, R367) -/

/-- A binding as a BIND makes it (16 R359). -/
def newBind (pl : List Byte) (tenant : BitVec 16) : Binding :=
  { state := if fld pl 2 1 = 1 then .waiting else .pending, payload := pl, cause := 0, tenant := tenant, applied := 0
    queue := [], lastPart := 64, lastLink := 96, unacked := [], bindReq := none, settling := none }

/-- Checks 2 to 6 of a BIND (16 R359). -/
def Mod.bindBad (m : Mod) (pl : List Byte) : Option (Nat × Nat) :=
  let mask := fld pl 8 8
  let x := newBind pl 0
  firstBad [
    (!m.partsOk mask || !(match m.partsTenant mask with
      | some t => m.linkKeySlot (fld pl 6 2) t
      | none => false), stNotPermitted, 1),
    ((Table.find (fld pl 1 1) m.binds).isSome, stNotPermitted, 2),
    (x.links.any (fun n => !m.linkUp n || decide (lanesUp (m.link n).live < 3) || !(m.link n).coordOk || m.linkBound n) ||
      (partsOf mask).any (fun k => !(x.links.any fun n => bayOfLink n == k / 16)) ||
      m.binds.any (fun (e : Nat × Binding) => e.2.parts &&& mask != 0), stNotPermitted, 3),
    ((Table.find x.pathId m.paths).isSome, stNotPermitted, 4),
    (m.partsBusy mask, stNotPermitted, 5)]

/-- BIND (16 R359): a standby waits; a primary answers once the standby's first heartbeat arrives. -/
def Mod.sisterBind (m : Mod) (r : Request) : Mod :=
  m.judge r (orBad (bindFields r.payload) (m.bindBad r.payload)) fun m =>
    let pl := r.payload
    let x := newBind pl ((m.partsTenant (fld pl 8 8)).getD 0)
    let path : Path :=
      { job := 0, kind := pathSister, link := x.links.headD 72, outLink := 0, cls := fld pl 18 1, hops := 1, owner := 64
        fibre := fld pl 19 1, peer := 0, txCount := 0, rxCount := 0, credit := 0, arms := [], msgs := [], early := []
        tags := [], closed := false, fwdMsgs := [], passed := [] }
    let m := { m with paths := Table.set x.pathId path m.paths }
    if x.standby then ({ m with binds := Table.set (fld pl 1 1) x m.binds }).respond r stOk 0
    else { m with binds := Table.set (fld pl 1 1) { x with bindReq := some r } m.binds }.hold r

/-- SISTER_BIND with BIND; a request whose `OP` names no operation is refused here. -/
def execSisterBind (f : Fn) (s : State) : Host.Outcome State Fault Refusal :=
  s.act fun m => m.mbxRow f 0x51 (fun r => fld r.payload 0 1 != 2 && fld r.payload 0 1 != 3) Mod.sisterBind

/-- What still waits of a binding that ends leaves behind it on its first held link (16 R367). -/
def Mod.flushBind (m : Mod) (b : Nat) : Mod :=
  match Table.find b m.binds with
  | none => m
  | some x => if x.queue.isEmpty then m else (m.modBind b fun x => { x with queue := [] }).queueFrames (x.links.headD 72) x.queue

/-- UNBIND (16 R367): the primary sends a release message behind its queued commits; the binding ends. -/
def Mod.sisterUnbind (m : Mod) (r : Request) : Mod :=
  let b := fld r.payload 1 1
  let x := Table.find b m.binds
  m.judge r (orBad (bindFields r.payload) (firstBad [(x.isNone, stNotPermitted, 2),
      ((match x with
        | some x => m.partsBusy x.parts
        | none => false), stNotPermitted, 5)])) fun m =>
    let m := match x with
      | some x => if x.standby || x.state != BindState.active then m
          else (m.sisterQueue b 64 (sisterHead 3 0 0 0 0 x.epoch none) []).flushBind b
      | none => m
    (m.endBind b stTimeout).respond r stOk 0

/-- SISTER_UNBIND (16 R367). -/
def execSisterUnbind (f : Fn) (s : State) : Host.Outcome State Fault Refusal :=
  s.act fun m => m.mbxRow f 0x51 (fun r => fld r.payload 0 1 == 2) Mod.sisterUnbind

/-- The settlement of a standby (16 R365): every message whose tags passed stands applied; the events are signalled with
the DEVTIME of the declaration. -/
def Mod.settle (m : Mod) (b : Nat) : Mod :=
  match Table.find b m.binds with
  | none => m
  | some x =>
    match x.settling with
    | none => m
    | some t => (m.modBind b fun x => { x with settling := none }).bindSignal x t

/-- TAKEOVER (16 R366). -/
def Mod.sisterTakeover (m : Mod) (r : Request) : Mod :=
  let b := fld r.payload 1 1
  let x := Table.find b m.binds
  m.judge r (orBad (bindFields r.payload) (firstBad [
      ((match x with
        | some x => !x.standby || !(x.state == .orphaned || x.state == .released || x.state == .broken)
        | none => true), stNotPermitted, 2)])) fun m =>
    let applied := match x with
      | some x => x.applied
      | none => 0
    ((m.settle b).endBind b stTimeout).respond r stOk 0 (leBytes 8 m.devtime.toNat ++ leBytes 4 applied ++ zeros 4)

/-- SISTER_TAKEOVER (16 R366). -/
def execSisterTakeover (f : Fn) (s : State) : Host.Outcome State Fault Refusal :=
  s.act fun m => m.mbxRow f 0x51 (fun r => fld r.payload 0 1 == 3) Mod.sisterTakeover

/-- SIS_BIND_TIMEOUT (16 R359, check 7): the request has no effect. -/
def execSisBindTimeout (b : Fin 12) (s : State) : Host.Outcome State Fault Refusal :=
  s.act fun m => m.molique fun m =>
    match Table.find b.val m.binds with
    | some x => if x.bindReq.isSome then m.endBind b.val stTimeout else m
    | none => m

/-! ### Heartbeats (16 R361, R365) -/

/-- SIS_HEARTBEAT_TX (16 R361): a message of one frame, ahead of what waits, on a held link that can send. -/
def execSisHeartbeatTx (b : Fin 12) (n : Fin 96) (s : State) : Host.Outcome State Fault Refusal :=
  s.act fun m => m.alive fun m =>
    match Table.find b.val m.binds with
    | some x => if x.links.contains n.val && (m.link n.val).canSend then
        m.sisterSend b.val 64 (sisterHead 2 0 0 0 0 x.epoch none) [] fun m fs =>
          m.forAll (fun m f => m.placeFrame n.val f) fs
      else m
    | none => m

/-- A heartbeat of the binding's epoch (16 R359): the primary's BIND answers, and the waiting end becomes ACTIVE. -/
def Mod.heartbeatRx (m : Mod) (b : Nat) (epoch : Word) : Mod :=
  match Table.find b m.binds with
  | none => m
  | some x =>
    if (x.state == .waiting || x.state == .pending) && x.epoch == epoch.toNat then
      let m := m.modBind b fun x => { x with state := .active, bindReq := none }
      match x.bindReq with
      | some r => m.finish r stOk 0
      | none => m
    else m

/-- SIS_HEARTBEAT_RX (16 R359). -/
def execSisHeartbeatRx (b : Fin 12) (epoch : Word) (s : State) : Host.Outcome State Fault Refusal :=
  s.act fun m => m.alive fun m => m.heartbeatRx b.val epoch

/-- SIS_HEARTBEAT_LOSS (16 R365). -/
def execSisHeartbeatLoss (b : Fin 12) (s : State) : Host.Outcome State Fault Refusal :=
  s.act fun m => m.alive fun m => m.breakBind b.val 1 false

/-! ### Sending commits (16 R361, R363, R364) -/

/-- The primary binding that mirrors a sequence now. -/
def Mod.mirrorOf (m : Mod) (k seq : Nat) : Option (Nat × Binding) :=
  m.binds.find? fun (e : Nat × Binding) => !e.2.standby && e.2.state == .active && e.2.mirrors k seq

/-- Bytes that stand in a mirror queue (16 R364). -/
def Binding.queued (b : Binding) (k : Nat) : Nat := 256 * (b.queue.filter fun f => f.part == k).length

/-- A committing node has its rows in place (16 R363, R364): unmirrored it writes its entry; synchronous it sends its
message and waits; lagged it places its message in the mirror queue of 1 MiB and writes its entry. -/
def Mod.mirrorCommit (m : Mod) (k : Nat) (w : MirrorWait) (old : Nat) (en : SeqEntry) (pages : List Nat)
    (acc : Option (Nat × List Byte)) : Mod :=
  match m.mirrorOf k w.seq with
  | none => m.commitEntry k w
  | some (b, x) =>
    let (rows, bad, m) := m.tokenRows k en pages old w.lc
    let msg := sisterHead 1 k w.seq old w.lc x.epoch (acc.map (·.1)) ++ rows ++ (acc.map (·.2)).getD []
    let bad := bad.map (· + 1)
    if !x.lagged then (m.modPart k fun p => { p with mirrorWait := p.mirrorWait ++ [w] }).sisterQueue b k msg bad
    else if 1048576 < x.queued k + 256 * ceilDiv msg.length 256 then (m.commitEntry k w).breakBind b 3 true
    else
      ((m.modBind b fun x => { x with unacked := Table.modify 0 k (· + 1) x.unacked }).sisterQueue b k msg bad).commitEntry k w

/-- An acknowledgement (16 R363): the oldest outstanding commit of the partition stands on the standby. -/
def Mod.ackRx (m : Mod) (b k : Nat) : Mod :=
  match Table.find b m.binds with
  | none => m
  | some x =>
    if x.standby || x.state != .active then m
    else
      let count (m : Mod) : Mod := (m.modBind b fun x => { x with applied := x.applied + 1 }).chipCount (offSisStatus b) 15 0
      if x.lagged then
        if Table.get 0 k x.unacked = 0 then m
        else count (m.modBind b fun x => { x with unacked := Table.modify 0 k (· - 1) x.unacked })
      else
        match (m.part k).mirrorWait with
        | w :: ws => if bit x.parts k then count ((m.modPart k fun p => { p with mirrorWait := ws }).commitEntry k w) else m
        | [] => m

/-- SIS_ACK_RX (16 R363). -/
def execSisAckRx (b : Fin 12) (k : Fin 64) (s : State) : Host.Outcome State Fault Refusal :=
  s.act fun m => m.alive fun m => m.ackRx b.val k.val

/-- SIS_ACK_TIMEOUT (16 R363): the node proceeds, and the binding is BROKEN. -/
def execSisAckTimeout (b : Fin 12) (k : Fin 64) (s : State) : Host.Outcome State Fault Refusal :=
  s.act fun m => m.alive fun m =>
    match Table.find b.val m.binds with
    | some x =>
      if !x.standby && !x.lagged && bit x.parts k.val && !(m.part k.val).mirrorWait.isEmpty then m.breakBind b.val 5 true
      else m
    | none => m

/-! ### Applying commits (16 R362) -/

/-- A message opened (15 R339, 16 R362): its bytes, none where a tag fails or a frame is poisoned. -/
def Mod.openSister (m : Mod) (x : Binding) (msg : SisterMsg) : Option (List Byte) :=
  match Table.find x.pathId m.paths with
  | none => none
  | some p =>
    let key := match (m.keySlot x.keySlot).current with
      | some v => v.material
      | none => []
    let iv (i : Nat) := gcmIv 0 x.pathId (!m.sendDir p) (msg.first + i)
    if (msg.segs.mapIdx fun i g => !g.poison && g.tag == Config.gcmTag key (iv i) g.body).all id then
      some ((msg.segs.mapIdx fun i g => gcmApply key (iv i) g.body).flatten.take msg.len)
    else none

/-- The pages that an apply needs, near, and shadow where `SHADOW` (16 R362); none where one is absent or lost. -/
def Mod.applyPages (m : Mod) (k : Nat) (en : SeqEntry) (old new : Nat) (e : ApplyEcc) : Option (List Nat × List Nat) × Mod :=
  let idxs := pageRange old new
  let find (shadow : Bool) (t : Option (Table Nat)) : Option (List Nat) :=
    match t with
    | none => none
    | some t => (match allPages (fun i => en.page shadow (Table.get 0 i t)) idxs with
      | (ls, none) => some ls
      | (_, some _) => none)
  let (near, m) := m.readTable k en false idxs e.table
  let (shad, m) := if en.shadow then m.readTable k en true idxs e.shadow else (some [], m)
  match find false near, if en.shadow then find true shad else some [] with
  | some a, some b => (some (a, b), m)
  | _, _ => (none, m)

/-- Whether a commit's entry and length allow the apply (16 R362). -/
def applyOk (en : SeqEntry) (msg : List Byte) (len : Nat) : Bool :=
  let old := fld msg 4 4
  let new := fld msg 8 4
  let acc := bit (fld msg 16 1) 0
  en.valid && en.lc == old && en.lt == en.lc && decide (old ≤ new) && len == 64 + en.tw * (new - old) + (if acc then 448 else 0) &&
    (!acc || plainTenant (fld msg 24 8) 448)

/-- Writes token rows from token `a` on into pages whose list begins at the page of `a`. -/
def Mod.writeRows (m : Mod) (k tw a : Nat) (pages : List Nat) (rows : List Byte) : Mod :=
  m.forAll (fun m i =>
    let t := a + i
    m.memWrite k (m.memKey k) (pages.getD (t / 64 - a / 64) 0 + t % 64 * tw) (slice rows (i * tw) tw) [] .clean)
    (List.range (rows.length / tw))

/-- The writes of an apply (16 R362): rows, shadow rows, acceptance record, entry; then the acknowledgement. -/
def Mod.applyWrites (m : Mod) (b k : Nat) (en : SeqEntry) (msg : List Byte) (near shad : List Nat) : Mod :=
  let old := fld msg 4 4
  let new := fld msg 8 4
  let rows := slice msg 64 (en.tw * (new - old))
  let m := m.writeRows k en.tw old near rows
  let m := if en.shadow then m.writeRows k en.tw old shad rows else m
  let m := if bit (fld msg 16 1) 0 then m.memWrite k (m.memKey k) (fld msg 24 8) (slice msg (64 + rows.length) 448) [] .clean
    else m
  let m := m.writeEntry k (fld msg 2 2) new new (if en.shadow then some new else none)
  ((m.modBind b fun x => { x with applied := x.applied + 1 }).chipCount (offSisStatus b) 15 0).send (.sisterAck b k)

/-- The apply of a commit message (16 R362): discarded where the binding is not ACTIVE or the `EPOCH` is another's; a failed
tag, a poisoned frame, a failed check or an uncorrectable error breaks the binding, and nothing is written. -/
def Mod.commitApply (m : Mod) (b : Nat) (r : SisterMsg) (e : ApplyEcc) : Mod :=
  let discard (m : Mod) : Mod := m.chipCount (offSisStatus b) 23 16
  match Table.find b m.binds with
  | none => discard m
  | some x =>
    if !x.standby || x.state != .active then discard m
    else
      match m.openSister x r with
      | none => m.breakBind b 4 true
      | some msg =>
        let k := fld msg 1 1
        let seq := fld msg 2 2
        if fld msg 12 4 != x.epoch then discard m
        else if !x.mirrors k seq || (m.part k).underReset then m.breakBind b 4 true
        else
          let (en, lost, m) := m.readEntry k seq e.entry
          if lost || !applyOk en msg r.len then m.breakBind b 4 true
          else
            match m.applyPages k en (fld msg 4 4) (fld msg 8 4) e with
            | (none, m) => m.breakBind b 4 true
            | (some (near, shad), m) => m.applyWrites b k en msg near shad

/-- SIS_COMMIT_APPLY (16 R362). -/
def execSisCommitApply (b : Fin 12) (msg : SisterMsg) (e : ApplyEcc) (s : State) : Host.Outcome State Fault Refusal :=
  s.act fun m => m.alive fun m => m.commitApply b.val msg e

/-! ### Release, break and settlement (16 R365, R367, R368) -/

/-- SIS_RELEASE_RX (16 R367): an active standby is RELEASED; any other release is discarded and counted. -/
def execSisReleaseRx (b : Fin 12) (epoch : Word) (s : State) : Host.Outcome State Fault Refusal :=
  s.act fun m => m.alive fun m =>
    match Table.find b.val m.binds with
    | some x =>
      if x.standby && x.state == .active && x.epoch == epoch.toNat then m.modBind b.val fun x => { x with state := .released }
      else m.chipCount (offSisStatus b.val) 23 16
    | none => m.chipCount (offSisStatus b.val) 23 16

/-- SIS_BREAK_RX (16 R365): a break message of the binding's epoch breaks it, whatever cause the sender had. -/
def execSisBreakRx (b : Fin 12) (epoch : Word) (cause : Fin 8) (s : State) : Host.Outcome State Fault Refusal :=
  s.act fun m => m.alive fun m =>
    match Table.find b.val m.binds with
    | some x =>
      if (x.state == .active || x.state == .waiting) && x.epoch == epoch.toNat then
        let m := m.breakBind b.val (max 2 cause.val) false
        m.modBind b.val fun x => { x with cause := cause.val }
      else m.chipCount (offSisStatus b.val) 23 16
    | none => m.chipCount (offSisStatus b.val) 23 16

/-- SIS_SETTLE (16 R365). -/
def execSisSettle (b : Fin 12) (s : State) : Host.Outcome State Fault Refusal := s.act fun m => m.alive fun m => m.settle b.val

/-- `SIS_STATUS` of a slot (16 R369). -/
def Mod.sisStatus (m : Mod) (b : Nat) : Word :=
  let v := m.chipReg (offSisStatus b)
  match Table.find b m.binds with
  | none => v
  | some x =>
    let st := match x.state with
      | .pending => 0
      | .waiting => 1
      | .active => 2
      | .broken => 3
      | .orphaned => 4
      | .released => 5
    if x.state = .pending then v
    else setF (setB (setB (setF v 31 29 st) 28 x.standby) 27 x.lagged) 26 24 x.cause

end Sys2Proof.Machine
end

