-- ==== Sys2Proof/Machine/Lanes.lean ====
section
/-!
DEFINITION. Training of links, losing and regaining lanes, acknowledgements and replay (15 R326 to R328, R331, R346 to
R348, R354; 16 R357).
-/

namespace Sys2Proof.Machine

/-! ### Training (15 R326, R327) -/

/-- The port that a port meets (15 R326). -/
def oppositePort (p : Nat) : Nat := if p < 6 then (if p % 2 = 0 then p + 1 else p - 1) else p

/-- Whether the partner's port and ll obey 15 R326; the trained S links reach one module (16 R357). -/
def Mod.portRule (m : Mod) (n : Nat) (q : LinkPartner) : Bool :=
  let p := portOf n
  q.port.val == oppositePort p && (p == 7 || q.ll.val == n % 12) &&
    (p != 6 || (List.range 12).all fun ll =>
      72 + ll == n || !m.linkUp (72 + ll) || (match (m.link (72 + ll)).partner with
        | some r => r.hash == q.hash
        | none => true))

/-- Whether the partner's coordinates are those of 15 R326, by `LNK_COORD`; S and U place no constraint. -/
def Mod.coordRule (m : Mod) (n : Nat) (q : LinkPartner) : Bool :=
  let v := m.chipReg offCoord
  let size (i : Nat) : Nat := getF v (15 + 4 * i) (12 + 4 * i) + 1
  let mine (i : Nat) : Nat := getF v (3 + 4 * i) (4 * i)
  let its (i : Nat) : Nat := if i = 0 then q.x.val else if i = 1 then q.y.val else q.z.val
  let p := portOf n
  6 ≤ p || (size (p / 2) != 1 && [0, 1, 2].all fun i =>
    if i = p / 2 then its i == (mine i + (if p % 2 = 0 then 1 else size i - 1)) % size i else its i == mine i)

/-- Whether `LNK_COORD` is valid at both ends (15 R327). -/
def Mod.coordsKnown (m : Mod) (q : LinkPartner) : Bool := getB (m.chipReg offCoord) 31 && q.coordValid

/-- A link whose partner breaks 15 R326: it stays down (15 R327). -/
def Link.reject (l : Link) : Link :=
  { Link.reset with miscable := true, trained := l.trained, lossTimes := l.lossTimes, lostLanes := l.lostLanes }

/-- Judges a trained link against the coordinates as they stand (15 R327). -/
def Mod.placeLink (m : Mod) (n : Nat) : Mod :=
  match (m.link n).partner with
  | none => m
  | some q =>
    let known := m.coordsKnown q
    if known && !m.coordRule n q then m.modLink n Link.reject
    else m.modLink n fun l => { l with coordOk := known, miscable := false }

/-- What this end sends of its identity as a link trains (15 R327). -/
def Mod.sendIdentity (m : Mod) (n : Nat) : Mod :=
  m.send (.linkIdentity n Config.serialHash (portOf n) (n % 12) (m.chipReg offCoord))

/-- Every trained link judged anew: `LNK_COORD` has been written (15 R327, 16 R357). -/
def Mod.placeAll (m : Mod) : Mod :=
  m.forAll (fun m (e : Nat × Link) => if e.2.live != 0 then (m.placeLink e.1).pump e.1 else m) m.links

/-- The notices of a link whose lanes have changed (03 R92, R93). -/
def Mod.lanesChanged (m : Mod) (n : Nat) (was : Bool) : Mod :=
  let now := m.laneSecond n
  if !was && now then (m.voidLane n).noticeLink n 1 else if was && !now then m.noticeLink n 0 else m

/-- A link trains (15 R327, R328, R347): a partner that breaks the port rule leaves it down; the partner of before takes up
where the link left off, and every frame not acknowledged is sent again. -/
def Mod.linkTrain (m : Mod) (n : Nat) (q : LinkPartner) : Mod :=
  let l := m.link n
  if !m.portRule n q then (if l.live = 0 then m.modLink n Link.reject else m)
  else if l.partner.isSome && l.live != 0 then
    (match l.partner with
     | some r => if r.hash = q.hash then (m.modLink n fun l => { l with partner := some q }).placeLink n else m
     | none => m)
  else
    let lanes := q.lanes &&& ~~~l.lostLanes
    if lanes = 0 then m
    else
      let was := m.laneSecond n
      let same := match l.partner with
        | some r => r.hash == q.hash
        | none => false
      let l' := if same then { l with partner := some q, trained := true, live := lanes, widening := false, peerQuiet := false }
        else { Link.reset with partner := some q, trained := true, live := lanes, lossTimes := l.lossTimes, lostLanes := l.lostLanes }
      let m := (({ m with links := Table.set n l' m.links }).sendIdentity n).placeLink n
      ((m.resend n fun _ => true).pump n).lanesChanged n was

/-- LINK_TRAIN (15 R327): from boot stage 0x4 on (02 R62). -/
def execLinkTrain (n : Fin 96) (p : LinkPartner) (s : State) : Host.Outcome State Fault Refusal :=
  s.act fun m => if 4 ≤ m.boot.stage ∧ m.boot.stage ≤ 8 then m.linkTrain n.val p else m

/-! ### Acknowledgements (15 R331) -/

/-- NAK_RX (15 R331, R346): the named frames are sent again, ahead of new ones. -/
def execNakRx (n : Fin 96) (seqs : List (BitVec 16)) (s : State) : Host.Outcome State Fault Refusal :=
  s.act fun m => m.alive fun m => if m.linkUp n.val then m.resend n.val fun e => seqs.contains e.1.seq else m

/-- ACK_RX (15 R331): the replay buffer gives up every frame up to `SEQ`, and waiting frames take the room. -/
def execAckRx (n : Fin 96) (seq : BitVec 16) (s : State) : Host.Outcome State Fault Refusal :=
  s.act fun m => m.alive fun m =>
    if m.linkUp n.val then
      (m.modLink n.val fun l => { l with replay := l.replay.filter fun e => decide (32768 ≤ (seq - e.1.seq).toNat) }).pump
        n.val
    else m

/-! ### Lanes (15 R346 to R348) -/

/-- A mask with lane `i` at `b`. -/
def setLane (v : BitVec 4) (i : Nat) (b : Bool) : BitVec 4 :=
  BitVec.ofNat 4 (v.toNat - b2n (bit v.toNat i) * 2 ^ i + b2n b * 2 ^ i)

/-- The frames missing behind the gap (15 R346). -/
def Link.missing (l : Link) : List Nat :=
  let top := l.ahead.foldl (fun (a : Nat) f => max a (f.seq - l.rxSeq).toNat) 0
  (List.range top).filterMap fun i =>
    let q := l.rxSeq + BitVec.ofNat 16 i
    if l.ahead.any fun f => f.seq == q then none else some q.toNat

/-- NAK entries of up to four sequence numbers each (15 R331). -/
def Mod.sendNaks (m : Mod) (n : Nat) (seqs : List Nat) : Mod :=
  m.forAll (fun m i => m.send (.linkNak n ((seqs.drop (4 * i)).take 4))) (List.range (ceilDiv seqs.length 4))

/-- A lane is lost (15 R346 to R348; 16 R365): squelched, its missing frames named, its unacknowledged frames sent again on
the other lanes; at the fourth loss within 1 s it is held. A lane that fails while a widening holds the link aborts it. A
second loss breaks the bindings that hold the link. -/
def Mod.laneLoss (m : Mod) (n i : Nat) : Mod :=
  let l := m.link n
  if !bit l.live.toNat i then
    let fails := l.widening && bit l.standby.toNat i
    let m := m.modLink n fun l => { l with standby := setLane l.standby i false }
    if fails then (m.modLink n fun l => { l with widening := false, peerQuiet := false }).resumeLink n else m
  else
    let was := m.laneSecond n
    let second := decide (lanesUp l.live < 4)
    let times := (m.devtime.toNat :: Table.get [] i l.lossTimes).take 4
    let held := times.length == 4 && times.all fun t => decide (m.devtime.toNat < t + 1000000000)
    let m := m.modLink n fun l =>
      { l with live := setLane l.live i false, widening := false, peerQuiet := false, lossTimes := Table.set i times l.lossTimes
               lostLanes := if held then setLane l.lostLanes i true else l.lostLanes }
    let m := if held then m.chipFlag (offLinkCtrl n) 1 else m
    let m := ((m.fecCount n).chipCount (offLinkStatus n) 15 0).send (.squelch n i)
    let m := m.sendNaks n l.missing
    let m := ((m.resend n fun e => e.2 == i).resumeLink n).lanesChanged n was
    if second then
      m.forAll (fun m (e : Nat × Binding) =>
        if e.2.links.contains n then m.breakBind e.1 2 (!e.2.standby) else m) m.binds
    else m

/-- A frame of a lane has failed its CRC and will be replayed (15 R331): past 32 within 10 microseconds the receiver declares
the lane lost (R346). -/
def Mod.laneBad (m : Mod) (n i : Nat) : Mod :=
  let times := (m.devtime.toNat :: Table.get [] i (m.link n).badTimes).take 33
  if times.length = 33 ∧ (times.all fun t => decide (m.devtime.toNat < t + 10000)) = true then
    (m.modLink n fun l => { l with badTimes := Table.erase i l.badTimes }).laneLoss n i
  else m.modLink n fun l => { l with badTimes := Table.set i times l.badTimes }

/-- PAYLOAD_FRAME_RX (15 R331); a lane that is not live carries no frame. -/
def execPayloadFrameRx (n : Fin 96) (lane : Fin 4) (f : LinkFrame) (s : State) : Host.Outcome State Fault Refusal :=
  s.act fun m => m.alive fun m =>
    if (m.link n.val).partner.isSome && bit (m.link n.val).live.toNat lane.val then
      let m := m.frameRx n.val f
      if frameGood f then m else m.laneBad n.val lane.val
    else m

/-- LANE_LOSS (15 R346, R347). -/
def execLaneLoss (n : Fin 96) (lane : Fin 4) (s : State) : Host.Outcome State Fault Refusal :=
  s.act fun m => m.alive fun m => if (m.link n.val).partner.isSome then m.laneLoss n.val lane.val else m

/-- Whether an endpoint path of this module has lost its link: the link, or every link of a best-effort path's port. -/
def Mod.pathDown (m : Mod) (n pid : Nat) : Bool :=
  match Table.find pid m.paths with
  | none => false
  | some p =>
    if p.kind = pathEndpoint then p.link == n
    else if p.kind = pathBest then portOf p.link == portOf n && (List.range 12).all fun i => !m.linkUp (12 * portOf n + i)
    else false

/-- LINK_DOWN_TIMEOUT (15 R344, R347): a link without a live lane for 10 microseconds ends the transfers of its paths. -/
def execLinkDownTimeout (n : Fin 96) (s : State) : Host.Outcome State Fault Refusal :=
  s.act fun m => m.alive fun m => if m.linkUp n.val then m else m.endTransfers (fun pid => m.pathDown n.val pid) stTimeout fun _ => n.val

/-- LANE_STANDBY_READY (15 R348): a lost lane that is not held is ready at both ends. -/
def execLaneStandbyReady (n : Fin 96) (lane : Fin 4) (s : State) : Host.Outcome State Fault Refusal :=
  s.act fun m => m.alive fun m =>
    let l := m.link n.val
    if m.linkUp n.val && !bit l.live.toNat lane.val && !bit l.lostLanes.toNat lane.val then
      (m.modLink n.val fun l => { l with standby := setLane l.standby lane.val true }).sendLane n.val false false false
    else m

/-- Whether this end may widen a link now (15 R348). -/
def Mod.mayWiden (m : Mod) (n : Nat) : Bool :=
  let l := m.link n
  m.linkUp n && l.standby != 0 && !l.widening && !getB (m.chipReg (offLinkCtrl n)) 0 && m.linkQuiet n

/-- LINK_WIDEN (15 R348): the end with the lower hash requests once both are quiet; the other reports quiet. -/
def Mod.linkWiden (m : Mod) (n : Nat) : Mod :=
  if !m.mayWiden n then m
  else
    let lower := match (m.link n).partner with
      | some q => decide (Config.serialHash < q.hash)
      | none => false
    if lower && (m.link n).peerQuiet then
      (m.modLink n fun l => { l with widening := true }).sendLane n true false true
    else m.sendLane n false false true

def execLinkWiden (n : Fin 96) (s : State) : Host.Outcome State Fault Refusal := s.act fun m => m.alive fun m => m.linkWiden n.val

/-- LANE_ENTRY_RX (15 R331, R348): the far end's quiet flag, and its widen request, which a quiet end acknowledges. -/
def execLaneEntryRx (n : Fin 96) (_live _standby : BitVec 4) (widen _ack quiet : Bool) (s : State) :
    Host.Outcome State Fault Refusal :=
  s.act fun m => m.alive fun m =>
    if !m.linkUp n.val then m
    else
      let ok := widen && m.mayWiden n.val
      let m := m.modLink n.val fun l => { l with peerQuiet := quiet, widening := l.widening || ok }
      if ok then m.sendLane n.val false true true else m

/-- LINK_WIDEN_DONE (15 R348): the link runs on its standby lanes too, or, where a lane failed, on those of before. -/
def execLinkWidenDone (n : Fin 96) (ok : Bool) (s : State) : Host.Outcome State Fault Refusal :=
  s.act fun m => m.alive fun m =>
    if (m.link n.val).widening then
      let was := m.laneSecond n.val
      ((m.modLink n.val fun l =>
        { l with widening := false, peerQuiet := false, standby := 0
                 live := if ok then l.live ||| l.standby else l.live }).resumeLink n.val).lanesChanged n.val was
    else m

/-- A write of 1 to `LNK_LINK_CTRL.HELD` (15 R354). -/
def Mod.heldRelease (m : Mod) (n : Nat) : Mod :=
  (m.setChipFld (offLinkCtrl n) 1 1 0).modLink n fun l => { l with lostLanes := 0 }

/-- LANE_HELD_RELEASE (15 R354): chip space is the PF's. -/
def execLaneHeldRelease (f : Fn) (n : Fin 96) (s : State) : Host.Outcome State Fault Refusal :=
  s.act fun m => m.host fun m => if f = .pf then m.heldRelease n.val else m

end Sys2Proof.Machine
end

