-- ==== Sys2Proof/Machine/TimeSync.lean ====
section
/-!
DEFINITION. Time transfer: DEVTIME kept in agreement along the tree of `LNK_TIME_CTRL` (15 R349 to R351, R356).
-/

namespace Sys2Proof.Machine

def Mod.timeEn (m : Mod) : Bool := getB (m.chipReg offTimeCtrl) 31
def Mod.timeRoot (m : Mod) : Bool := getB (m.chipReg offTimeCtrl) 30
def Mod.timeParent (m : Mod) : Nat := getF (m.chipReg offTimeCtrl) 6 0
def Mod.timeAlt (m : Mod) : Nat := getF (m.chipReg offTimeCtrl) 22 16

/-- Whether a parent link is set and up. -/
def Mod.parentUsable (m : Mod) (n : Nat) : Bool := decide (n < 96) && m.linkUp n

/-- The parent in use by 15 R351: `PARENT`, else `ALT`, else none and holdover, in which `LOCKED` is clear. -/
def Mod.chooseParent (m : Mod) : Mod :=
  let runs := m.timeEn && !m.timeRoot
  let first := m.parentUsable m.timeParent
  let second := m.parentUsable m.timeAlt
  let t := m.time
  { m with time :=
      if !runs then { t with holdover := false, altUsed := false }
      else if first then { t with holdover := false, altUsed := false }
      else if second then { t with holdover := false, altUsed := true }
      else { t with holdover := true, altUsed := false, locked := false, good := 0 } }

/-- DEVTIME with a signed number of nanoseconds added. -/
def addNs (t : Dword) (d : Int) : Dword := t + BitVec.ofInt 64 d

/-- The parent link in use. -/
def Mod.parentLink (m : Mod) : Nat := if m.time.altUsed then m.timeAlt else m.timeParent

/-- A time exchange as its child (15 R349, R350), in units of 0.125 ns: its TIME entry asks, and with the answer the offset is
known. Beyond 1,000 ns and with no reservation open DEVTIME steps; else it slews by at most 100 ppm of the microsecond, by
how much being open (assumption 7). -/
def Mod.timeExchange (m : Mod) (t1 t2 t3 t4 skew : Int) : Mod :=
  let m := m.chooseParent
  if !m.timeEn || m.timeRoot || m.time.holdover then m
  else
    let m := m.send (.linkTime m.parentLink [t1])
    let off := ((t2 - t1) - (t4 - t3)) / 2 - skew
    let near := decide (-16 ≤ off) && decide (off ≤ 16)
    let good := if near then min 10 (m.time.good + 1) else 0
    let m := { m with time := { m.time with offset := off, good := good, locked := m.time.locked || good == 10 } }
    if (off < -8000 ∨ 8000 < off) ∧ m.anyResv = false then
      { m with devtime := addNs m.devtime (off / 8), time := { m.time with subPs := 0 } }.chipFlag offTimeStatus 28
    else
      let (d, m) := m.draw
      let ps : Int := (d % (min 100 (off.natAbs * 125) + 1) : Nat)
      { m with time := { m.time with subPs := m.time.subPs + (if off < 0 then -ps else ps) } }

/-- The answer to a child (15 R349): a TIME entry with the stamps of its request and of the answer, on a link that is up. -/
def Mod.timeAnswer (m : Mod) (n : Nat) (t1 t2 t3 : Int) : Mod :=
  if m.timeEn && m.linkUp n then m.send (.linkTime n [t1, t2, t3]) else m

/-- TIME_EXCHANGE (15 R349). -/
def execTimeExchange (t1 t2 t3 t4 : Int) (role : TimeRole) (s : State) : Host.Outcome State Fault Refusal :=
  s.act fun m => m.alive fun m =>
    match role with
    | .child skew => m.timeExchange t1 t2 t3 t4 skew
    | .parent n => m.timeAnswer n.val t1 t2 t3

/-- The number of an agent: 0 to 65 the functions, 66 to 70 the control cores. -/
def agentIdx : Agent → Nat
  | .fn f => fnIdx f
  | .core i => 66 + i.val

/-- The key of a staged half or a shadow of a 64-bit register: each agent has its own (00 R9). -/
def pairKey (a : Agent) (off : Nat) : Nat := agentIdx a * 2 ^ 40 + off

/-- The commit of `LNK_TIME_SET` (15 R350, R356): on the root, with no reservation open, DEVTIME takes the value; any other
commit is ignored and sets `SET_REFUSED`. -/
def Mod.timeSetCommit (m : Mod) (f : Fn) (hi : Word) : Mod :=
  let lo := Table.get (0 : Word) (pairKey (.fn f) offTimeSet) m.staged
  if m.timeRoot && !m.anyResv then
    { m with devtime := BitVec.ofNat 64 (lo.toNat + hi.toNat * 2 ^ 32), time := { m.time with subPs := 0 } }
  else m.chipFlag offTimeStatus 27

/-- LNK_TIME_SET_COMMIT (15 R350): chip space is the PF's. -/
def execLnkTimeSetCommit (f : Fn) (hi : Word) (s : State) : Host.Outcome State Fault Refusal :=
  s.act fun m => m.host fun m => if f = .pf then m.timeSetCommit f hi else m

/-- TIME_PARENT_LOSS (15 R351): `ALT` is taken, or holdover begins, where the parent in use is down. -/
def execTimeParentLoss (s : State) : Host.Outcome State Fault Refusal := s.act fun m => m.alive fun m => m.chooseParent

/-- `LNK_TIME_STATUS` (15 R356): the offset saturates. -/
def Mod.timeStatus (m : Mod) : Word :=
  let off := max (-0x7FFF) (min 0x7FFF m.time.offset)
  let v := setF (m.chipReg offTimeStatus) 15 0 (off % 65536).toNat
  setB (setB (setB v 31 m.time.locked) 30 m.time.holdover) 29 m.time.altUsed

end Sys2Proof.Machine
end

