-- ==== Sys2Proof/Machine/Kv.lean ====
section
/-!
DEFINITION. The page-walk node: READ and APPEND, the descriptors they push, and what their last descriptor ends (12 R285 to
R291).
-/

namespace Sys2Proof.Machine

/-! ### Failures (12 R291) -/

/-- A node of units 0x05 and 0x06 fails: its raise ends with a status once its running nodes have ended. -/
def Mod.walkFails (m : Mod) (k c node member status detail : Nat) : Mod :=
  (m.markRun k c status detail).worked k c node member

/-- A needed page is not there: the outcome of a READ, or of an APPEND or COMMIT. -/
def Mod.pageFails (m : Mod) (k c node member : Nat) (f : PageFind) (isRead : Bool) : Mod :=
  match f with
  | .lost => m.walkFails k c node member stIntegrity 5
  | _ =>
    if isRead then (m.modPart k fun p => p.flag offKvStatus 31).walkFails k c node member stBadField (0x4000 + node)
    else (m.modPart k fun p => p.flag offKvStatus 30).walkFails k c node member stNoResource node

/-! ### Descriptors (12 R286) -/

/-- The 32 bytes of a page descriptor (12 R286). -/
def pageRaw (g : PageDesc) : List Byte :=
  leBytes 8 g.loc ++ leBytes 8 (g.mask.foldr (fun b a => b2n b + 2 * a) 0) ++ leBytes 2 g.slot ++ zeros 2 ++
    leBytes 4 g.idx ++ leBytes 2 g.seq ++
    leBytes 1 (b2n g.last + 2 * b2n g.zero + 4 * b2n g.write + 8 * b2n g.shadow.isSome) ++ zeros 5

/-- The descriptor of a page of a node's instance. -/
def pageDesc (c node member tw : Nat) (g : PageDesc) : Desc :=
  { owner := .node c node member, srcKind := 0, dstKind := 1, src := g.loc, dst := 0
    len := tw * (g.mask.filter id).length, job := .page g, fault := false, raw := pageRaw g }

/-- Pushes a node's descriptors in order (12 R285, 13 R299); a disabled channel ends the raise (10 R239). -/
def Mod.pushAll (m : Mod) (k ch c node member : Nat) (ds : List Desc) : Mod :=
  if getB ((m.part k).reg (offChCtrl ch)) 0 then m.walkFails k c node member stAborted ch
  else m.forAll (fun m d => m.pushDesc k ch d) ds

/-! ### READ (12 R287 to R289) -/

/-- The descriptors of a READ: the delivered pages, then ZERO slots; the last carries `LAST`. -/
def kvReadDescs (b : List Byte) (seq lt : Nat) (globs idxs locs : List Nat) : List PageDesc :=
  (List.range (kvSlots b)).map fun s =>
    let there := decide (s < idxs.length)
    { loc := locs.getD s 0, mask := if there then kvRowMask (kvWin b) globs lt (idxs.getD s 0) else List.replicate 64 false
      slot := s, idx := idxs.getD s 0, seq := seq, last := s + 1 == kvSlots b, zero := !there, write := false
      shadow := none, lt := lt }

/-- A READ (12 R287 to R289): one descriptor a slot, by the page-table entries and the list read at the start (12 R285). -/
def Mod.kvRead (m : Mod) (k c node member : Nat) (u : Run) (img : List Byte) (e : Ecc) : Mod :=
  let b := nodeBody img node
  match u.kvUse (kvPeg b) member with
  | none => m
  | some x =>
    let (en, lost, m) := m.readEntry k x.seq e
    let globs := Table.get [] (node * 64 + member) u.globs
    let idxs := kvPages (kvWin b) globs en.lt
    if lost then m.walkFails k c node member stIntegrity 5
    else
      match x.find en false idxs with
      | (_, some f) => m.pageFails k c node member f true
      | (locs, none) =>
        (m.modRun k c fun u => { u with lts := Table.set (node * 64 + member) en.lt u.lts }).pushAll k (nodePrio img node % 16)
          c node member ((kvReadDescs b x.seq en.lt globs idxs locs).map (pageDesc c node member (kvTw b)))

/-- KV_READ (12 R287). -/
def execKvRead (k : Fin 64) (c : Fin 16) (node member : Nat) (e : Ecc) (s : State) : Host.Outcome State Fault Refusal :=
  s.act fun m =>
    match m.nodeAt k.val c.val node member with
    | none => m
    | some (u, img, _) =>
      if nodeUnit img node != 5 || kvOp (nodeBody img node) != 1 || (m.part k.val).hasDesc c.val node member || m.shutStands
      then m
      else m.kvRead k.val c.val node member u img e

/-! ### APPEND (12 R290) -/

/-- The descriptors of an APPEND: one for each page its rows fall in. -/
def kvAppendDescs (seq lt n : Nat) (idxs near : List Nat) (shadow : Option (List Nat)) : List PageDesc :=
  (List.range idxs.length).map fun i =>
    let idx := idxs.getD i 0
    { loc := near.getD i 0, mask := (List.range 64).map fun t => decide (lt ≤ 64 * idx + t) && decide (64 * idx + t < lt + n)
      slot := 0, idx := idx, seq := seq, last := i + 1 == idxs.length, zero := false, write := true
      shadow := shadow.map fun l => l.getD i 0, lt := lt }

/-- The tree base of a sequence, latched by the first APPEND that names it (13 R302). -/
def Run.latchBase (u : Run) (peg member lt : Nat) : Run :=
  { u with kv := u.kv.map fun x =>
      if x.peg == peg && x.member == member && x.base.isNone then { x with base := some lt } else x }

/-- An APPEND (12 R290). -/
def Mod.kvAppend (m : Mod) (k c node member : Nat) (u : Run) (img : List Byte) (e : Ecc) : Mod :=
  let b := nodeBody img node
  let ch := nodePrio img node % 16
  let commit := kvFlag b 3
  match u.kvUse (kvPeg b) member with
  | none => m
  | some x =>
    let (en, lost, m) := m.readEntry k x.seq e
    let n := kvApp b
    let full (m : Mod) : Mod := m.pageFails k c node member .absent false
    if lost then m.walkFails k c node member stIntegrity 5
    else if commit && decide (en.lc < en.lt) then m.walkFails k c node member stNotPermitted node
    else if 64 * en.pages < en.lt + n then full m
    else
      let idxs := pageRange en.lt (en.lt + n)
      let both := commit && en.shadow
      match x.find en false idxs, if both then x.find en true idxs else ([], none) with
      | (_, some f), _ | _, (_, some f) => m.pageFails k c node member f false
      | (near, none), (shad, none) =>
        (m.modRun k c fun u => u.latchBase (kvPeg b) member en.lt).pushAll k ch c node member
          ((kvAppendDescs x.seq en.lt n idxs near (if both then some shad else none)).map (pageDesc c node member (kvTw b)))

/-- KV_APPEND (12 R290). -/
def execKvAppend (k : Fin 64) (c : Fin 16) (node member : Nat) (e : Ecc) (s : State) : Host.Outcome State Fault Refusal :=
  s.act fun m =>
    match m.nodeAt k.val c.val node member with
    | none => m
    | some (u, img, _) =>
      if nodeUnit img node != 5 || kvOp (nodeBody img node) != 2 || (m.part k.val).hasDesc c.val node member || m.shutStands ||
        (m.part k.val).mirrorWait.any fun w => w.ctx == c.val && w.node == node && w.member == member
      then m
      else m.kvAppend k.val c.val node member u img e

/-! ### The end of a walk (12 R285, R290) -/

/-- The last row of an APPEND stands in its page (12 R290): `LT` advances, and with `COMMIT` `LC` and `SLC`. -/
def Mod.appendDone (m : Mod) (k c node member : Nat) (u : Run) (b : List Byte) (g : PageDesc) : Mod :=
  let (en, _, m) := m.readEntry k g.seq .clean
  let lt := g.lt + kvApp b
  if kvFlag b 3 then
    let pages := match u.kvUse (kvPeg b) member with
      | some x => (x.find en false (pageRange en.lc lt)).1
      | none => []
    m.mirrorCommit k { ctx := c, node := node, member := member, seq := g.seq, lc := lt, lt := lt, shadow := en.shadow, count := 0 }
      en.lc en pages none
  else (m.writeEntry k g.seq en.lc lt none).worked k c node member

/-- A page descriptor of a running node has ended: with the last one the node has done its work. -/
def Mod.pageEnd (m : Mod) (k c node member : Nat) (g : PageDesc) : Mod :=
  match m.nodeAt k c node member with
  | some (u, img, _) =>
    if !g.last then m
    else if g.write then m.appendDone k c node member u (nodeBody img node) g
    else m.worked k c node member
  | none => m

end Sys2Proof.Machine
end

