-- ==== Sys2Proof/Machine/Spec.lean ====
section
/-!
DEFINITION. The speculation node: tree masks, acceptance, commit, rollback and reconciliation, what the lane does at the
start of a raise, and the units of every DMA head (13 R299 to R313; 10 R229).
-/

namespace Sys2Proof.Machine

/-! ### The start of a raise (13 R303, R310) -/

/-- The first node of a frame with an operation of `ops`. -/
def specNode (img : List Byte) (ops : List Nat) : Option Nat :=
  (List.range (frameNodes img)).find? fun i => nodeUnit img i == 6 && ops.contains (specOp (nodeBody img i))

/-- A record that breaks its layout ends the raise at its start. -/
def Mod.badRecord (m : Mod) (k peg : Nat) : Option (Nat × Nat) × Mod :=
  (some (stBadField, 0x100 + peg), m.modPart k fun p => p.flag offSpecStatus 31)

/-- What a record in a peg of node `i` meets as the lane reads it at the start, or reads and writes it (13 R302, R303):
an address in a compressed view breaks R302; a range that its descriptor may not use is a bus error of cause 3
(10 R237, 14 R319). -/
def Mod.recordStart (m : Mod) (k c i : Nat) (img : List Byte) (mb : Member) (peg n : Nat) (write : Bool) :
    Option (Nat × Nat) × Mod :=
  let ch := nodePrio img i % 16
  if compressed (mb.addr peg) then m.badRecord k peg
  else if m.recordOk k ch c (mb.addr peg) n write then (none, m)
  else (some (stNotPermitted, ch), m.engineStops k ch 3 false 0)

/-- The first failure of some checks in turn. -/
def Mod.firstFails (m : Mod) : List (Mod → Option (Nat × Nat) × Mod) → Option (Nat × Nat) × Mod
  | [] => (none, m)
  | f :: fs =>
    match f m with
    | (none, m) => m.firstFails fs
    | x => x

/-- The tree of a member at the start of its raise (13 R303): what ends the raise, whether the tree was replaced. -/
def Mod.treeStart (m : Mod) (k c : Nat) (img : List Byte) (mb : Member) (e : Ecc) : Option (Nat × Nat) × Bool × Mod :=
  match specNode img [1, 2, 3] with
  | none => (none, false, m)
  | some i =>
    let b := nodeBody img i
    let acc := specNode img [2]
    match m.firstFails [
        fun m => if specChain b then m.recordStart k c i img mb (specPrev b) recBytes false else (none, m),
        fun m => m.recordStart k c i img mb (specTree b) recBytes true,
        fun m => match acc with
          | some j => m.recordStart k c j img mb (specAcc (nodeBody img j)) recBytes true
          | none => (none, m)] with
    | (some x, m) => (some x, false, m)
    | (none, m) =>
      let key := m.memKey k
      let (prev, lost1, m) := if specChain b then m.unitRec k key mb (specPrev b) e else ([], false, m)
      let (tree, lost2, m) := m.unitRec k key mb (specTree b) (if specChain b then .clean else e)
      if lost1 || lost2 then (some (stIntegrity, 5), false, m)
      else if specChain b && !accOk prev then let x := m.badRecord k (specPrev b); (x.1, false, x.2)
      else if !treeOk (specNmax b) tree then let x := m.badRecord k (specTree b); (x.1, false, x.2)
      else
        let wrong := specChain b && (treeToken tree 0 != recBonus prev || recStamp tree != (recStamp prev + 1) % 2 ^ 32)
        let tree := if wrong then singleTree (recStamp tree) (recBonus prev) else tree
        let m := if wrong then (m.memWrite k key (mb.loc (specTree b)) tree [] .clean).modPart k fun p =>
          p.count offSpecStatus 30 24 else m
        let m := m.memWrite k key (mb.loc (specTree b) + 384) ((treeDepths tree).flatMap fun d => leBytes 1 d) [] .clean
        let m := match acc with
          | some j => m.memWrite k key (mb.loc (specAcc (nodeBody img j)) + 1) [0] [] .clean
          | none => m
        (none, wrong, m)

/-- The records of every RECONCILE of a member at the start of its raise (13 R310): what ends the raise, and the records
by instance. -/
def Mod.reconcileStart (m : Mod) (k c : Nat) (img : List Byte) (mb : Member) (member : Nat) (e : Ecc) :
    Option (Nat × Nat) × Table (List Byte × List Byte) × Mod :=
  (List.range (frameNodes img)).foldl (fun (acc : Option (Nat × Nat) × Table (List Byte × List Byte) × Mod) i =>
    let b := nodeBody img i
    if acc.1.isSome || nodeUnit img i != 6 || specOp b != 5 then acc
    else
      match acc.2.2.firstFails [
          fun m => m.recordStart k c i img mb (specPrev b) recBytes false,
          fun m => m.recordStart k c i img mb (specAcc b) recBytes false] with
      | (some x, m) => (some x, acc.2.1, m)
      | (none, m) =>
        let key := m.memKey k
        let (a, lost1, m) := m.unitRec k key mb (specPrev b) e
        let (g, lost2, m) := m.unitRec k key mb (specAcc b) .clean
        if lost1 || lost2 then (some (stIntegrity, 5), acc.2.1, m)
        else if !accOk a then let x := m.badRecord k (specPrev b); (x.1, acc.2.1, x.2)
        else if !recOk g || decide (specNmax b < recA g) then let x := m.badRecord k (specAcc b); (x.1, acc.2.1, x.2)
        else (none, Table.set (i * 64 + member) (a, g) acc.2.1, m)) (none, [], m)

/-! ### Acting -/

/-- A speculation node that may act: its operation, and nothing of it under way (13 R299); a node whose descriptors stand on
its channel, or that waits for the sister, has acted. -/
def Mod.specAct (m : Mod) (k c node member op : Nat) (f : Mod → Run → List Byte → Member → Mod) : Mod :=
  match m.nodeAt k c node member with
  | none => m
  | some (u, img, mb) =>
    if nodeUnit img node != 6 || specOp (nodeBody img node) != op || m.shutStands || (m.part k).hasDesc c node member ||
      (m.part k).mirrorWait.any (fun w => w.ctx == c && w.node == node && w.member == member) then m
    else f m u img mb

/-- A descriptor of the lane between two sides, laid out as R226 lays one out (DESIGN CHOICE, assumption 51). -/
def laneDesc (c node member srcKind dstKind src dst len : Nat) (job : DescJob) : Desc :=
  { owner := .node c node member, srcKind := srcKind, dstKind := dstKind, src := src, dst := dst, len := len, job := job
    fault := false
    raw := leBytes 1 srcKind ++ leBytes 1 dstKind ++ zeros 2 ++ leBytes 4 len ++ leBytes 8 src ++ leBytes 8 dst ++ zeros 8 }

/-- A MASK (13 R305): one descriptor from the tree record to the mask region. -/
def Mod.specMask (m : Mod) (k c node member : Nat) (u : Run) (img : List Byte) (mb : Member) : Mod :=
  let b := nodeBody img node
  m.pushAll k (nodePrio img node % 16) c node member
    [laneDesc c node member 0 1 (mb.loc (specTree b)) (ownLoc (specStore b) (u.phys img (nodeTruss img node)) (specRow b member))
      (specNmax b * kvSlots (nodeBody img (specRef b)) * 256) .mask]

/-- SPEC_MASK (13 R305). -/
def execSpecMask (k : Fin 64) (c : Fin 16) (node member : Nat) (s : State) : Host.Outcome State Fault Refusal :=
  s.act fun m => m.specAct k.val c.val node member 1 fun m u img mb => m.specMask k.val c.val node member u img mb

/-- An ACCEPT (13 R306): one descriptor of the 1,024 bytes of R312, from the choices to the acceptance record. -/
def Mod.specAccept (m : Mod) (k c node member : Nat) (u : Run) (img : List Byte) (mb : Member) : Mod :=
  let b := nodeBody img node
  m.pushAll k (nodePrio img node % 16) c node member
    [laneDesc c node member 1 0 (ownLoc (specStore b) (u.phys img (nodeTruss img node)) (specRow b member)) (mb.loc (specAcc b))
      1024 .accept]

/-- SPEC_ACCEPT (13 R306). -/
def execSpecAccept (k : Fin 64) (c : Fin 16) (node member : Nat) (s : State) : Host.Outcome State Fault Refusal :=
  s.act fun m => m.specAct k.val c.val node member 2 fun m u img mb => m.specAccept k.val c.val node member u img mb

/-- The copies of token rows, source and destination, as descriptors of a lane; the last one ends the node. -/
def rowDescs (c node member tw : Nat) (copies : List (Nat × Nat)) : List Desc :=
  (List.range copies.length).map fun i =>
    let x := copies.getD i (0, 0)
    laneDesc c node member 0 0 x.1 x.2 tw (.row (i + 1 == copies.length))

/-- Where token row `t` stands, in pages whose list begins at the page of `a`. -/
def rowLoc (tw : Nat) (pages : List Nat) (a t : Nat) : Nat := pages.getD (t / 64 - a / 64) 0 + t % 64 * tw

/-- The copies of rows `a` to `b - 1` into the shadow pages (12 R296). -/
def shadowCopies (tw : Nat) (near shad : List Nat) (a b : Nat) : List (Nat × Nat) :=
  (List.range (b - a)).map fun i => (rowLoc tw near a (a + i), rowLoc tw shad a (a + i))

/-- The tree base of a sequence of a run, and the record of the ACCEPT that a COMMIT names (13 R302, R308). -/
def Run.commitRec (u : Run) (b : List Byte) (member : Nat) (x : KvUse) : Nat × List Byte :=
  (x.base.getD 0, (u.rec' (specRef b) member).1)

/-- The rows of a COMMIT are in place (13 R308, step 4): the entry write, or the wait for the standby. -/
def Mod.commitEnd (m : Mod) (k c node member : Nat) (u : Run) (img : List Byte) (mb : Member) : Mod :=
  let b := nodeBody img node
  match u.kvUse (specPeg b) member with
  | none => m
  | some x =>
    let (en, _, m) := m.readEntry k x.seq .clean
    let (base, r) := u.commitRec b member x
    let top := base + recA r
    let near := (x.find en false (pageRange base top)).1
    m.mirrorCommit k { ctx := c, node := node, member := member, seq := x.seq, lc := top, lt := top, shadow := en.shadow,
                       count := recA r } base en near
      (some (mb.loc (specAcc (nodeBody img (specRef b))), r))

/-- A COMMIT (13 R308): its checks, then its copies, near before shadow, and with the last of them the entry write. -/
def Mod.specCommit (m : Mod) (k c node member : Nat) (u : Run) (img : List Byte) (mb : Member) (e : Ecc) : Mod :=
  let b := nodeBody img node
  match u.kvUse (specPeg b) member with
  | none => m
  | some x =>
    let (en, lost, m) := m.readEntry k x.seq e
    let (base, r) := u.commitRec b member x
    let n := recA r
    let moves := (List.range n).filter fun j => decide (1 ≤ j) && recPath r j != j
    if lost then m.walkFails k c node member stIntegrity 5
    else if en.lc != base || en.lt != base + specNmax b then m.walkFails k c node member stNotPermitted node
    else
      let top := (moves.map fun j => recPath r j + 1).foldl max (if en.shadow || !moves.isEmpty then n else 0)
      match x.find en false (pageRange base (base + top)), if en.shadow then x.find en true (pageRange base (base + n)) else ([], none)
        with
      | (_, some f), _ | _, (_, some f) => m.pageFails k c node member f false
      | (near, none), (shad, none) =>
        let copies := (moves.map fun j => (rowLoc en.tw near base (base + recPath r j), rowLoc en.tw near base (base + j))) ++
          (if en.shadow then shadowCopies en.tw near shad base (base + n) else [])
        if copies.isEmpty then m.commitEnd k c node member u img mb
        else m.pushAll k (nodePrio img node % 16) c node member (rowDescs c node member en.tw copies)

/-- SPEC_COMMIT (13 R308). -/
def execSpecCommit (k : Fin 64) (c : Fin 16) (node member : Nat) (e : Ecc) (s : State) : Host.Outcome State Fault Refusal :=
  s.act fun m => m.specAct k.val c.val node member 3 fun m u img mb => m.specCommit k.val c.val node member u img mb e

/-- A ROLLBACK (13 R309). -/
def Mod.specRollback (m : Mod) (k c node member : Nat) (u : Run) (img : List Byte) : Mod :=
  match u.kvUse (specPeg (nodeBody img node)) member with
  | none => m
  | some x =>
    let (en, lost, m) := m.readEntry k x.seq .clean
    if lost then m.walkFails k c node member stIntegrity 5
    else (m.writeEntry k x.seq en.lc en.lc none).worked k c node member

/-- SPEC_ROLLBACK (13 R309). -/
def execSpecRollback (k : Fin 64) (c : Fin 16) (node member : Nat) (s : State) : Host.Outcome State Fault Refusal :=
  s.act fun m => m.specAct k.val c.val node member 4 fun m u img _ => m.specRollback k.val c.val node member u img

/-- The outcomes of a RECONCILE (13 R311): new `LC`, new `LT`, and whether it counts as a mismatch. -/
def reconcile (lc lt : Nat) (a g : List Byte) : Nat × Nat × Bool :=
  let same (j : Nat) : Bool := recTok a j == recTok g j
  let p := ((List.range (min (recA a) (recA g))).takeWhile same).length
  if recBase g != recBase a || decide (recBase g < lc) || decide (lt < recBase g + recA g) then (lc, lc, true)
  else if recA g == recA a && p == recA a && recBonus g == recBonus a then (recBase a + recA a, lt, false)
  else (max lc (recBase a + p), max lc (recBase a + p), true)

/-- The rows of a RECONCILE are in place (13 R311): the count of a mismatch and the entry write, or the wait for the standby. -/
def Mod.reconcileEnd (m : Mod) (k c node member : Nat) (u : Run) (img : List Byte) : Mod :=
  match u.kvUse (specPeg (nodeBody img node)) member with
  | none => m
  | some x =>
    let (a, g) := u.rec' node member
    let (en, _, m) := m.readEntry k x.seq .clean
    let (lc, lt, miss) := reconcile en.lc en.lt a g
    let m := if miss then m.modPart k fun p => p.count offSpecStatus 23 16 else m
    if en.lc < lc then
      m.mirrorCommit k { ctx := c, node := node, member := member, seq := x.seq, lc := lc, lt := lt, shadow := en.shadow, count := 0 }
        en.lc en (x.find en false (pageRange en.lc lc)).1 none
    else (m.writeEntry k x.seq lc lt none).worked k c node member

/-- A RECONCILE (13 R311): the shadow copies, and with the last of them the entry write. -/
def Mod.specReconcile (m : Mod) (k c node member : Nat) (u : Run) (img : List Byte) (e : Ecc) : Mod :=
  match u.kvUse (specPeg (nodeBody img node)) member with
  | none => m
  | some x =>
    let (a, g) := u.rec' node member
    let (en, lost, m) := m.readEntry k x.seq e
    let lc := (reconcile en.lc en.lt a g).1
    let idxs := if en.shadow then pageRange en.lc lc else []
    if lost then m.walkFails k c node member stIntegrity 5
    else
      match x.find en false idxs, x.find en true idxs with
      | (_, some f), _ | _, (_, some f) => m.pageFails k c node member f false
      | (near, none), (shad, none) =>
        let copies := if en.shadow then shadowCopies en.tw near shad en.lc lc else []
        if copies.isEmpty then m.reconcileEnd k c node member u img
        else m.pushAll k (nodePrio img node % 16) c node member (rowDescs c node member en.tw copies)

/-- SPEC_RECONCILE (13 R311). -/
def execSpecReconcile (k : Fin 64) (c : Fin 16) (node member : Nat) (e : Ecc) (s : State) :
    Host.Outcome State Fault Refusal :=
  s.act fun m => m.specAct k.val c.val node member 5 fun m u img _ => m.specReconcile k.val c.val node member u img e

/-! ### Units (10 R229, 12 R285, 13 R299) -/

/-- The last copy of a COMMIT or a RECONCILE is in place. -/
def Mod.rowEnd (m : Mod) (k c node member : Nat) : Mod :=
  match m.nodeAt k c node member with
  | some (u, img, mb) =>
    if specOp (nodeBody img node) = 3 then m.commitEnd k c node member u img mb else m.reconcileEnd k c node member u img
  | none => m

/-- A descriptor of the lane has ended: what its node does next. -/
def Mod.laneEnd (m : Mod) (k : Nat) (d : Desc) : Mod :=
  match d.job, d.owner with
  | .page g, .node c node member => m.pageEnd k c node member g
  | .row true, .node c node member => m.rowEnd k c node member
  | .mask, .node c node member | .accept, .node c node member =>
    if (m.nodeAt k c node member).isSome then m.worked k c node member else m
  | .row _, _ | .sides, _ | .page _, _ | .mask, _ | .accept, _ => m

/-- DMA_UNIT_WRITTEN (10 R229): the next unit of a channel's head is read, moved and written. -/
def execDmaUnitWritten (k : Fin 64) (ch : Fin 16) (e : UnitEcc) (s : State) : Host.Outcome State Fault Refusal :=
  s.act fun m =>
    match ((m.part k.val).chan ch.val).queue.head? with
    | none => m
    | some d =>
      if m.unitMoves k.val ch.val then
        let r := m.unitStep k.val ch.val d e
        if r.1 then r.2.laneEnd k.val d else r.2
      else m

end Sys2Proof.Machine
end

