-- ==== Sys2Proof/Machine/Aperture.lean ====
section
/-!
DEFINITION. The host aperture over the scratchpads (10 R236, R247).
-/

namespace Sys2Proof.Machine

def Partition.selStore (p : Partition) : Nat := getF (p.reg offHostSel) 2 1
def Partition.selTruss (p : Partition) : Nat := getF (p.reg offHostSel) 3 3
def Partition.selRow (p : Partition) : Nat := getF (p.reg offHostSel) 30 17

/-- Words gathered so far are lost, and `LOST` says so (10 R236). -/
def Partition.loseGather (p : Partition) : Partition :=
  if p.gather.isSome then { p.flag offHostSel 31 with gather := none } else p

/-- A write of DMA_HOST_SEL (10 R236, R247). -/
def Partition.hostSelWrite (p : Partition) (value : Word) : Partition :=
  let old := p.reg offHostSel
  let v := setF (setF old 30 17 (getF value 30 17)) 3 1 (getF value 3 1)
  let p := p.setReg offHostSel (if getB value 31 then setB v 31 false else v)
  if v = old then p else p.loseGather

/-- DMA_HOST_SEL_WRITE (10 R236). -/
def execDmaHostSelWrite (f : Fn) (k : Fin 64) (value : Word) (s : State) : Host.Outcome State Fault Refusal :=
  s.act fun m => m.host fun m =>
    if m.writable f k.val then m.modPart k.val fun p => p.hostSelWrite value else m

/-- Whether the port of a store has a rotation position that no window holds (10 R232): host accesses use those only. -/
def Partition.apFree (p : Partition) (st t : Nat) : Bool := decide (((p.portWindows st t 16).map winShares).sum < 16)

/-- The pieces of an aperture access by row, from row `base` of store `st`: offset in the access, length, row, first byte in
the row; bytes beyond the store have none. -/
def apPieces (st base off n : Nat) : List (Nat × Nat × Nat × Nat) :=
  let w := rowBytes st
  if st = 3 ∨ n = 0 then []
  else
    (List.range ((off + n - 1) / w + 1 - off / w)).filterMap fun i =>
      let r := off / w + i
      let lo := max off (w * r)
      let hi := min (off + n) (w * r + w)
      if base + r < storeRows st then some (lo - off, hi - lo, base + r, lo - w * r) else none

/-- An aperture read of store `st` of a truss from row `base` (10 R236, R220): with EP and data bytes 0 where a word is
uncorrectable. -/
def Mod.apRead (m : Mod) (k st t base off n : Nat) (e : Ecc) : Mod :=
  let r := (apPieces st base off n).foldl
    (fun (acc : List (Nat × List Byte) × Bool × Ecc × Mod) (c : Nat × Nat × Nat × Nat) =>
      let (pc, m) := acc.2.2.2.scratchRead k t st (c.2.2.1 * rowBytes st + c.2.2.2) c.2.1 acc.2.2.1
      (acc.1 ++ [(c.1, pc.bytes)], acc.2.1 || pc.err, .clean, m)) ([], false, e, m)
  let data := if r.2.1 then zeros n
    else r.1.foldl (fun bs c => bs.take c.1 ++ c.2 ++ bs.drop (c.1 + c.2.length)) (zeros n)
  { r.2.2.2 with read := some { bytes := data, ep := r.2.1 } }

/-- Whether a commit reads some byte of 8-byte word `w` of its row: a touched word that the gathered bytes do not cover
whole. -/
def mergesIn (bytes : Table Byte) (w : Nat) : Bool :=
  (bytes.any fun (b : Nat × Byte) => b.1 / 8 == w) && !(List.range 8).all fun i => (Table.find (8 * w + i) bytes).isSome

/-- The commit of a gathered row (10 R236, R220): every touched word is written, its uncovered bytes as they stand; where
a word read for that has a bad code the write is lost and `UNCORR` set. -/
def Mod.apCommit (m : Mod) (k st t row : Nat) (bytes : Table Byte) (e : Ecc) : Mod :=
  let at' := row * rowBytes st
  let reads := (List.range (rowBytes st / 8)).filter (mergesIn bytes)
  let m := match e, reads with
    | .corrected, _ :: _ => m.modPart k fun p => p.count offSpEcc 15 0
    | .uncorrectable, w :: _ => m.modPart k fun p => p.modTruss t fun u => u.spoil st (at' / 8 + w)
    | _, _ => m
  let u := (m.part k).truss t
  if reads.any fun w => (u.bad st).contains (at' / 8 + w) then m.modPart k fun p => p.flag offSpEcc 31
  else
    let whole := (List.range (rowBytes st / 8)).filter fun w => (bytes.any fun (b : Nat × Byte) => b.1 / 8 == w)
    m.modPart k fun p => p.modTruss t fun u =>
      whole.foldl (fun (u : Truss) w =>
        u.write st (at' + 8 * w) ((List.range 8).map fun i =>
          Table.get (Sparse.get (at' + 8 * w + i) (u.cells st)) (8 * w + i) bytes)) u

/-- A host access acts. -/
def Mod.apAct (m : Mod) (k : Nat) (a : ApWait) : Mod :=
  match a with
  | .read st t base off n e => m.apRead k st t base off n e
  | .commit st t row bytes e => m.apCommit k st t row bytes e

/-- Whether a host access finds a free position of its port. -/
def Partition.apReady (p : Partition) (a : ApWait) : Bool :=
  match a with
  | .read st t _ _ _ _ | .commit st t _ _ _ => p.apFree st t

/-- A host access: at once, or behind those that wait for a free position (10 R232, R236). -/
def Mod.apRequest (m : Mod) (k : Nat) (a : ApWait) : Mod :=
  let p := m.part k
  if p.apQueue.isEmpty && p.apReady a then m.apAct k a else m.modPart k fun p => { p with apQueue := p.apQueue ++ [a] }

/-- Waiting host accesses act in order, as far as they find free positions. -/
def Mod.apDrain (m : Mod) (k : Nat) : Mod :=
  m.forAll (fun m _ =>
    let p := m.part k
    match p.apQueue with
    | a :: as => if p.apReady a then (m.modPart k fun p => { p with apQueue := as }).apAct k a else m
    | [] => m) (m.part k).apQueue

/-- HOST_APERTURE_READ (10 R236); from a partition that does not exist or is under reset every byte reads 0. -/
def execHostApertureRead (k : Fin 64) (off : Fin 4194304) (len : Nat) (e : Ecc) (s : State) :
    Host.Outcome State Fault Refusal :=
  s.act fun m => m.host fun m =>
    let p := m.part k.val
    if m.bar2Open k.val then m.apRequest k.val (.read p.selStore p.selTruss p.selRow off.val len e)
    else if m.vfExists k.val then { m with read := some { bytes := zeros len, ep := false } }
    else m

/-- An aperture write to one row (10 R236): gathered, and committed by a write that covers some byte of the row's last
word. -/
def Mod.apWriteRow (m : Mod) (k row lo : Nat) (data : List Byte) (e : Ecc) : Mod :=
  let m := m.modPart k fun p => match p.gather with
    | some g => if g.row = row then p else p.loseGather
    | none => p
  let p := m.part k
  let old := match p.gather with
    | some g => g.bytes
    | none => []
  let bytes := (List.range data.length).foldl (fun t i => Table.set (lo + i) (data.getD i 0) t) old
  let w := rowBytes p.selStore
  if w - 4 < lo + data.length then
    (m.modPart k fun p => { p with gather := none }).apRequest k (.commit p.selStore p.selTruss row bytes e)
  else m.modPart k fun p => { p with gather := some { row := row, bytes := bytes } }

/-- An aperture write, row by row in ascending order (10 R236). -/
def Mod.apWrite (m : Mod) (k off : Nat) (data : List Byte) (e : Ecc) : Mod :=
  let p := m.part k
  m.forAll (fun m (c : Nat × Nat × Nat × Nat) => m.apWriteRow k c.2.2.1 c.2.2.2 ((data.drop c.1).take c.2.1) e)
    (apPieces p.selStore p.selRow off data.length)

/-- HOST_APERTURE_WRITE (10 R236). -/
def execHostApertureWrite (k : Fin 64) (off : Fin 4194304) (data : List Byte) (e : Ecc) (s : State) :
    Host.Outcome State Fault Refusal :=
  s.actWrite data fun m => m.host fun m => if m.bar2Open k.val then m.apWrite k.val off.val data e else m

/-- DMA_WIN_CLOSE_DONE (10 R234): once no accepted unit is left, `OPEN` and `CLOSE` read 0, and host accesses take the
positions that come free (R232). -/
def execDmaWinCloseDone (k : Fin 64) (w : Fin 16) (s : State) : Host.Outcome State Fault Refusal :=
  s.act fun m => m.alive fun m =>
    if getB ((m.part k.val).win w.val) 30 && !m.winBusy k.val w.val then
      (m.modPart k.val fun p => p.setFld (offWinCtrl w.val) 31 30 0).apDrain k.val
    else m

end Sys2Proof.Machine
end

