-- ==== Sys2Proof/Machine/Shards.lean ====
section
/-!
DEFINITION. Weight shards: SHARD_ATTACH and the background scrub (14 R315 to R324).
-/

namespace Sys2Proof.Machine

/-! ### Requests (14 R317) -/

def shOp (pl : List Byte) : Nat := fld pl 0 1
def shSlot (pl : List Byte) : Nat := fld pl 1 1
def shCtx (pl : List Byte) : Nat := fld pl 2 2
def shSrcSlot (pl : List Byte) : Nat := fld pl 4 1
def shMove (pl : List Byte) : Bool := bit (fld pl 5 1) 0
def shLoc (pl : List Byte) : Nat := fld pl 8 8
def shLen (pl : List Byte) : Nat := fld pl 16 8

/-- Shard slot `i` of a partition, none where it is free. -/
def Partition.shard (p : Partition) (i : Nat) : Option Shard := Table.find i p.shards

/-- Slot `i` where it holds a shard of context `c` whose transfer is not under way. -/
def Partition.shardOf (p : Partition) (c i : Nat) : Option Shard :=
  match p.shard i with
  | some s => if s.ctx = c ∧ s.state ≠ .pending then some s else none
  | none => none

/-- Check 1 of 14 R317. -/
def Mod.shardFields (m : Mod) (r : Request) : Option (Nat × Nat) :=
  let pl := r.payload
  let op := shOp pl
  let x := shCtx pl
  let src := (m.part (x / 16)).shardOf (x % 16) (shSrcSlot pl)
  fieldBad [(!([1, 2, 3].contains op), 0), (decide (64 ≤ shSlot pl), 1), (!ownsCtx r.fn x, 2),
    (if op = 2 then decide (64 ≤ shSrcSlot pl) else shSrcSlot pl != 0, 4),
    (if op = 2 then decide (2 ≤ fld pl 5 1) else fld pl 5 1 != 0, 5), (fld pl 6 2 != 0, 6),
    (if op = 3 then shLoc pl != 0 else shLoc pl % 4096 != 0, 8),
    (if op = 1 then !(decide (4096 ≤ shLen pl) && decide (shLen pl ≤ 2 ^ 32) && shLen pl % 4096 == 0)
     else if op = 2 then (match src with
      | some s => shLen pl != s.len
      | none => false)
     else shLen pl != 0, 16),
    (if op = 1 then fld pl 24 8 % 64 != 0 else fld pl 24 8 != 0, 24),
    (op != 1 && !allZero (slice pl 32 48), 32), (!allZero (slice pl 80 16), 80)]

/-- Whether a context is in use in the sense of check 6 of 14 R317. -/
def Partition.ctxBusy (p : Partition) (c : Nat) : Bool :=
  !(p.ctx c).started.isEmpty || p.resvs.any fun e => !e.2.closed && e.2.ctxNo == c

/-- Checks 2 to 7 of 14 R317. -/
def Mod.shardBad (m : Mod) (r : Request) : Option (Nat × Nat) :=
  let pl := r.payload
  let op := shOp pl
  let c := shCtx pl % 16
  let p := m.part (shCtx pl / 16)
  let range (f : Nat → Nat → Bool) : Bool := op != 3 && f (shLoc pl) (shLen pl)
  firstBad [
    (!p.created || !(p.ctx c).created || (op == 2 && (p.shardOf c (shSrcSlot pl)).isNone) ||
      (op == 3 && (p.shardOf c (shSlot pl)).isNone), stNotPermitted, 1),
    (op != 3 && (p.shard (shSlot pl)).isSome, stNotPermitted, 2),
    (range fun loc n => !plainTenant loc n || p.meetsRegion loc n, stBadField, 8),
    (range fun loc n => !(p.shardsAt loc n).isEmpty, stNotPermitted, 3),
    ((op == 3 || (op == 2 && shMove pl)) && p.ctxBusy c, stNotPermitted, 4),
    (op == 2 && (match p.shardOf c (shSrcSlot pl) with
      | some s => s.state == .bad
      | none => false), stIntegrity, 4)]

/-- Bytes of one descriptor of a transfer: at most 2^31 (10 R226). -/
def shardPiece : Nat := 2 ^ 31

/-- The descriptors of a transfer of `len` bytes (14 R318). -/
def shardDescs (slot srcKind src dst len : Nat) : List Desc :=
  (List.range (ceilDiv len shardPiece)).map fun i =>
    let n := min shardPiece (len - shardPiece * i)
    { owner := .shard slot, srcKind := srcKind, dstKind := 0, src := src + shardPiece * i, dst := dst + shardPiece * i
      len := n, job := .sides, fault := false
      raw := leBytes 1 srcKind ++ zeros 3 ++ leBytes 4 n ++ leBytes 8 (src + shardPiece * i) ++
        leBytes 8 (dst + shardPiece * i) ++ zeros 8 }

/-- An accepted FETCH or COPY (14 R318): the slot is PENDING, its descriptors go to channel 15, and the request is held. -/
def Mod.shardAttach (m : Mod) (r : Request) : Mod :=
  m.judge r (orBad (m.shardFields r) (m.shardBad r)) fun m =>
    let pl := r.payload
    let k := shCtx pl / 16
    let c := shCtx pl % 16
    let src := (m.part k).shardOf c (shSrcSlot pl)
    let copy := shOp pl == 2
    let s : Shard :=
      { ctx := c, loc := shLoc pl, len := shLen pl
        digest := match (if copy then src else none) with
          | some x => x.digest
          | none => slice pl 32 48
        state := .pending, move := if copy && shMove pl then some (shSrcSlot pl) else none, failed := none, arrived := false
        hashed := [], fn := r.fn }
    let from' := match (if copy then src else none) with
      | some x => x.loc
      | none => fld pl 24 8
    let m := m.modPart k fun p => { p with shards := Table.set (shSlot pl) s p.shards }
    (m.forAll (fun m d => m.pushDesc k 15 d) (shardDescs (shSlot pl) (if copy then 0 else 3) from' s.loc s.len)).hold r

/-- SHARD_FETCH (14 R318); a request whose `OP` names no operation is refused here. -/
def execShardFetch (f : Fn) (s : State) : Host.Outcome State Fault Refusal :=
  s.act fun m => m.mbxRow f 0x40 (fun r => shOp r.payload != 2 && shOp r.payload != 3) Mod.shardAttach

/-- SHARD_COPY (14 R318). -/
def execShardCopy (f : Fn) (s : State) : Host.Outcome State Fault Refusal :=
  s.act fun m => m.mbxRow f 0x40 (fun r => shOp r.payload == 2) Mod.shardAttach

/-- The next slot from `i` on that a pass takes: ATTACHED. -/
def Mod.nextScrub (m : Mod) (k i : Nat) : Option Nat :=
  ((m.part k).shards.find? fun (e : Nat × Shard) => decide (i ≤ e.1) && e.2.state == .attached).map (·.1)

/-- The pass goes on with the next slot from `i` on, whose hash latches the memory key (17 R382), or it ends. -/
def Mod.scrubFrom (m : Mod) (k i : Nat) : Mod :=
  match m.nextScrub k i with
  | some slot =>
    let m := m.modPart k fun p => { p with scrub := some { slot := some slot } }
    (match (m.part k).shard slot, m.memVersion k with
     | some s, some v => if isExt s.loc then m.keyUse v.1 v.2 (.scrub k) else m
     | _, _ => m)
  | none => m.modPart k fun p => ({ p with scrub := none }.count offShardStatus 15 0).setFld offShardScrub 31 31 0

/-- A shard slot is free; a hash of it is abandoned, and the pass goes on behind it (14 R321). -/
def Mod.freeShard (m : Mod) (k slot : Nat) : Mod :=
  let hashing : Bool := match (m.part k).scrub with
    | some z => z.slot == some slot
    | none => false
  let m := m.modPart k fun p => { p with shards := Table.erase slot p.shards }
  if hashing then (m.keyRelease fun u => u == .scrub k).scrubFrom k (slot + 1) else m

/-- The 16 bytes of an answer (14 R317). -/
def shardAnswer (slot loc : Nat) (now : Dword) : List Byte :=
  leBytes 1 slot ++ leBytes 1 (b2n (isExt loc)) ++ zeros 6 ++ leBytes 8 now.toNat

/-- DETACH (14 R317). -/
def Mod.shardDetach (m : Mod) (r : Request) : Mod :=
  m.judge r (orBad (m.shardFields r) (m.shardBad r)) fun m =>
    let k := shCtx r.payload / 16
    let slot := shSlot r.payload
    let loc := match (m.part k).shard slot with
      | some s => s.loc
      | none => 0
    (m.freeShard k slot).respond r stOk 0 (shardAnswer slot loc m.devtime)

/-- SHARD_DETACH (14 R317). -/
def execShardDetach (f : Fn) (s : State) : Host.Outcome State Fault Refusal :=
  s.act fun m => m.mbxRow f 0x40 (fun r => shOp r.payload == 3) Mod.shardDetach

/-! ### The end of an attachment (14 R317, R318) -/

/-- The descriptors of a shard's transfer leave channel 15 (14 R317, checks 8 to 10). -/
def Mod.dropShardDescs (m : Mod) (k slot : Nat) : Mod :=
  let gone : Bool := match ((m.part k).chan 15).queue.head? with
    | some d => d.owner == .shard slot
    | none => false
  let m := if gone then (m.orphanReads k 15).dmaKeyEnd k 15 else m
  m.modPart k fun p => p.modChan 15 fun h => h.without fun d => d.owner == .shard slot

/-- The request that fills a slot. -/
def Mod.shardReq (m : Mod) (k slot : Nat) : Option Request :=
  m.acting.find? fun r => r.opcode == 0x40 && shCtx r.payload / 16 == k && shSlot r.payload == slot

/-- Answers the request that fills a slot, if it still stands. -/
def Mod.shardFinish (m : Mod) (k slot status detail : Nat) (payload : List Byte := []) : Mod :=
  match m.shardReq k slot with
  | some r => m.finish r status detail payload
  | none => m

/-- The first shard whose transfer has failed or ended is settled: attached where its digest matches, else its slot is
free (14 R317, R318). -/
def Mod.attachDone (m : Mod) (k : Nat) : Mod :=
  match (m.part k).shards.find? fun (e : Nat × Shard) => e.2.state == .pending && (e.2.failed.isSome || e.2.arrived) with
  | none => m
  | some (slot, s) =>
    match s.failed with
    | some (st, d) => ((m.dropShardDescs k slot).freeShard k slot).shardFinish k slot st d
    | none =>
      if slice (Config.sha384 s.hashed) 0 48 = s.digest then
        let m := match s.move with
          | some src => m.freeShard k src
          | none => m
        let m := m.modPart k fun p => { p with shards := Table.set slot { s with state := .attached, move := none, hashed := [] } p.shards }
        m.shardFinish k slot stOk 0 (shardAnswer slot s.loc m.devtime)
      else (m.freeShard k slot).shardFinish k slot stIntegrity 3

/-- SHARD_ATTACH_DONE (14 R318). -/
def execShardAttachDone (k : Fin 64) (s : State) : Host.Outcome State Fault Refusal :=
  s.act fun m => m.molique fun m => if (m.part k.val).underReset then m else m.attachDone k.val

/-! ### The scrub (14 R321, R323) -/

/-- Whether a guaranteed-class raise of the partition has landed and not completed. -/
def Partition.guarPresent (p : Partition) : Bool :=
  p.ctxs.any fun (e : Nat × Context) => e.2.started.any (·.guar) ||
    e.2.queues.any fun (q : Nat × Queue) => q.2.landed.any fun r => r.guar

/-- SHARD_SCRUB_PASS_START (14 R321). -/
def execShardScrubPassStart (k : Fin 64) (s : State) : Host.Outcome State Fault Refusal :=
  s.act fun m =>
    let p := m.part k.val
    if !m.running || !p.created || p.underReset || p.scrub.isSome then m else m.scrubFrom k.val 0

/-- A shard becomes BAD (14 R321). -/
def Mod.shardGoesBad (m : Mod) (k slot : Nat) (s : Shard) : Mod :=
  (m.modPart k fun p =>
    ({ p with shards := Table.set slot { s with state := .bad } p.shards }.flag offShardStatus 31).setFld offShardStatus 21 16
      slot).msixPart k 1

/-- The hash of the slot in hand ends (14 R321): uncorrectable errors and another digest make it BAD; the pass goes on. -/
def Mod.scrubHash (m : Mod) (k : Nat) (e : Ecc) : Mod :=
  match (m.part k).scrub with
  | none => m
  | some z =>
    match z.slot with
    | none => m.scrubFrom k 0
    | some slot =>
      match (m.part k).shard slot with
      | none => m.scrubFrom k (slot + 1)
      | some s =>
        let used := m.keys.findSome? fun (x : Nat × KeySlot) => (x.2.users.find? fun u => u.2 == .scrub k).map fun u => (x.1, u.1)
        let key := m.keyOf used
        let (rd, m) := m.memRead k key s.loc s.len e false
        let m := m.keyRelease fun u => u == .scrub k
        let m := if !rd.bad.isEmpty || slice (Config.sha384 rd.bytes) 0 48 != s.digest then m.shardGoesBad k slot s else m
        m.scrubFrom k (slot + 1)

/-- SHARD_SCRUB_HASH_DONE (14 R321, R323): the scrub makes no progress while a guaranteed-class raise has landed or
runs. -/
def execShardScrubHashDone (k : Fin 64) (e : Ecc) (s : State) : Host.Outcome State Fault Refusal :=
  s.act fun m =>
    let p := m.part k.val
    if !m.running || p.underReset || p.guarPresent then m else m.scrubHash k.val e

/-- SCRUB_LATE (14 R323). -/
def execScrubLate (k : Fin 64) (s : State) : Host.Outcome State Fault Refusal :=
  s.act fun m => m.alive fun m => if (m.part k.val).scrub.isSome then m.modPart k.val fun p => p.flag offShardScrub 31 else m

end Sys2Proof.Machine
end

