-- ==== Sys2Proof/Machine/Curve.lean ====
section
/-!
DEFINITION. The public-key engine: the curve P-384 of FIPS 186-5, its screening, and its operations (17 R387 to R391).
The constants of the curve are those of FIPS 186-5 (assumption 12).
-/

namespace Sys2Proof.Machine

def curveP : Nat :=
  0xfffffffffffffffffffffffffffffffffffffffffffffffffffffffffffffffeffffffff0000000000000000ffffffff
def curveN : Nat :=
  0xffffffffffffffffffffffffffffffffffffffffffffffffc7634d81f4372ddf581a0db248b0a77aecec196accc52973
def curveB : Nat :=
  0xb3312fa7e23ee7e4988e056be3f82d19181d9c6efe8141120314088f5013875ac656398d8a2ed19d2a85c8edd3ec2aef
def curveGx : Nat :=
  0xaa87ca22be8b05378eb1c71ef320ad746e1d3b628ba79b9859f741e082542a385502f25dbf55296c3a545e3872760ab7
def curveGy : Nat :=
  0x3617de4a96262c6f5d9e98bf9292dc29f8f41dbd289a147ce9da3113b5f0b8c00a60b1ce1d7e819d7a431d7c90ea0e5f

/-- A point of the curve: none at infinity, else x and y. -/
abbrev CurvePoint := Option (Nat × Nat)

/-- The generator G. -/
def curveG : CurvePoint := some (curveGx, curveGy)

/-- b^e mod m, over the bits of e. -/
def powMod (m : Nat) : Nat → Nat → Nat → Nat
  | 0, _, _ => 1 % m
  | fuel + 1, b, e =>
    let r := powMod m fuel (b * b % m) (e / 2)
    if e % 2 = 1 then b * r % m else r

/-- The inverse of a modulo the prime m. -/
def invMod (m a : Nat) : Nat := powMod m 384 a (m - 2)

/-- The sum of two points. -/
def pointAdd (a b : CurvePoint) : CurvePoint :=
  match a, b with
  | none, y => y
  | x, none => x
  | some (x1, y1), some (x2, y2) =>
    if x1 = x2 ∧ (y1 + y2) % curveP = 0 then none
    else
      let l := if x1 = x2 then (3 * x1 * x1 + (curveP - 3)) * invMod curveP (2 * y1) % curveP
        else (y2 + curveP - y1) * invMod curveP (x2 + curveP - x1) % curveP
      let x3 := (l * l + 2 * curveP - x1 - x2) % curveP
      some (x3, (l * (x1 + curveP - x3) + curveP - y1) % curveP)

/-- d times a point, over the bits of d from the lowest. -/
def pointMul : Nat → Nat → CurvePoint → CurvePoint
  | 0, _, _ => none
  | fuel + 1, d, p =>
    let r := pointMul fuel (d / 2) (pointAdd p p)
    if d % 2 = 1 then pointAdd p r else r

/-- d times a point for a scalar of 384 bits. -/
def scalarMul (d : Nat) (p : CurvePoint) : CurvePoint := pointMul 384 d p

/-- Whether (x, y) satisfies the equation of the curve (17 R389, order 2). -/
def onCurve (x y : Nat) : Bool := y * y % curveP == (x * x * x + (curveP - 3) * x + curveB) % curveP

/-! ### Screening (17 R389) -/

/-- The reason that rejects a point, with whether the rejection concerns y alone. -/
def screenPoint (x y : Nat) : Option (Nat × Bool) :=
  if curveP ≤ x then some (3, false)
  else if curveP ≤ y then some (3, true)
  else if !onCurve x y then some (4, false)
  else none

/-- The reason that rejects a list of scalars: a zero before one of n or more. -/
def screenScalars (ds : List Nat) : Option Nat :=
  if ds.contains 0 then some 1 else if ds.any fun d => decide (curveN ≤ d) then some 2 else none

/-! ### Operations (17 R387, R389, R391) -/

/-- A generated scalar from a draw: from 1 to n - 1 (17 R391). -/
def scalarOf (draw : Nat) : Nat := 1 + draw % (curveN - 1)

/-- A digest as an integer, first byte most significant (17 R387). -/
def digestNat (e : List Byte) : Nat := leNat e.reverse

/-- The 96 bytes of a point, x then y, little-endian (17 R388). -/
def pointBytes (p : CurvePoint) : List Byte :=
  match p with
  | none => zeros 96
  | some (x, y) => leBytes 48 x ++ leBytes 48 y

/-- The signature (r, s) with the nonces of RFC 6979 from attempt `i` on (17 R389, R391). -/
def signFrom (d : Nat) (e : List Byte) : Nat → Nat → Nat × Nat
  | 0, _ => (0, 0)
  | fuel + 1, i =>
    let k := scalarOf (Config.nonce d e i - 1)
    let r := (match scalarMul k curveG with
      | some (x, _) => x
      | none => 0) % curveN
    let s := invMod curveN k * (digestNat e + r * d) % curveN
    if r = 0 ∨ s = 0 then signFrom d e fuel (i + 1) else (r, s)

/-- The 96 bytes of a signature, r then s, little-endian. -/
def signBytes (d : Nat) (e : List Byte) : List Byte :=
  let s := signFrom d e 256 0
  leBytes 48 s.1 ++ leBytes 48 s.2

/-- ECDSA verify: the reason of the rejection, or none where the signature is valid (17 R389). -/
def verifyReason (qx qy : Nat) (e : List Byte) (r s : Nat) : Option Nat :=
  match screenPoint qx qy with
  | some w => some w.1
  | none =>
    match screenScalars [r, s] with
    | some w => some w
    | none =>
      let w := invMod curveN s
      match pointAdd (scalarMul (digestNat e * w % curveN) curveG) (scalarMul (r * w % curveN) (some (qx, qy))) with
      | none => some 6
      | some (x, _) => if x % curveN = r then none else some 5

end Sys2Proof.Machine
end

