-- ==== Sys2Proof/Machine/Keys.lean ====
section
/-!
DEFINITION. Key slots: loading, binding, rewriting and erasing (17 R376 to R386), on the public-key engine where the load
needs it (17 R387).
-/

namespace Sys2Proof.Machine

/-! ### Requests (17 R377) -/

def klOp (pl : List Byte) : Nat := fld pl 0 1
def klKind (pl : List Byte) : Nat := fld pl 1 1
def klSlot (pl : List Byte) : Nat := fld pl 2 2
def klPart (pl : List Byte) : Nat := fld pl 6 1

/-- Bytes of key material by kind (17 R376). -/
def materialLen (kind : Nat) : Nat := if kind = 1 then 64 else if kind = 2 then 32 else 48

/-- Check 1 of 17 R378: the fields of R377. -/
def keyFields (f : Fn) (pl : List Byte) : Option (Nat × Nat) :=
  let op := klOp pl
  let kind := klKind pl
  let binds := op == 4 || op == 5
  let used := if op = 1 then materialLen kind else if op = 2 then materialLen kind + 8 else 0
  fieldBad [
    (!(decide (1 ≤ op) && decide (op ≤ 5)), 0),
    (if op = 3 then kind != 3 else if binds then kind != 1 else !(decide (1 ≤ kind) && decide (kind ≤ 3)), 1),
    (decide (256 ≤ klSlot pl), 2),
    (match f with
      | .vf _ => fld pl 4 2 != 0
      | _ => fld pl 4 2 == 0 || fld pl 4 2 == 0xFFFF, 4),
    (if binds then (match f with
        | .vf k => klPart pl != k.val
        | _ => decide (64 ≤ klPart pl)) else klPart pl != 0, 6),
    (!allZero (slice pl 7 9), 7),
    (op != 2 && !allZero (slice pl 16 48), 16),
    (op != 2 && !allZero (slice pl 64 48), 64),
    (!allZero (slice pl 112 16), 112),
    (!allZero ((slice pl 128 80).drop used), 128),
    (!allZero (slice pl 208 48), 208)]

/-- The tenant a request acts for (17 R377). -/
def Mod.keyTenant (m : Mod) (f : Fn) (field : Nat) : Option (BitVec 16) :=
  match f with
  | .vf k => if m.exists? k.val then some (m.part k.val).tenant else none
  | _ => some (BitVec.ofNat 16 field)

/-- Whether a tenant holds a partition (17 R370). -/
def Mod.tenantHere (m : Mod) (t : BitVec 16) : Bool := allParts.any fun k => m.exists? k && (m.part k).tenant == t

/-- The XTS slot a tenant holds, loaded or erasing (17 R376). -/
def Mod.xtsSlot (m : Mod) (t : BitVec 16) : Option Nat :=
  (m.keys.find? fun (e : Nat × KeySlot) => e.2.state != .free && e.2.kind == 1 && e.2.tenant == t).map (·.1)

/-- The number of an IDE stream in the table (02 R43). -/
def ideIdx : IdeStream → Nat
  | .link => 0
  | .selective f => match f with
    | .vf k => 2 + k.val
    | _ => 1

/-- Whether a function's selective stream or the link stream is in the secure state (02 R43). -/
def Mod.ideSecure (m : Mod) (f : Fn) : Bool :=
  (Table.get Ide.reset 0 m.pcie.ide).secure || (Table.get Ide.reset (ideIdx (.selective f)) m.pcie.ide).secure

/-- Users of one version of a slot. -/
def KeySlot.usersOf (s : KeySlot) (v : Option KeyVer) : Nat :=
  match v with
  | some x => (s.users.filter fun u => u.1 == x.ver).length
  | none => 0

/-- Checks 1 to 8 of 17 R378. -/
def Mod.keyBad (m : Mod) (r : Request) : Option (Nat × Nat) :=
  let pl := r.payload
  let op := klOp pl
  let kind := klKind pl
  let loads := op == 1 || op == 2 || op == 3
  let t := (m.keyTenant r.fn (fld pl 4 2)).getD 0
  let here : Bool := match m.keyTenant r.fn (fld pl 4 2) with
    | some t => m.tenantHere t
    | none => false
  let s := m.keySlot (klSlot pl)
  let p := m.part (klPart pl)
  let held := m.xtsSlot t
  orBad (keyFields r.fn pl) (firstBad [
    (!here || (!loads && !(p.created && p.tenant == t)), stNotPermitted, 1),
    (s.state == .loaded && s.tenant != t, stNotPermitted, 2),
    (s.state == .erasing, stNotPermitted, 3),
    (loads && ((s.state == .loaded && s.kind != kind) || (kind == 1 && held.isSome && held != some (klSlot pl))),
      stNotPermitted, 4),
    ((op == 4 && (!(s.state == .loaded && s.kind == 1) || p.memSlot != 0xFFFF)) ||
      (op == 5 && p.memSlot != klSlot pl), stNotPermitted, 5),
    (op == 1 && (r.fn == .mgmt || !m.ideSecure r.fn), stNotPermitted, 8),
    (loads && s.state == .loaded && s.usersOf s.retiring != 0, stNoResource, 1)])

/-- Check 11 of 17 R378: equal XTS keys, or a signing scalar out of its range. -/
def materialBad (kind : Nat) (mat : List Byte) : Bool :=
  if kind = 1 then mat.take 32 == mat.drop 32
  else if kind = 3 then (screenScalars [leNat mat]).isSome
  else false

/-! ### Erases that take effect (17 R384, R386) -/

/-- The slot a KEY_ERASE names. -/
def keSlot (pl : List Byte) : Nat := fld pl 0 2

/-- Whether a request is an erase of a slot. -/
def erases (slot : Nat) (r : Request) : Bool := r.opcode == 0x31 && keSlot r.payload == slot

/-- Every version of a slot is destroyed and the slot is free; pending erases of it complete. -/
def Mod.slotFree (m : Mod) (slot : Nat) : Mod :=
  let m := { m with keys := Table.erase slot m.keys }
  m.forAll (fun m r => if erases slot r then m.finish r stOk 0 else m) m.acting

/-- Whether a request taken up in the message time of a pending erase of the slot, and naming it, still waits for its turn: it
finds the slot erasing (17 R386). -/
def Mod.eraseHeld (m : Mod) (slot : Nat) : Bool :=
  m.taken.any fun r => ((r.opcode == 0x30 && klSlot r.payload == slot) || erases slot r) &&
    m.acting.any fun x => erases slot x && x.mtime == r.mtime

/-- The erases that can take effect do (17 R384, R386): of slots without a user, once no request of their message time
waits. -/
def Mod.settleErases (m : Mod) : Mod :=
  m.forAll (fun m (e : Nat × KeySlot) =>
    if e.2.state == .erasing && e.2.users.isEmpty && !m.eraseHeld e.1 then m.slotFree e.1 else m) m.keys

/-! ### Installing (17 R376, R380, R381, R383) -/

/-- Key material enters a slot: version 1 of a free slot, or the next version with the old one retiring (17 R383). -/
def KeySlot.install (s : KeySlot) (kind : Nat) (t : BitVec 16) (mat : List Byte) : KeySlot :=
  match s.current with
  | none =>
    { state := .loaded, kind := kind, tenant := t, current := some { ver := 1, material := mat }, retiring := none
      users := [] }
  | some c =>
    { s with current := some { ver := c.ver + 1, material := mat }
             retiring := if s.usersOf (some c) = 0 then none else some c }

/-- The response payload of 17 R380. -/
def Mod.keyAnswer (m : Mod) (slot kind : Nat) (pub : List Byte) : List Byte :=
  let ver := match (m.keySlot slot).current with
    | some v => v.ver
    | none => 0
  leBytes 2 slot ++ leBytes 1 kind ++ zeros 1 ++ leBytes 4 ver ++ leBytes 8 m.devtime.toNat ++ pub

/-- A load takes effect. -/
def Mod.keyInstall (m : Mod) (r : Request) (mat : List Byte) : Mod :=
  let pl := r.payload
  let t := (m.keyTenant r.fn (fld pl 4 2)).getD 0
  m.modKey (klSlot pl) fun s => s.install (klKind pl) t mat

/-- PLAIN (17 R378). -/
def Mod.keyPlain (m : Mod) (r : Request) : Mod :=
  let pl := r.payload
  let mat := slice pl 128 (materialLen (klKind pl))
  m.judge r (orBad (m.keyBad r) (firstBad [(materialBad (klKind pl) mat, stBadField, 128)])) fun m =>
    let m := m.keyInstall r mat
    m.respond r stOk 0 (m.keyAnswer (klSlot pl) (klKind pl) (zeros 96))

/-- KEY_LOAD_PLAIN (17 R378); a request whose `OP` names no operation is refused here. -/
def execKeyLoadPlain (f : Fn) (s : State) : Host.Outcome State Fault Refusal :=
  s.act fun m => (m.mbxRow f 0x30 (fun r => !([2, 3, 4, 5].contains (klOp r.payload))) Mod.keyPlain).settleErases

/-- A load that waits for the public-key engine (17 R387): judged at take-up by checks 1 to 8 and again at its end. -/
def Mod.keyQueue (m : Mod) (r : Request) : Mod :=
  m.judge r (m.keyBad r) fun m =>
    let (d, m) := m.draw
    ({ m with pke := m.pke ++ [PkeJob.load r d] }).hold r

/-- KEY_LOAD_WRAPPED (17 R379). -/
def execKeyLoadWrapped (f : Fn) (s : State) : Host.Outcome State Fault Refusal :=
  s.act fun m => (m.mbxRow f 0x30 (fun r => klOp r.payload == 2) Mod.keyQueue).settleErases

/-- KEY_LOAD_GENERATE (17 R380). -/
def execKeyLoadGenerate (f : Fn) (s : State) : Host.Outcome State Fault Refusal :=
  s.act fun m => (m.mbxRow f 0x30 (fun r => klOp r.payload == 3) Mod.keyQueue).settleErases

/-- BIND_MEM (17 R381). -/
def Mod.keyBind (m : Mod) (r : Request) : Mod :=
  m.judge r (m.keyBad r) fun m =>
    let slot := klSlot r.payload
    let m := m.modPart (klPart r.payload) fun p => p.setFld offKsStatus 15 0 slot
    m.respond r stOk 0 (m.keyAnswer slot 1 (zeros 96))

/-- KEY_BIND_MEM (17 R381). -/
def execKeyBindMem (f : Fn) (s : State) : Host.Outcome State Fault Refusal :=
  s.act fun m => (m.mbxRow f 0x30 (fun r => klOp r.payload == 4) Mod.keyBind).settleErases

/-- UNBIND_MEM (17 R381); what latched the key keeps it. -/
def Mod.keyUnbind (m : Mod) (r : Request) : Mod :=
  m.judge r (m.keyBad r) fun m =>
    let m := m.modPart (klPart r.payload) fun p => p.setFld offKsStatus 15 0 0xFFFF
    m.respond r stOk 0 (m.keyAnswer (klSlot r.payload) 1 (zeros 96))

/-- KEY_UNBIND_MEM (17 R381). -/
def execKeyUnbindMem (f : Fn) (s : State) : Host.Outcome State Fault Refusal :=
  s.act fun m => (m.mbxRow f 0x30 (fun r => klOp r.payload == 5) Mod.keyUnbind).settleErases

/-! ### The end of an engine operation (17 R378 to R380, R387, R390) -/

/-- Records the reason of an engine rejection for the requesting function (17 R390, R398). -/
def Mod.pkeReason (m : Mod) (f : Fn) (reason : Nat) : Mod :=
  match f with
  | .vf k => m.modPart k.val fun p => p.setFld offKsStatus 19 16 reason
  | _ => m.setChipFld offKsStatus64 19 16 reason

/-- The module's key-agreement scalar (17 R392). -/
def Mod.kaKey (m : Mod) : Nat := scalarOf m.kaScalar

/-- The key-encryption key of a WRAPPED load (17 R379). -/
def Mod.wrapKey (m : Mod) (r : Request) (z : Nat) : List Byte :=
  let t := (m.keyTenant r.fn (fld r.payload 4 2)).getD 0
  Config.hkdf (slice Config.serial 0 16) (leBytes 48 z).reverse
    ([0x42, 0x58, 0x4C, 0x37, 0x2D, 0x4B, 0x57] ++ leBytes 1 (klKind r.payload) ++ leBytes 2 (klSlot r.payload) ++
      leBytes 2 t.toNat)

/-- Checks 9 to 11 of a WRAPPED load: the reason the engine gives, and the failure or the material. -/
def Mod.unwrap (m : Mod) (r : Request) : Option Nat × ((Nat × Nat) ⊕ List Byte) :=
  let pl := r.payload
  let n := materialLen (klKind pl)
  let qx := fld pl 16 48
  let qy := fld pl 64 48
  match screenPoint qx qy with
  | some (w, onlyY) => (some w, .inl (stBadField, if onlyY then 64 else 16))
  | none =>
    match scalarMul m.kaKey (some (qx, qy)) with
    | none => (some 6, .inl (stBadField, 16))
    | some (z, _) =>
      match Config.keyUnwrap (m.wrapKey r z) (slice pl 128 (n + 8)) with
      | none => (none, .inl (stIntegrity, 8))
      | some raw =>
        let mat := slice raw 0 n
        if materialBad (klKind pl) mat then (none, .inl (stBadField, 128)) else (none, .inr mat)

/-- A WRAPPED load's operation ends (17 R378): the key is installed or destroyed now, the response waits. -/
def Mod.wrappedDone (m : Mod) (r : Request) : Mod :=
  let res := m.unwrap r
  let m := match res.1 with
    | some w => m.pkeReason r.fn w
    | none => m
  match m.keyBad r, res.2 with
  | some (st, d), _ => { m with wrapped := m.wrapped ++ [{ req := r, status := st, detail := d, payload := [] }] }
  | none, .inl (st, d) => { m with wrapped := m.wrapped ++ [{ req := r, status := st, detail := d, payload := [] }] }
  | none, .inr mat =>
    let m := m.keyInstall r mat
    { m with wrapped := m.wrapped ++ [{ req := r, status := stOk, detail := 0
                                        payload := m.keyAnswer (klSlot r.payload) (klKind r.payload) (zeros 96) }] }

/-- A GENERATE's operation ends (17 R378, R380). -/
def Mod.generateDone (m : Mod) (r : Request) (draw : Nat) : Mod :=
  match m.keyBad r with
  | some (st, d) => m.finish r st d
  | none =>
    let d := scalarOf draw
    let m := m.keyInstall r (leBytes 48 d)
    m.finish r stOk 0 (m.keyAnswer (klSlot r.payload) 3 (pointBytes (scalarMul d curveG)))

/-- KEY_LOAD_WRAPPED_RESPONSE (17 R378): the oldest WRAPPED load whose operation has ended is answered. -/
def execKeyLoadWrappedResponse (s : State) : Host.Outcome State Fault Refusal :=
  s.act fun m => m.molique fun m =>
    match m.wrapped with
    | [] => m
    | w :: rest => ({ m with wrapped := rest }).finish w.req w.status w.detail w.payload

/-! ### Erasing (17 R384, R385) -/

/-- An erase is accepted (17 R384): the slot is erasing and unbound, and a sister binding that names it ends. -/
def Mod.eraseBegin (m : Mod) (slot : Nat) : Mod :=
  let m := m.modKey slot fun s => { s with state := .erasing }
  let m := m.forAll (fun m k =>
    if (m.part k).created && (m.part k).memSlot == slot then m.modPart k fun p => p.setFld offKsStatus 15 0 0xFFFF else m)
    allParts
  m.forAll (fun m (e : Nat × Binding) => if e.2.keySlot == slot then m.endBind e.1 stKeyRevoked else m) m.binds

/-- A path without one receive; a message that it had matched is discarded. -/
def Path.dropArm (p : Path) (c q node member : Nat) : Path :=
  let mine (a : Arm) : Bool := a.c == c && a.q == q && a.node == node && a.member == member
  { p with
    arms := p.arms.filter fun a => !mine a
    msgs := (p.msgs.map fun g => match g.arm with
      | some a => if mine a then { g with arm := none, drop := true, frames := [] } else g
      | none => g).filter fun g => !g.gone }

/-- The partition whose raise a user belongs to. -/
def Mod.userRaise (m : Mod) (u : KeyUse) : Option (Nat × Nat) :=
  match u with
  | .dma k ch => (match ((m.part k).chan ch).queue.head? with
    | some d => (match d.owner with
      | .node c _ _ => some (k, c)
      | _ => none)
    | none => none)
  | .linkSend k c _ _ => some (k, c)
  | .linkRecv k c _ _ _ => some (k, c)
  | _ => none

/-- One user of an erased key ends (17 R385). -/
def Mod.endUser (m : Mod) (slot : Nat) (u : KeyUse) : Mod :=
  match u with
  | .dma k ch =>
    if ch = noChan then m
    else
      match ((m.part k).chan ch).queue.head? with
      | none => m
      | some d => (m.dropHead k ch false).ownerFails k ch d stKeyRevoked slot
  | .linkSend k c node member => (m.markRun k c stKeyRevoked slot).worked k c node member
  | .linkRecv k c q node member =>
    let m := { m with paths := m.paths.map fun (e : Nat × Path) =>
      (e.1, if e.2.owner = k then e.2.dropArm c q node member else e.2) }
    m.within k c q fun m =>
    let m := m.markRun k c stKeyRevoked slot
    (match ((m.part k).ctx c).run with
     | some x => if x.phase node member = some .running then m.worked k c node member else m
     | none => m)
  | .attest f =>
    (match m.acting.find? fun r => r.opcode == 0x70 && fnIdx r.fn == f with
     | some r =>
       (({ m with pke := m.pke.filter fun j => j.request != some r }).keyRelease fun x => x == u).finish r stKeyRevoked 0
     | none => m)
  | .scrub k =>
    (match (m.part k).scrub with
     | some z => (m.keyRelease fun x => x == u).scrubFrom k (z.slot.getD 0 + 1)
     | none => m)

/-- An erase with NOW (17 R384, R385): the slot is erasing and every user of it ends; partitions whose raises ended set
REVOKED and are signalled. -/
def Mod.eraseNow (m : Mod) (slot : Nat) : Mod :=
  let m := if (m.keySlot slot).state == .erasing then m else m.eraseBegin slot
  let users := (m.keySlot slot).users
  let hit := dedup (users.filterMap fun u => (m.userRaise u.2).map (·.1))
  let m := m.forAll (fun m (u : Nat × KeyUse) => m.endUser slot u.2) users
  let m := m.forAll (fun m k => (m.modPart k fun p => p.flag offKsStatus 31).msixPart k 1) hit
  m.modKey slot fun s => { s with users := [] }

/-- The checks of 17 R384. -/
def Mod.eraseBad (m : Mod) (r : Request) : Option (Nat × Nat) :=
  let pl := r.payload
  let s := m.keySlot (keSlot pl)
  orBad (fieldBad [(decide (256 ≤ keSlot pl), 0), (decide (2 ≤ fld pl 2 1), 2), (!allZero (slice pl 3 5), 3)])
    (firstBad [
      (match r.fn with
        | .vf k => s.state == .free || s.tenant != (m.part k.val).tenant
        | _ => false, stNotPermitted, 2),
      (s.state == .free, stNotPermitted, 6),
      (s.state == .erasing && !bit (fld pl 2 1) 0, stNotPermitted, 3)])

/-- KEY_ERASE with NOW 0 (17 R384): it waits for the last user of every version. -/
def Mod.keyErase (m : Mod) (r : Request) : Mod :=
  m.judge r (m.eraseBad r) fun m => (m.hold r).eraseBegin (keSlot r.payload)

/-- KEY_ERASE (17 R384). -/
def execKeyErase (f : Fn) (s : State) : Host.Outcome State Fault Refusal :=
  s.act fun m => (m.mbxRow f 0x31 (fun r => !bit (fld r.payload 2 1) 0) Mod.keyErase).settleErases

/-- KEY_ERASE with NOW 1 (17 R384, R385). -/
def Mod.keyEraseNow (m : Mod) (r : Request) : Mod :=
  m.judge r (m.eraseBad r) fun m => (m.hold r).eraseNow (keSlot r.payload)

/-- KEY_ERASE_NOW (17 R385). -/
def execKeyEraseNow (f : Fn) (s : State) : Host.Outcome State Fault Refusal :=
  s.act fun m => (m.mbxRow f 0x31 (fun r => bit (fld r.payload 2 1) 0) Mod.keyEraseNow).settleErases

/-- KEY_USER_END (17 R383, R384): with the last user of a retiring version gone that version is destroyed; with the last
user of every version gone a pending erase takes effect. -/
def Mod.userEnd (m : Mod) (slot : Nat) : Mod :=
  let s := m.keySlot slot
  if s.state == .erasing && s.users.isEmpty && !m.eraseHeld slot then m.slotFree slot
  else if s.retiring.isSome && s.usersOf s.retiring == 0 then m.modKey slot fun s => { s with retiring := none }
  else m

def execKeyUserEnd (slot : Fin 256) (s : State) : Host.Outcome State Fault Refusal :=
  s.act fun m => m.alive fun m => m.userEnd slot.val

end Sys2Proof.Machine
end

