-- ==== Sys2Proof/Machine/Attest.lean ====
section
/-!
DEFINITION. The check of a Molique image (02 R66, R67), the attestation report (17 R392 to R395), and the SPDM responder
with IDE key management (17 R396, 02 R43).
-/

namespace Sys2Proof.Machine

/-! ### Authentication of an image (02 R66, R67) -/

/-- The reason for which the engine rejects an image's signature (02 R66, check 5). -/
def imageVerify (b : List Byte) : Option Nat :=
  let n := b.length
  verifyReason (fld b 0x80 48) (fld b 0xB0 48) (Config.sha384 (b.take (n - 96))) (fld b (n - 96) 48) (fld b (n - 48) 48)

/-- The image as measured (02 R67). -/
def imageOf (b : List Byte) : FwImage :=
  { measurement := slice (Config.sha384 b) 0 48, build := fld b 0x10 8, svn := imgSvn b, keyIndex := imgKeyIndex b }

/-- A failed authentication (02 R66). -/
def Mod.authFail (m : Mod) (d : Nat) : Mod :=
  ({ m with boot := { m.boot with authLast := d } }).failLoad stAuthFail d

/-- The end of authentication (02 R66, R67): of an image that failed an earlier check, or whose signature the engine has
judged. -/
def Mod.authDone (m : Mod) : Mod :=
  match m.fwLoad with
  | none => m
  | some l =>
    if !l.auth then m
    else
      match imageBad l.bytes, l.verdict with
      | some d, _ => m.authFail d
      | none, none => m
      | none, some 0 =>
        let m := ({ m with fwLoad := none, fw := some (imageOf l.bytes) }).setStage 8
        (match m.acting.find? fun r => r.opcode == 0x03 with
         | some r => m.finish r stOk 0
         | none => m)
      | none, some _ => m.authFail 5

/-- FW_AUTH_DONE (02 R66, R67). -/
def execFwAuthDone (s : State) : Host.Outcome State Fault Refusal := s.act fun m => m.authDone

/-- The engine has judged the signature of the image (02 R66, 17 R389, R390). -/
def Mod.verifyDone (m : Mod) : Mod :=
  match m.fwLoad with
  | none => m
  | some l =>
    let w := imageVerify l.bytes
    let m := { m with fwLoad := some { l with verdict := some (w.getD 0) } }
    match w with
    | some w => m.pkeReason .pf w
    | none => m

/-! ### The report (17 R393 to R395) -/

/-- The entry of a partition (17 R395); `view` is the tenant of a VF view, or none for a VF without a partition. -/
def Mod.partEntry (m : Mod) (vf : Bool) (view : Option (BitVec 16)) (k : Nat) : List Byte :=
  let p := m.part k
  if !p.created then leBytes 2 0 ++ zeros 4 ++ leBytes 2 0xFFFF
  else if vf && view != some p.tenant then leBytes 2 0xFFFF ++ zeros 4 ++ leBytes 2 0xFFFF
  else
    let mask := ((List.range 16).map fun c => b2n (p.ctx c).created * 2 ^ c).sum
    let state := b2n (getB (p.reg offEvtCtrl) 0) + 2 * b2n (p.resvs.any fun e => !e.2.closed) +
      4 * b2n (!(m.bindsOf k).isEmpty) + 8 * b2n p.underReset
    leBytes 2 p.tenant.toNat ++ leBytes 2 mask ++ leBytes 1 state ++ zeros 1 ++ leBytes 2 p.memSlot

/-- The 64 entries of a function's view. -/
def Mod.partEntries (m : Mod) (f : Fn) : List Byte :=
  let vf := match f with
    | .vf _ => true
    | _ => false
  allParts.flatMap fun k => m.partEntry vf (m.keyTenant f 0) k

/-- The bytes 200 to 215 of a report: what the image and the fuses say (17 R394). -/
def Mod.fwState (m : Mod) : List Byte :=
  let img := if m.running then m.fw else none
  leBytes 4 (match img with
    | some i => i.svn
    | none => 0) ++ leBytes 4 Config.minSvn ++ leBytes 1 (match img with
    | some i => i.keyIndex
    | none => 0xFF) ++ leBytes 1 Config.revoked.toNat ++ zeros 6

/-- The firmware measurement (02 R67), 0 before stage 0x8. -/
def Mod.fwMeasure (m : Mod) : List Byte :=
  match if m.running then m.fw else none with
  | some i => slice i.measurement 0 48
  | none => zeros 48

/-- The identity scalar and its public key (17 R392, R388). -/
def identityScalar : Nat := scalarOf Config.identityScalar
def identityPub : List Byte := pointBytes (scalarMul identityScalar curveG)

/-- The certificate chain (17 R392): the root held in the boot ROM, then the certificate of the identity key. -/
def certChain : List Byte := Config.rootCert ++ Config.identityCert identityPub

/-- The report up to its signatures (17 R394); `scalar` is that of the signing slot. -/
def Mod.reportBody (m : Mod) (r : Request) (scalar : Option Nat) : List Byte :=
  let vf := match r.fn with
    | .vf _ => true
    | _ => false
  leBytes 4 0x52505442 ++ leBytes 2 1 ++ leBytes 2 (b2n scalar.isSome + 2 * b2n vf) ++ leBytes 4 1160 ++
    leBytes 4 (fnCode r.fn) ++ leBytes 8 m.devtime.toNat ++ slice r.payload 0 32 ++ slice orderCode 0 16 ++
    slice Config.serial 0 16 ++ leBytes 4 Config.siliconRev.toNat ++ leBytes 4 Config.bootRomVer.toNat ++
    slice Config.romDigest 0 48 ++ m.fwMeasure ++
    leBytes 8 (match if m.running then m.fw else none with
      | some i => i.build
      | none => 0) ++ m.fwState ++ slice (Config.sha384 identityPub) 0 48 ++
    pointBytes (scalarMul m.kaKey curveG) ++ m.partEntries r.fn ++
    (match scalar with
     | some d => pointBytes (scalarMul d curveG)
     | none => zeros 96)

/-- The slot an ATTEST_GET signs with: none, a version of it, or a refusal (17 R393, R384). -/
def Mod.signSlot (m : Mod) (r : Request) : Option (Nat × Nat) ⊕ (Nat × Nat) :=
  let slot := fld r.payload 32 2
  if slot = 0xFFFF then .inl none
  else
    let s := m.keySlot slot
    let own := match r.fn with
      | .vf k => m.exists? k.val && decide (slot < 256) && s.kind == 3 && s.tenant == (m.part k.val).tenant
      | _ => false
    if !own then .inr (stNotPermitted, 1)
    else
      match s.state, s.current with
      | .loaded, some v => .inl (some (slot, v.ver))
      | .erasing, _ => .inr (stKeyRevoked, 0)
      | _, _ => .inr (stNotPermitted, 1)

/-- The scalar of a version of a signing slot. -/
def Mod.slotScalar (m : Mod) (v : Nat × Nat) : Nat := leNat (m.keyBytes v.1 v.2)

/-- ATTEST_GET (17 R393, R394): the report is formed, its signing slot latched (17 R382), and its signatures go to the
public-key engine (17 R387). -/
def Mod.attest (m : Mod) (r : Request) : Mod :=
  m.judge r (fieldBad [(!allZero (slice r.payload 34 6), 34)]) fun m =>
    match m.signSlot r with
    | .inr (st, d) => m.respond r st d
    | .inl key =>
      let job : PkeJob := .attest r (m.reportBody r (key.map m.slotScalar)) key none
      let m := match key with
        | some v => m.keyUse v.1 v.2 (.attest (fnIdx r.fn))
        | none => m
      ({ m with pke := m.pke ++ [job] }).hold r

def execAttestGet (f : Fn) (s : State) : Host.Outcome State Fault Refusal :=
  s.act fun m => m.mbxRow f 0x70 (fun _ => true) Mod.attest

/-- A signature of a report is made (17 R394): with a signing slot that of the slot follows; then the report answers. -/
def Mod.attestDone (m : Mod) (r : Request) (body : List Byte) (key : Option (Nat × Nat)) (idSig : Option (List Byte)) : Mod :=
  let e := Config.sha384 body
  match idSig, key with
  | none, some v => { m with pke := m.pke ++ [PkeJob.attest r body (some v) (some (signBytes identityScalar e))] }
  | none, none => m.finish r stOk 0 (body ++ signBytes identityScalar e ++ zeros 96)
  | some sig, _ =>
    let slotSig := match key with
      | some v => signBytes (m.slotScalar v) e
      | none => zeros 96
    (m.keyRelease fun u => u == .attest (fnIdx r.fn)).finish r stOk 0 (body ++ sig ++ slotSig)

/-! ### SPDM (17 R396) -/

def spdmPortIdx : SpdmPort → Nat
  | .doe => 0
  | .mctp => 1

/-- The responder on a port. -/
def Mod.spdmAt (m : Mod) (t : SpdmPort) : Spdm := Table.get Spdm.reset (spdmPortIdx t) m.spdm

/-- Whether a port answers now (02 R62, R63). -/
def Mod.spdmOpen (m : Mod) (t : SpdmPort) : Bool :=
  match t with
  | .doe => m.pcieUp
  | .mctp => decide (1 ≤ m.boot.stage) && decide (m.boot.stage ≤ 8)

/-- Certificate slot 0 (17 R396): the chain of 17 R392 in the chain format of SPDM 1.3, with its length and the digest of the
root (PRESUMED, assumption 15). -/
def certSlot0 : List Byte :=
  leBytes 2 (52 + certChain.length) ++ zeros 2 ++ slice (Config.sha384 Config.rootCert) 0 48 ++ certChain

/-- The measurement blocks by index (17 R396). -/
def Mod.measureBlocks (m : Mod) : List (Nat × List Byte) :=
  [(1, slice Config.romDigest 0 48), (2, m.fwMeasure), (3, m.fwState), (4, m.partEntries .pf),
   (5, pointBytes (scalarMul m.kaKey curveG))]

/-- Codes of the responses (PRESUMED, assumption 15). -/
def SpdmAnswer.code (a : SpdmAnswer) : Nat :=
  match a with
  | .error => 0x7F
  | .version => 0x04
  | .capabilities => 0x61
  | .algorithms _ _ _ _ => 0x63
  | .digests _ => 0x01
  | .certificate _ _ => 0x02
  | .challengeAuth _ _ => 0x03
  | .measurements _ _ => 0x60
  | .measurementCount _ => 0x60
  | .keyExchange _ _ => 0x64
  | .finished => 0x65
  | .sessionEnded => 0x6C

/-- What a response carries, its signature apart. -/
def SpdmAnswer.contents (a : SpdmAnswer) : List Byte :=
  match a with
  | .error | .version | .capabilities | .algorithms _ _ _ _ | .finished | .sessionEnded => []
  | .digests d => d
  | .certificate bs n => leBytes 2 n ++ bs
  | .challengeAuth d _ => d
  | .measurements bs _ => bs.flatMap fun b => leBytes 1 b.1 ++ b.2
  | .measurementCount n => leBytes 1 n
  | .keyExchange pt _ => pt

/-- A response with its signature. -/
def SpdmAnswer.signed (a : SpdmAnswer) (sig : Nat × Nat) : SpdmAnswer :=
  match a with
  | .challengeAuth d _ => .challengeAuth d sig
  | .measurements bs _ => .measurements bs (some sig)
  | .keyExchange pt _ => .keyExchange pt sig
  | a => a

/-- A response goes out, and the connection goes on by `next`. -/
def Mod.spdmSend (m : Mod) (t : SpdmPort) (msg : List Byte) (a : SpdmAnswer) (next : Spdm → Spdm) : Mod :=
  let x := next (m.spdmAt t)
  let x := { x with transcript := x.transcript ++ msg ++ Config.spdmResponse a.code a.contents msg }
  ({ m with spdm := Table.set (spdmPortIdx t) x m.spdm }).send (.spdm t a)

/-- An SPDM request `code` on a port (17 R396): in its place in the connection (`ready`) and well formed it acts; else the error
response answers it and changes nothing (assumption 15). -/
def Mod.spdmMsg (m : Mod) (t : SpdmPort) (code : Nat) (msg : List Byte) (ready : Spdm → Bool) (act : Mod → Mod) : Mod :=
  if !m.spdmOpen t then m
  else if ready (m.spdmAt t) && Config.spdmAccepts code msg then act m
  else m.send (.spdm t .error)

/-- A connection whose algorithms are agreed. -/
def Spdm.agreed (x : Spdm) : Bool := x.version && x.caps && x.algs

/-- Whether an operation of the engine serves a port. -/
def PkeJob.onPort (j : PkeJob) (t : SpdmPort) : Bool :=
  match j with
  | .sign p _ _ _ => p == t
  | .share p _ _ => p == t
  | .agree p _ _ => p == t
  | .load _ _ | .verify | .attest _ _ _ _ => false

/-- SPDM_GET_VERSION (17 R396): begins the connection afresh. -/
def execSpdmGetVersion (t : SpdmPort) (msg : List Byte) (s : State) : Host.Outcome State Fault Refusal :=
  s.act fun m => m.spdmMsg t 0x84 msg (fun _ => true) fun m =>
    ({ m with pke := m.pke.filter fun j => !j.onPort t }).spdmSend t msg .version fun _ => { Spdm.reset with version := true }

/-- SPDM_GET_CAPABILITIES (17 R396). -/
def execSpdmGetCapabilities (t : SpdmPort) (msg : List Byte) (s : State) : Host.Outcome State Fault Refusal :=
  s.act fun m => m.spdmMsg t 0xE1 msg (fun x => x.version) fun m => m.spdmSend t msg .capabilities fun x => { x with caps := true }

/-- The algorithms of the responder (17 R396). -/
def spdmAlgorithms : SpdmAnswer := .algorithms .ecdsaP384 .sha384 .ecdheSecp384r1 .aes256Gcm

/-- SPDM_NEGOTIATE_ALGORITHMS (17 R396). -/
def execSpdmNegotiateAlgorithms (t : SpdmPort) (msg : List Byte) (s : State) : Host.Outcome State Fault Refusal :=
  s.act fun m => m.spdmMsg t 0xE3 msg (fun x => x.version && x.caps) fun m =>
    m.spdmSend t msg spdmAlgorithms fun x => { x with algs := true }

/-- SPDM_GET_DIGESTS (17 R396). -/
def execSpdmGetDigests (t : SpdmPort) (msg : List Byte) (s : State) : Host.Outcome State Fault Refusal :=
  s.act fun m => m.spdmMsg t 0x81 msg Spdm.agreed fun m =>
    m.spdmSend t msg (.digests (slice (Config.sha384 certSlot0) 0 48)) fun x => x

/-- The portion of certificate slot 0 that a request names: slot, offset and length (PRESUMED, assumption 15). -/
def certAnswer (msg : List Byte) : SpdmAnswer :=
  let off := fld msg 4 2
  let rest := certSlot0.drop off
  if fld msg 2 1 % 16 ≠ 0 ∨ rest = [] then .error
  else .certificate (rest.take (fld msg 6 2)) (rest.length - fld msg 6 2)

/-- SPDM_GET_CERTIFICATE (17 R396, R392). -/
def execSpdmGetCertificate (t : SpdmPort) (msg : List Byte) (s : State) : Host.Outcome State Fault Refusal :=
  s.act fun m => m.spdmMsg t 0x82 msg Spdm.agreed fun m => m.spdmSend t msg (certAnswer msg) fun x => x

/-- SPDM_CHALLENGE (17 R396): certificate slot 0; its signature goes to the public-key engine (17 R387). -/
def execSpdmChallenge (t : SpdmPort) (msg : List Byte) (s : State) : Host.Outcome State Fault Refusal :=
  s.act fun m => m.spdmMsg t 0x83 msg Spdm.agreed fun m =>
    if fld msg 2 1 ≠ 0 then m.send (.spdm t .error)
    else { m with pke := m.pke ++ [PkeJob.sign t msg (.challengeAuth (slice (Config.sha384 certSlot0) 0 48) (0, 0)) none] }

/-- The measurements that a request names: 0 how many there are, 0xFF all, else one index (PRESUMED, assumption 15). -/
def Mod.measureAnswer (m : Mod) (msg : List Byte) : SpdmAnswer :=
  let i := fld msg 3 1
  let bs := if i = 0xFF then m.measureBlocks else m.measureBlocks.filter fun b => b.1 == i
  if i = 0 then .measurementCount 5 else if bs.isEmpty then .error else .measurements bs none

/-- SPDM_GET_MEASUREMENTS (17 R396); a signature that is asked for goes to the public-key engine (17 R387). -/
def execSpdmGetMeasurements (t : SpdmPort) (msg : List Byte) (s : State) : Host.Outcome State Fault Refusal :=
  s.act fun m => m.spdmMsg t 0xE0 msg Spdm.agreed fun m =>
    let a := m.measureAnswer msg
    match a, bit (fld msg 2 1) 0 with
    | .measurements _ _, true => { m with pke := m.pke ++ [PkeJob.sign t msg a none] }
    | _, _ => m.spdmSend t msg a fun x => x

/-- SPDM_KEY_EXCHANGE (17 R396): key generation, ECDH and a signature on the public-key engine (17 R387); the response opens
a session in its handshake. -/
def execSpdmKeyExchange (t : SpdmPort) (msg : List Byte) (s : State) : Host.Outcome State Fault Refusal :=
  s.act fun m => m.spdmMsg t 0xE4 msg Spdm.agreed fun m =>
    let (d, m) := m.draw
    { m with pke := m.pke ++ [PkeJob.share t msg d] }

/-- SPDM_FINISH (17 R396): the session is established. -/
def execSpdmFinish (t : SpdmPort) (msg : List Byte) (s : State) : Host.Outcome State Fault Refusal :=
  s.act fun m => m.spdmMsg t 0xE5 msg (fun x => x.agreed && x.session == 1) fun m =>
    m.spdmSend t msg .finished fun x => { x with session := 2 }

/-- SPDM_END_SESSION (17 R396). -/
def execSpdmEndSession (t : SpdmPort) (msg : List Byte) (s : State) : Host.Outcome State Fault Refusal :=
  s.act fun m => m.spdmMsg t 0xEC msg (fun x => x.session == 2) fun m =>
    m.spdmSend t msg .sessionEnded fun x => { x with session := 0, secret := 0 }

/-- A signed response is ready (17 R396): signed with the identity key (17 R392) over the connection so far. -/
def Mod.signDone (m : Mod) (t : SpdmPort) (msg : List Byte) (a : SpdmAnswer) (secret : Option Nat) : Mod :=
  let e := Config.spdmDigest a.code ((m.spdmAt t).transcript ++ msg ++ a.contents)
  m.spdmSend t msg (a.signed (signFrom identityScalar e 256 0)) fun x =>
    match secret with
    | some z => { x with session := 1, secret := z }
    | none => x

/-- The requester's point in a KEY_EXCHANGE: x then y, most significant byte first (PRESUMED, assumption 15). -/
def exchangePoint (msg : List Byte) : Nat × Nat :=
  (leNat (slice msg 40 48).reverse, leNat (slice msg 88 48).reverse)

/-- The ECDH of a KEY_EXCHANGE ends (17 R389, R390): a rejected point records its reason, and the error response answers. -/
def Mod.agreeDone (m : Mod) (t : SpdmPort) (msg : List Byte) (scalar : Nat) : Mod :=
  let q := exchangePoint msg
  let reject (w : Nat) : Mod := (m.pkeReason .pf w).send (.spdm t .error)
  match screenPoint q.1 q.2 with
  | some (w, _) => reject w
  | none =>
    match scalarMul scalar (some q) with
    | none => reject 6
    | some (z, _) =>
      { m with pke := m.pke ++ [PkeJob.sign t msg (.keyExchange (pointBytes (scalarMul scalar curveG)) (0, 0)) (some z)] }

/-! ### The public-key engine (17 R387) -/

/-- The end of an operation. An operation that another one needs reaches the engine once that has ended. -/
def Mod.pkeEnds (m : Mod) (j : PkeJob) : Mod :=
  match j with
  | .load r d => if klOp r.payload = 2 then m.wrappedDone r else m.generateDone r d
  | .verify => m.verifyDone
  | .attest r body key idSig => m.attestDone r body key idSig
  | .sign t msg a secret => m.signDone t msg a secret
  | .share t msg d => { m with pke := m.pke ++ [PkeJob.agree t msg (scalarOf d)] }
  | .agree t msg d => m.agreeDone t msg d

/-- PKE_OPERATION_DONE (17 R387): the operation at the front of the engine ends. It serves the boot ROM too (02 R63, R66). -/
def execPkeOperationDone (s : State) : Host.Outcome State Fault Refusal :=
  s.act fun m => m.alive fun m =>
    match m.pke with
    | [] => m
    | j :: rest => ({ m with pke := rest }).pkeEnds j

/-! ### IDE key management (17 R396, 02 R43) -/

/-- A message for a stream: its keys programmed, started with keys programmed, or stopped. -/
def Ide.act (x : Ide) (a : IdeAct) : Ide :=
  match a with
  | .program key => { x with key := key }
  | .start => if x.key.isEmpty then x else { x with secure := true }
  | .stop => { x with secure := false }

/-- IDE_KEY_MANAGEMENT_MESSAGE (17 R396): carried by an established session over DOE. -/
def execIdeKeyManagementMessage (st : IdeStream) (a : IdeAct) (s : State) : Host.Outcome State Fault Refusal :=
  s.act fun m => m.host fun m =>
    if (m.spdmAt .doe).session = 2 then
      let x := Table.get Ide.reset (ideIdx st) m.pcie.ide
      { m with pcie := { m.pcie with ide := Table.set (ideIdx st) (x.act a) m.pcie.ide } }
    else m

end Sys2Proof.Machine
end

