-- ==== Sys2Proof/Machine/Partitions.lean ====
section
/-!
DEFINITION. Partitions are created and deleted (17 R371 to R373).
-/

namespace Sys2Proof.Machine

def pcPart (pl : List Byte) : Nat := fld pl 0 1
def pcOp (pl : List Byte) : Nat := fld pl 1 1
def pcTenant (pl : List Byte) : Nat := fld pl 2 2

/-- Whether a raise of a partition has started and not completed. -/
def Partition.runs (p : Partition) : Bool := p.ctxs.any fun (e : Nat × Context) => !e.2.started.isEmpty

/-- The checks of 17 R371. -/
def Mod.partBad (m : Mod) (r : Request) : Option (Nat × Nat) :=
  let pl := r.payload
  let op := pcOp pl
  let k := pcPart pl
  let p := m.part k
  orBad (fieldBad [(decide (64 ≤ k), 0), (op != 1 && op != 2, 1),
      (if op = 2 then pcTenant pl != 0 else pcTenant pl == 0 || pcTenant pl == 0xFFFF, 2), (fld pl 4 4 != 0, 4)])
    (firstBad [
      (if op = 1 then p.created else !p.created, stNotPermitted, 1),
      (op == 2 && (p.resvs.any (fun (e : Nat × Reservation) => !e.2.closed) || p.runs ||
        m.jobs.any (fun (e : Nat × Job) => bit e.2.parts.toNat k) || !(m.bindsOf k).isEmpty || p.underReset),
        stNotPermitted, 2)])

/-- A partition with every piece of its state cleared (17 R372, 20 R449): external memory and the state of the trusses
stand. -/
def Partition.cleared (p : Partition) : Partition :=
  { Partition.reset with
    regs := p.regs.filter fun (e : Nat × Word) => e.1 == offTruss
    ext := p.ext, extKey := p.extKey, extPoison := p.extPoison }

/-- The staged halves and shadows of a partition's 64-bit registers at reset (00 R9, 20 R449), of `ADM_DEVTIME` apart. -/
def Mod.clearPairs (m : Mod) (k : Nat) : Mod :=
  let own (n : Nat) : Bool := (n % 2 ^ 40 - blockBase k) / 0x80000 == 0 && decide (blockBase k + 8 < n % 2 ^ 40)
  { m with staged := m.staged.filter fun (e : Nat × Word) => !own e.1
           shadows := m.shadows.filter fun (e : Nat × Word) => !own e.1 }

/-- CREATE (17 R372): the partition belongs to its tenant, with a fresh key for the reserved region. -/
def Mod.partCreate (m : Mod) (r : Request) : Mod :=
  m.judge r (m.partBad r) fun m =>
    let (d, m) := m.draw
    let m := (m.clearPairs (pcPart r.payload)).modPart (pcPart r.payload) fun p =>
      { p.cleared with created := true, tenant := BitVec.ofNat 16 (pcTenant r.payload), reservedKey := d + 1 }
    m.respond r stOk 0

/-- PART_CREATE with CREATE (17 R372); a request whose `OP` names no operation is refused here. -/
def execPartCreate (f : Fn) (s : State) : Host.Outcome State Fault Refusal :=
  s.act fun m => m.mbxRow f 0x10 (fun r => pcOp r.payload != 2) Mod.partCreate

/-- A partition without reservations; their fabric slots are free (17 R373, 18 R404). -/
def Mod.dropResvs (m : Mod) (k : Nat) : Mod :=
  let m := m.forAll (fun m (e : Nat × Reservation) =>
    { m with fabric := e.2.slots.foldl (fun t s => Table.modify 0 s.1 (· - s.2) t) m.fabric }) (m.part k).resvs
  m.modPart k fun p => { p with resvs := [] }

/-- What a partition holds outside itself goes: fabric slots, device reads, users of keys, and attachments in
progress. -/
def Mod.partLeave (m : Mod) (k : Nat) : Mod :=
  let p := m.part k
  let m := (m.apAbandon k).dropResvs k
  let m := m.forAll (fun m ch => m.orphanReads k ch) (List.range 16)
  let m := m.keyRelease fun u => match u with
    | .dma j _ => j == k
    | .scrub j => j == k
    | .linkSend j _ _ _ => j == k
    | .linkRecv j _ _ _ _ => j == k
    | .attest _ => false
  m.forAll (fun m (e : Nat × Shard) => m.shardFinish k e.1 stPartitionReset 0) p.shards

/-- DELETE (17 R373): the partition and what it held are gone; with the tenant's last partition every key slot of the
tenant is erased as by NOW. -/
def Mod.partDelete (m : Mod) (r : Request) : Mod :=
  m.judge r (m.partBad r) fun m =>
    let k := pcPart r.payload
    let t := (m.part k).tenant
    let m := ((m.partLeave k).clearPairs k).modPart k Partition.cleared
    let m := if m.tenantHere t then m
      else m.forAll (fun m (e : Nat × KeySlot) => if e.2.state != .free && e.2.tenant == t then (m.eraseNow e.1).slotFree e.1 else m) m.keys
    m.respond r stOk 0

/-- PART_CREATE with DELETE (17 R373). -/
def execPartDelete (f : Fn) (s : State) : Host.Outcome State Fault Refusal :=
  s.act fun m => m.mbxRow f 0x10 (fun r => pcOp r.payload == 2) Mod.partDelete

end Sys2Proof.Machine
end

