-- ==== Sys2Proof/Machine/BodyChecks.lean ====
section
/-!
DEFINITION. What FRAME_LOAD refuses in the bodies of nodes, unit by unit (06 R151, 09 R208, 10 R228, 12 R284, 13 R301,
15 R340), and the gather size of a frame (06 R165).
-/

namespace Sys2Proof.Machine

/-- The offsets whose conditions hold. -/
def offs (checks : List (Bool × Nat)) : List Nat := (checks.filter fun c => c.1).map fun c => c.2

/-- The lowest of a list of offsets. -/
def lowest : List Nat → Option Nat
  | [] => none
  | x :: xs => some (xs.foldl min x)

/-! ### Gathering (06 R165) -/

/-- The first gathered array pass of a frame. -/
def gatherNode (img : List Byte) : Option Nat :=
  (List.range (frameNodes img)).find? fun i => nodeUnit img i == 1 && (parseArray (nodeBody img i)).gather

/-- Whether a frame is gatherable (06 R165). -/
def frameGathers (img : List Byte) : Bool := (gatherNode img).isSome

/-- Members of a gathered run at most, 1 for a frame that is not gatherable. -/
def frameG (img : List Byte) : Nat :=
  match gatherNode img with
  | some i => (parseArray (nodeBody img i)).members
  | none => 1

/-- The gathering window in ns (06 R150). -/
def frameGatherNs (img : List Byte) : Nat :=
  match gatherNode img with
  | some i => (parseArray (nodeBody img i)).gatherNs
  | none => 0

/-! ### Edges (04 R100) -/

/-- Removes, round by round, the nodes all of whose predecessors are gone: what stays lies on or behind a cycle. -/
def cyclicNodes (edges : List (Nat × Nat)) : Nat → List Nat → List Nat
  | 0, ns => ns
  | fuel + 1, ns =>
    let left := ns.filter fun i => edges.any fun e => e.2 == i && ns.contains e.1
    if left.length = ns.length then ns else cyclicNodes edges fuel left

/-- Whether the edges form a graph without cycles (04 R100). -/
def acyclic (edges : List (Nat × Nat)) (n : Nat) : Bool := (cyclicNodes edges (n + 1) (List.range n)).isEmpty

/-- The nodes reachable from a set. -/
def reachSet (edges : List (Nat × Nat)) : Nat → List Nat → List Nat
  | 0, ns => ns
  | fuel + 1, ns =>
    let new := dedup ((edges.filter fun e => ns.contains e.1 && !ns.contains e.2).map (·.2))
    if new.isEmpty then ns else reachSet edges fuel (ns ++ new)

/-- Whether node b is reachable from another node a through the edges. -/
def reaches (img : List Byte) (a b : Nat) : Bool :=
  a != b && (reachSet (frameEdges img) (frameNodes img) [a]).contains b

/-! ### Array passes (06 R148, R150, R151) -/

/-- Check 6 of 04 R101 for an array pass (06 R148, 05 R123). -/
def arrayUnsupported (bs : List Byte) : Bool :=
  let b := parseArray bs
  !fmtProvided b.wfmt || !fmtProvided b.afmt || b.cls.isNone || (b.lut && b.acc16)

/-- The fields of an array body that break its rules; `first` is the frame's first gathered pass. -/
def arrayBad (bs : List Byte) (first : Option ArrayBody) : List Nat :=
  let b := parseArray bs
  let gOk := if b.gather then decide (2 ≤ b.members) && decide (b.members ≤ 64) && decide (b.mrows ≤ 64) else b.members == 1
  let mOk := decide (1 ≤ b.rows) && decide (b.rows ≤ if b.acc16 then 128 else 64)
  let kOk := decide (1 ≤ b.kLen) && decide (b.kLen ≤ 1048576)
  let nOk := decide (1 ≤ b.nCols) && decide (b.nCols ≤ 1048576)
  let tiles := b.kt * b.nt
  let wmx := fmtBlock b.wfmt
  let amx := fmtBlock b.afmt
  offs ([
    (wmx != 0 && amx != 0 && wmx != amx, 1), (decide (8 ≤ fld bs 2 1), 2), (!([4, 8, 16].contains b.group), 3), (!mOk, 4),
    (!gOk, 6),
    (b.acc16 && b.spill != 0 && decide (2048 < b.psRow + b.nt * b.outRows + 2 * b.mrows), 7),
    (!kOk, 8), (!nOk, 12), (decide (16384 ≤ b.wsRow), 16), (wmx == 0 && b.wsScaleRow != 0, 18),
    (decide (8192 ≤ b.asRow), 20), (amx == 0 && b.asScaleRow != 0, 22), (decide (2048 ≤ b.psRow), 24),
    (if b.lut then bit b.lutRow 15 else b.lutRow != 0, 26),
    (if b.gather then decide (100000 < b.gatherNs) else b.gatherNs != 0, 28)] ++
    (if !(mOk && gOk && kOk && nOk) then []
     else [
      (decide (16384 < b.wsRow + tiles * b.tileRows), 16), (wmx != 0 && decide (16384 < b.wsScaleRow + tiles * b.scaleRows), 18),
      (decide (8192 < b.asRow + b.kt * b.actRows), 20), (amx != 0 && decide (8192 < b.asScaleRow + b.kt * b.actScaleRows), 22),
      (decide (2048 < b.psRow + b.nt * b.outRows), 24),
      (b.lut && decide (16384 < b.lutRow % 16384 + tiles), 26)]) ++
    (match first with
     | some g => [(b.gather && b.members != g.members, 6), (b.gather && b.gatherNs != g.gatherNs, 28)]
     | none => []))

/-! ### Vector nodes (09 R202 to R208, 08 R185) -/

/-- The least and the largest `NOPS` of an operation; none where it is not provided (09 R205). -/
def vecNops (op : Nat) : Option (Nat × Nat) :=
  match op with
  | 0x01 => some (1, 16)
  | 0x02 => some (1, 2)
  | 0x03 => some (3, 3)
  | 0x04 => some (1, 2)
  | 0x05 => some (1, 2)
  | 0x08 => some (1, 1)
  | 0x09 => some (1, 1)
  | 0x10 => some (1, 1)
  | 0x11 => some (2, 2)
  | 0x18 => some (1, 2)
  | 0x19 => some (1, 2)
  | 0x1A => some (1, 3)
  | 0x1B => some (1, 1)
  | _ => none

/-- Whether an operation takes a source format (09 R205). -/
def vecSrcFmt (op f : Nat) : Bool :=
  if op = 8 then fmtProvided f && fmtElem f != 0xA else if op = 9 then f == 0 else decide (f ≤ 2)

/-- Whether an operation takes a destination format. -/
def vecDstFmt (op f : Nat) : Bool :=
  if op = 8 then fmtProvided f && fmtElem f != 0xA else if op = 9 ∨ op = 0x1B then f == 0 else decide (f ≤ 2)

/-- Check 6 of 04 R101 for a vector node (09 R208, 05 R142, 08 R185). -/
def vecUnsupported (bs : List Byte) : Bool :=
  let b := parseVec bs
  let quant := b.op == 8 || b.op == 9
  (vecNops b.op).isNone || ((b.op == 0x10 || b.op == 0x11) && decide (11 < b.func)) ||
    (b.op == 8 && decide (2 ≤ bits b.cvt 1 0)) || !vecDstFmt b.op b.dst.fmt || b.srcs.any (fun o => !vecSrcFmt b.op o.fmt) ||
    (quant && (b.agran == 3 || b.wkind == 3 || b.wgran == 1 || b.wgran == 3 ||
      (b.op == 8 && (b.wkind != 0 || b.wgran != 0)) || (b.op == 9 && b.agran == 2) ||
      (b.op == 8 && b.qctl != 0 && isFloat b.dst.elem && isFloat (b.src 0).elem)))

/-- Whether `IMM` obeys its rule (09 R202, R205). -/
def vecImmOk (b : VecBody) : Bool :=
  let posFin := decide (b.imm < 0x7F800000)
  if ([1, 2, 4, 5].contains b.op) && b.nops == 1 then true
  else if b.op = 0x18 then posFin && decide (0x00800000 ≤ b.imm)
  else if b.op = 0x19 ∨ b.op = 0x1A then posFin
  else b.imm == 0

/-- The fields of one descriptor that break its rules, offsets from its start (09 R203, R208). -/
def operandBad (bs : List Byte) (o : Nat) (cols : Nat) : List Nat :=
  let d := parseOperand bs o
  let w := elemWidth d.elem
  offs [
    (decide (32 ≤ d.oflags), 3), (d.block == 0 && d.scaleRow != 0, 4), (!d.tiled && d.tstride != 0, 6),
    (!bit d.oflags 4 && d.memberRows != 0, 8), (!allZero (slice bs (o + 10) 6), 10),
    (d.tiled && ((w != 16 && w != 32) || d.block != 0), 3),
    (!d.tiled && decide (d.bcast < 2) && d.rowLen cols % 4 != 0, 2)]

/-- Whether two lists of regions overlap. -/
def regionsMeet (xs ys : List (Nat × Nat × Nat)) : Bool :=
  xs.any fun x => ys.any fun y => x.1 == y.1 && overlaps x.2.1 x.2.2 y.2.1 y.2.2

/-- Whether a region runs past its store. -/
def regionPast (x : Nat × Nat × Nat) : Bool := decide (storeBytes x.1 < x.2.1 + x.2.2)

/-- Whether a source coincides with the destination (09 R208). -/
def coincides (d s : Operand) : Bool := d == s && s.bcast == 0

/-- The regions of a vector body that break 09 R208, over the instances of a gathered frame. -/
def vecRegionsBad (b : VecBody) (g : Nat) : List Nat :=
  let inst := List.range (max 1 g)
  let dst (m : Nat) := b.dst.regions b.rows b.dstCols m
  let src (o : Operand) (m : Nat) := o.regions b.rows b.cols m
  let all (m : Nat) := dst m ++ b.srcs.flatMap (fun o => src o m) ++ b.statRegion m
  inst.flatMap fun m =>
    offs ([((dst m).take 1 |>.any regionPast, 32), ((dst m).drop 1 |>.any regionPast, if b.dst.tiled then 32 else 36),
        ((b.statRegion m).any regionPast, 24),
        (b.srcs.any (fun o => !coincides b.dst o && regionsMeet (dst m) (src o m)), 32),
        (b.srcs.any (fun o => regionsMeet (b.statRegion m) (src o m)), 24),
        (inst.any (fun j => j != m && regionsMeet (dst m) (all j)), 32),
        (inst.any (fun j => j != m && regionsMeet (b.statRegion m) (all j)), 24)] ++
      (List.range b.srcs.length).flatMap fun i =>
        let rs := src (b.src i) m
        [(rs.take 1 |>.any regionPast, 48 + 16 * i), (rs.drop 1 |>.any regionPast, 48 + 16 * i + if (b.src i).tiled then 0 else 4)])

/-- The fields of a vector body that break its rules (09 R202, R203, R205, R208; 08 R185). -/
def vecBad (bs : List Byte) (g : Nat) : List Nat :=
  let b := parseVec bs
  let nOk := match vecNops b.op with
    | some r => decide (r.1 ≤ b.nops) && decide (b.nops ≤ r.2)
    | none => true
  let rOk := decide (1 ≤ b.rows) && decide (b.rows ≤ 65536)
  let cOk := decide (1 ≤ b.cols) && decide (b.cols ≤ 1048576)
  let quant := b.op == 8 || b.op == 9
  let stats := b.op == 0x18 && bit b.flags 0
  offs [
    (if b.op = 0x11 then !([6, 8, 9].contains b.func) else b.op != 0x10 && b.func != 0, 1),
    (if b.op = 8 then decide (8 ≤ b.cvt) else b.cvt != 0, 2), (!nOk, 3), (!rOk, 4), (!cOk, 8),
    (if quant then decide (256 ≤ b.qctl) else b.qctl != 0, 12),
    (if b.qctl = 0 then b.qrow != 0 else quant && decide (8192 < b.qrow + b.paramRows), 16),
    (if b.op = 0x18 then decide (4 ≤ b.flags) else b.flags != 0, 18), (fld bs 19 1 != 0, 19), (!vecImmOk b, 20),
    (!stats && b.statRow != 0, 24), (!allZero (slice bs 26 6), 26), (b.dst.bcast != 0, 35)] ++
  (operandBad bs 32 b.dstCols).map (· + 32) ++
  (List.range b.srcs.length).flatMap (fun i => (operandBad bs (48 + 16 * i) b.cols).map (· + (48 + 16 * i))) ++
  (if nOk && rOk && cOk then vecRegionsBad b g else [])

/-! ### DMA nodes (10 R226 to R228, 11 R249) -/

/-- Check 6 of 04 R101 for a DMA body (10 R228). -/
def dmaUnsupported (b : List Byte) : Bool :=
  decide (3 < fld b 0 1) || decide (3 < fld b 1 1) || (decide (2 ≤ fld b 0 1) && decide (2 ≤ fld b 1 1))

/-- Whether a side's field obeys 10 R227 and R228, 11 R249 and 04 R109. -/
def dmaSideOk (img b : List Byte) (g : Nat) (kind v : Nat) : Bool :=
  let shift := if bit (bodyFlags b) 0 then (g - 1) * fld b 24 4 else 0
  match kind with
  | 0 => v % 64 == 0 && viewOk v && (!compressed v || addrLoc v % 4096 == 0)
  | 1 => ownLocOk v && decide (locRow v * rowBytes (locStore v) + bodyLen b + shift ≤ storeBytes (locStore v)) &&
      (frameBoth img || locTruss v == 0)
  | 2 => winLocOk v
  | _ => v % 64 == 0

/-- The fields of a DMA body that break its rules. -/
def dmaBad (img b : List Byte) (g : Nat) : List Nat :=
  let flags := bodyFlags b
  let stride := fld b 24 4
  let side (ko vo : Nat) : Bool := dmaSideOk img b g (fld b ko 1) (fld b vo 8)
  let cmp (ko vo : Nat) : Bool := fld b ko 1 == 0 && compressed (fld b vo 8)
  offs [
    (decide (8 ≤ flags), 2), (fld b 3 1 != 0, 3),
    (!lenOk b || ((cmp 0 8 || cmp 1 16) && bodyLen b % 4096 != 0), 4), (!side 0 8, 8), (!side 1 16, 16),
    (if bit flags 0 then stride % 1024 != 0 else stride != 0, 24),
    (bit flags 1 && decide (framePegs img ≤ fld b 28 1), 28), (bit flags 2 && decide (framePegs img ≤ fld b 29 1), 29),
    (fld b 30 2 != 0, 30)]

/-! ### Link nodes (15 R340) -/

/-- Check 6 of 04 R101 for a link body. -/
def linkUnsupported (b : List Byte) : Bool :=
  !([1, 2, 3].contains (linkOp b)) || decide (1 < fld b 24 1) || decide (1 < fld b 25 1)

/-- Where a field of a DMA body stands in a link body. -/
def linkOff (o : Nat) : Nat :=
  match o with
  | 2 => 1
  | 24 => 28
  | 28 => 26
  | 29 => 27
  | x => x

/-- The fields of a link body that break its rules. -/
def linkBad (img b : List Byte) (g : Nat) : List Nat :=
  let link := fld b 2 1
  let best := decide (0x80 ≤ link)
  let recv := linkOp b == 2
  let send := linkOp b == 1
  (dmaBad img (linkSides b) g).map linkOff ++
  offs [
    (!(decide (link < 96) || (best && decide (link < 0x88))), 2),
    (!(decide (1 ≤ fld b 3 1) && decide (fld b 3 1 ≤ 24)) || (best && fld b 3 1 != 1), 3), (decide (2 ^ 30 < linkLen b), 4),
    (recv && fld b 8 8 != 0, 8), (send && fld b 16 8 != 0, 16), (recv && fld b 24 1 != 0, 24), (send && fld b 25 1 != 0, 25),
    (decide (4096 ≤ fld b 32 2), 32), (!allZero (slice b 36 12), 36)]

/-! ### Page walks (12 R283, R284) -/

/-- Whether a peg is of a kind, and an `ADDR` peg's `EXTENT` large enough. -/
def pegIs (img : List Byte) (i kind extent : Nat) : Bool :=
  decide (i < framePegs img) && pegKind img i == kind && decide (extent ≤ pegExtent img i)

/-- Check 6 of 04 R101 for a page walk (12 R284). -/
def kvUnsupported (b : List Byte) : Bool := !([1, 2].contains (kvOp b)) || !(decide (1 ≤ kvFmt b) && decide (kvFmt b ≤ 4))

/-- The fields of a page-walk body that break its rules by themselves. -/
def kvBad (img b : List Byte) (g : Nat) : List Nat :=
  let rd := kvOp b == 1
  let last := if frameGathers img then g - 1 else 0
  let rOk := kvR b % 128 == 0 && decide (128 ≤ kvR b) && decide (kvR b ≤ 2048)
  let need := ceilDiv (kvWin b) 64 + b2n (kvWin b != 0) + kvGlobCount b
  let srcSt := if kvFlag b 4 then 2 else 1
  let mskSt := if kvFlag b 2 then 2 else 1
  offs [
    (!pegIs img (kvPeg b) 3 0, 1),
    (decide (32 ≤ fld b 3 1) || (rd && (kvFlag b 3 || kvFlag b 4)) || (!rd && (kvFlag b 0 || kvFlag b 1)), 3), (!rOk, 4),
    (if rd then !(decide (1 ≤ kvSlots b) && decide (kvSlots b ≤ 1089)) || decide (kvSlots b < need) else kvSlots b != 0, 6),
    (if rd then decide (65536 < kvWin b) || (kvWin b == 0 && kvGlobCount b == 0) else kvWin b != 0, 8),
    (if rd then decide (64 < kvGlobCount b) else kvGlobCount b != 0, 12),
    (if kvGlobCount b = 0 then kvGlobPeg b != 0 else !pegIs img (kvGlobPeg b) 1 (4 * kvGlobCount b), 13),
    (if rd then kvApp b != 0 else !(decide (1 ≤ kvApp b) && decide (kvApp b ≤ 64)), 14),
    (if rd then decide (16384 < kvRow b last + kvRegionRows b)
      else decide (storeBytes srcSt < kvRow b last * rowBytes srcSt + kvApp b * kvTw b), 16),
    (if kvFlag b 1 then decide (storeBytes mskSt < kvMaskRow b last * rowBytes mskSt + 256 * kvSlots b)
      else fld b 18 2 != 0, 18),
    (!frameGathers img && fld b 20 2 != 0, 20), (!allZero (slice b 22 10), 22)]

/-- Whether a node names its `KV_PEG` as 12 R284 counts it, and how many pages it can touch. -/
def kvNames (img : List Byte) (i : Nat) : Option (Nat × Nat) :=
  let b := nodeBody img i
  if nodeUnit img i = 5 then some (kvPeg b, if kvOp b = 1 then kvSlots b else 2)
  else if nodeUnit img i = 6 ∧ 3 ≤ specOp b then some (specPeg b, 2)
  else none

/-- Whether a node writes through its `KV_PEG`: an APPEND, or a node of unit 0x06. -/
def kvWrites (img : List Byte) (i : Nat) : Bool := nodeUnit img i == 6 || kvOp (nodeBody img i) == 2

/-- The conditions of 12 R284 over several nodes, as they fall on node `i`: an earlier node of the same `KV_PEG` that no
edge orders, and more than 2,048 pages up to this node. -/
def kvPairBad (img : List Byte) (i : Nat) : List Nat :=
  match kvNames img i with
  | none => []
  | some (peg, n) =>
    let before := (List.range i).filter fun j => match kvNames img j with
      | some x => x.1 == peg
      | none => false
    let pages := n + (before.map fun j => match kvNames img j with
      | some x => x.2
      | none => 0).sum
    offs [(before.any (fun j => (kvWrites img i || kvWrites img j) && !reaches img i j && !reaches img j i) ||
      decide (2048 < pages), 1)]

/-! ### Speculation nodes (13 R300, R301) -/

/-- Check 6 of 04 R101 for a speculation body: an operation that is none, or a format that is not provided (05 R123). -/
def specUnsupported (b : List Byte) : Bool :=
  !(decide (1 ≤ specOp b) && decide (specOp b ≤ 5)) || !fmtProvided (specFmt b)

/-- The first MASK, ACCEPT or COMMIT of a frame. -/
def specFirst (img : List Byte) : Option Nat :=
  (List.range (frameNodes img)).find? fun i =>
    nodeUnit img i == 6 && decide (1 ≤ specOp (nodeBody img i)) && decide (specOp (nodeBody img i) ≤ 3)

/-- The fields of the speculation body of node `i` that break its rules. -/
def specBad (img : List Byte) (i g : Nat) : List Nat :=
  let b := nodeBody img i
  let op := specOp b
  let tree := op == 1 || op == 2 || op == 3
  let last := if frameGathers img then g - 1 else 0
  let ref := specRef b
  let rb := nodeBody img ref
  let accNode (j : Nat) : Bool := nodeUnit img j == 6 && specOp (nodeBody img j) == 2
  let refOk :=
    if op = 1 then decide (ref < frameNodes img) && nodeUnit img ref == 5 && kvOp rb == 1 && kvPeg rb == specPeg b &&
      reaches img ref i
    else if op = 3 then decide (ref < frameNodes img) && accNode ref && reaches img ref i
    else ref == 0
  let appended := (List.range (frameNodes img)).any fun j =>
    nodeUnit img j == 5 && kvOp (nodeBody img j) == 2 && kvPeg (nodeBody img j) == specPeg b &&
      kvApp (nodeBody img j) == specNmax b && reaches img j i
  let st := specStore b
  let region := if op = 1 then specNmax b * 256 * kvSlots rb else 8 * specNmax b
  offs ([
    (if op = 2 then specPeg b != 0 else !pegIs img (specPeg b) 3 0, 1),
    (if op ≤ 2 then specFmt b != 0 else !(decide (1 ≤ specFmt b) && decide (specFmt b ≤ 4)), 2),
    (decide (4 ≤ fld b 3 1), 3),
    (if op ≤ 2 then specR b != 0
      else !(specR b % 128 == 0 && decide (128 ≤ specR b) && decide (specR b ≤ 2048)), 4),
    (!(decide (1 ≤ specNmax b) && decide (specNmax b ≤ 64)) || (frameGathers img && decide (64 < g * specNmax b)), 6),
    (if tree then !pegIs img (specTree b) 1 448 else specTree b != 0, 7),
    (if op = 5 ∨ specChain b = true then !pegIs img (specPrev b) 1 448 else specPrev b != 0, 8),
    (if op = 2 ∨ op = 5 then !pegIs img (specAcc b) 1 448 else specAcc b != 0, 9), (!refOk, 10),
    (if op ≤ 2 then decide (storeBytes st < specRow b last * rowBytes st + region) else fld b 12 2 != 0, 12),
    (!frameGathers img && fld b 14 2 != 0, 14), (!allZero (slice b 16 16), 16),
    ((op == 1 || op == 3) && !appended, 1), (op == 2 && (List.range i).any accNode, 0)] ++
    (match specFirst img with
     | some j =>
       let f := nodeBody img j
       [(tree && specTree b != specTree f, 7), (tree && specNmax b != specNmax f, 6),
        (tree && specChain b != specChain f, 3), (tree && specPrev b != specPrev f, 8)]
     | none => []))

/-! ### All units -/

/-- Check 6 of 04 R101 for node `i`. -/
def nodeUnsupported (img : List Byte) (i : Nat) : Bool :=
  let b := nodeBody img i
  match nodeUnit img i with
  | 1 => arrayUnsupported b
  | 2 => vecUnsupported b
  | 3 => dmaUnsupported b
  | 4 => linkUnsupported b
  | 5 => kvUnsupported b
  | 6 => specUnsupported b
  | _ => true

/-- The length a node's body must have. -/
def bodyLenRule (img : List Byte) (i : Nat) : Nat :=
  match nodeUnit img i with
  | 2 => 48 + 16 * fld (nodeBody img i) 3 1
  | 4 => 48
  | _ => 32

/-- Check 7 of 04 R101 for node `i`: the offsets in the image of its bad fields. -/
def nodeBad (img : List Byte) (i : Nat) : List Nat :=
  let b := nodeBody img i
  let g := frameG img
  let inBody :=
    match nodeUnit img i with
    | 1 => arrayBad b ((gatherNode img).map fun j => parseArray (nodeBody img j))
    | 2 => vecBad b g
    | 3 => dmaBad img b g
    | 4 => linkBad img b g
    | 5 => kvBad img b g ++ kvPairBad img i
    | _ => specBad img i g ++ kvPairBad img i
  (if nodeBodyLen img i = bodyLenRule img i then [] else [frameNodeOff img + 16 * i + 8]) ++
    inBody.map (· + nodeBodyOff img i)

end Sys2Proof.Machine
end

