-- ==== Sys2Proof/Machine/Load.lean ====
section
/-!
DEFINITION. FRAME_LOAD: the checks of an image, the counts of its nodes, and the stored frame (04 R97 to R102).
-/

namespace Sys2Proof.Machine

/-! ### The image (04 R98 to R100) -/

/-- The header fields of an image that break 04 R98. -/
def headerBad (img : List Byte) (len : Nat) : List Nat :=
  let past (off size n : Nat) : Bool := off % size != 0 || decide (len < off + size * n)
  offs [
    (fld img 0 4 != 0x594E4152, 0), (fld img 4 2 != 1, 4), (decide (1 < fld img 6 2), 6),
    (!(decide (1 ≤ frameNodes img) && decide (frameNodes img ≤ 4096)), 8), (decide (256 < framePegs img), 10),
    (fld img 12 4 != len, 12), (past (framePegOff img) 16 (framePegs img), 16), (past (frameNodeOff img) 16 (frameNodes img), 20),
    (past (frameEdgeOff img) 4 (frameEdgeCount img), 24), (decide (65536 < frameEdgeCount img), 28),
    (!allZero (slice img 32 32), 32)]

/-- The fields of a peg entry that break 04 R99. -/
def pegBad (img : List Byte) (i : Nat) : List Nat :=
  (offs [(decide (3 < pegKind img i), 8), (!allZero (slice img (framePegOff img + 16 * i + 9) 3), 9),
    (if pegKind img i = 1 then pegExtent img i == 0 else pegExtent img i != 0, 12)]).map (· + (framePegOff img + 16 * i))

/-- The fields of a node entry that break 04 R100. -/
def nodeEntryBad (img : List Byte) (i len : Nat) : List Nat :=
  let o := frameNodeOff img + 16 * i
  (offs [(decide (1 < nodeTruss img i) || (nodeTruss img i == 1 && !frameBoth img), 1), (decide (15 < nodePrio img i), 2),
    (fld img (o + 3) 1 != 0, 3), (nodeBodyOff img i % 16 != 0 || decide (len < nodeBodyOff img i), 4),
    (decide (len < nodeBodyOff img i + nodeBodyLen img i), 8), (fld img (o + 12) 4 != 0, 12)]).map (· + o)

/-- The indices of edges that name no node. -/
def edgesBad (img : List Byte) : List Nat :=
  (List.range (frameEdgeCount img)).flatMap fun i =>
    let o := frameEdgeOff img + 4 * i
    offs [(decide (frameNodes img ≤ fld img o 2), o), (decide (frameNodes img ≤ fld img (o + 2) 2), o + 2)]

/-- Check 4 of 04 R101 beyond the header: the first bad field of the peg, node and edge tables. -/
def tablesFault (img : List Byte) (len : Nat) : Option Nat :=
  lowest ((List.range (framePegs img)).flatMap (pegBad img) ++
    (List.range (frameNodes img)).flatMap (fun i => nodeEntryBad img i len) ++ edgesBad img)

/-- The DETAIL of an offset in an image (04 R101). -/
def imageDetail (o : Nat) : Nat := if o ≤ 0x7FFE then 0x8000 + o else 0xFFFF

/-- Checks 4 to 7 of 04 R101; the range of `REPORT` is judged once the header has passed. -/
def frameBad (img : List Byte) (len report : Nat) : Option (Nat × Nat) :=
  match lowest (headerBad img len) with
  | some o => some (stBadField, imageDetail o)
  | none =>
    if report != 0 && !plainTenant report (32 * frameNodes img) then some (stBadField, 24)
    else
    match tablesFault img len with
    | some o => some (stBadField, imageDetail o)
    | none =>
    if !acyclic (frameEdges img) (frameNodes img) then some (stBadField, 0x7FFF)
    else
      match (List.range (frameNodes img)).find? (nodeUnsupported img) with
      | some i => some (stUnsupported, i)
      | none => (lowest ((List.range (frameNodes img)).flatMap (nodeBad img))).map fun o => (stBadField, imageDetail o)

/-! ### Channel counts (11 R253, R276) -/

/-- Granules on each near and each external channel, and what a side of unknown start adds to the busiest of each. -/
structure ChanUse where
  near : List Nat
  ext : List Nat
  nearX : Nat
  extX : Nat
  deriving DecidableEq, Repr

def ChanUse.none : ChanUse := { near := [0, 0, 0, 0], ext := [0, 0, 0], nearX := 0, extX := 0 }

/-- Of `n` granules from number `g` on, those that fall on channel `c` of `w`. -/
def granulesOn (w g n c : Nat) : Nat := (g + n + (w - 1 - c)) / w - (g + (w - 1 - c)) / w

/-- The use with the granules of `n` bytes from a location added `times` times. -/
def ChanUse.add (u : ChanUse) (loc n times : Nat) : ChanUse :=
  if n = 0 then u
  else if isExt loc then
    let g := (loc - extStart) / 64
    let k := (loc - extStart + n - 1) / 64 + 1 - g
    { u with ext := (List.range 3).map fun c => u.ext.getD c 0 + times * granulesOn 3 g k c }
  else
    let g := loc / 64
    let k := (loc + n - 1) / 64 + 1 - g
    { u with near := (List.range 4).map fun c => u.near.getD c 0 + times * granulesOn 4 g k c }

/-- The use with a side of unknown start added: `n` granules at most on a near, `e` on an external channel. -/
def ChanUse.unknown (u : ChanUse) (n e : Nat) : ChanUse := { u with nearX := u.nearX + n, extX := u.extX + e }

/-- Bytes on the busiest near and external channel. -/
def ChanUse.nearBytes (u : ChanUse) : Nat := 64 * (u.near.foldl max 0 + u.nearX)
def ChanUse.extBytes (u : ChanUse) : Nat := 64 * (u.ext.foldl max 0 + u.extX)

/-- Stored granules of a block in a view (11 R268, R276): an exact block is charged as raw. -/
def viewGranules (mode : Nat) : Nat := if mode ≤ 1 then 64 else lossyStored (mode - 1) / 64

/-- Granules of `nb` blocks of `s` stored granules on external channel 0 when the first block starts on channel `x`. -/
def rotated (nb s x : Nat) : Nat := ((List.range nb).map fun b => granulesOn 3 (x + b) s 0).sum

/-- The use of a memory side of a node added (11 R253, R276): `pegged` marks a start the frame does not fix. A write
through a view reads and writes its directory granules (11 R274). -/
def Partition.sideUse (p : Partition) (u : ChanUse) (a n : Nat) (pegged write : Bool) : ChanUse :=
  let loc := addrLoc a
  if !compressed a then
    if pegged then u.unknown (ceilDiv (n / 64) 4) (ceilDiv (n / 64) 3) else u.add loc n 1
  else
    let g := p.region (addrRegion a)
    let nb := n / 4096
    let s := viewGranules (addrMode a)
    let times := if write then 2 else 1
    if pegged then
      let dir := ceilDiv (8 * nb + 56) 64
      let onExt := isExt g.dir
      u.unknown (nb * ceilDiv s 4 + if onExt then 0 else times * ceilDiv dir 4)
        (max (rotated nb s 0) (max (rotated nb s 1) (rotated nb s 2)) + if onExt then times * ceilDiv dir 3 else 0)
    else
      let u := (List.range nb).foldl (fun (u : ChanUse) b => u.add (loc + 4096 * b) (64 * s) 1) u
      u.add (g.dir + 8 * ((loc - g.base) / 4096)) (8 * nb) times

/-! ### Counts of a node (04 R102) -/

/-- The counts of one instance of a node (04 R102); `inst` is how many instances the path charges (06 R168), `fabric` the
bytes by fabric path, source bay * 4 + destination bay. -/
structure NodeCost where
  cArr : Nat
  cVec : Nat
  near : Nat
  ext : Nat
  dma : Nat
  fabric : List (Nat × Nat)
  link : Nat
  hops : Nat
  truss : Nat
  inst : Nat
  deriving DecidableEq, Repr

def NodeCost.none : NodeCost :=
  { cArr := 0, cVec := 0, near := 0, ext := 0, dma := 0, fabric := [], link := 0, hops := 0, truss := 0, inst := 1 }

/-- Whether a frame's node names both trusses through the sides of a DMA body. -/
def bothSides (b : List Byte) : Bool :=
  fld b 0 1 == 1 && fld b 1 1 == 1 && locTruss (fld b 8 8) != locTruss (fld b 16 8)

/-- Bytes of a window side that cross the bay fabric (10 R235); a pegged locator is charged (11 R253 in its sense). -/
def winFabric (k : Nat) (b : List Byte) (ko vo : Nat) (pegged isDst : Bool) : List (Nat × Nat) :=
  if fld b ko 1 = 2 then
    let bay := winPart (fld b vo 8) / 16
    if bay != k / 16 || pegged then [(if isDst then k / 16 * 4 + bay else bay * 4 + k / 16, bodyLen b)] else []
  else []

/-- The counts of a DMA node (10 R235, 11 R253, R276). -/
def Partition.dmaCost (p : Partition) (k : Nat) (b : List Byte) : NodeCost :=
  let sp := bit (bodyFlags b) 1
  let dp := bit (bodyFlags b) 2
  let u := if fld b 0 1 = 0 then p.sideUse .none (fld b 8 8) (bodyLen b) sp false else .none
  let u := if fld b 1 1 = 0 then p.sideUse u (fld b 16 8) (bodyLen b) dp true else u
  { NodeCost.none with
    near := u.nearBytes, ext := u.extBytes, dma := bodyLen b
    fabric := winFabric k b 0 8 sp false ++ winFabric k b 1 16 dp true }

/-- The counts of a link node (15 R343). -/
def Partition.linkCost (p : Partition) (k : Nat) (lb : List Byte) : NodeCost :=
  let b := linkSides lb
  let n := linkLen lb
  let u := if linkSends lb && fld b 0 1 == 0 then p.sideUse .none (fld b 8 8) n (bit (bodyFlags b) 1) false else .none
  let u := if linkReceives lb && fld b 1 1 == 0 then p.sideUse u (fld b 16 8) n (bit (bodyFlags b) 2) true else u
  let l := fld lb 2 1
  let bay := bayOfLink l
  let cross := decide (l < 0x80) && bay != k / 16
  { NodeCost.none with
    near := u.nearBytes, ext := u.extBytes, dma := if linkOp lb = 3 then 2 * n else n, link := n, hops := fld lb 3 1
    fabric := if cross then
        (if linkSends lb then [(k / 16 * 4 + bay, n)] else []) ++ (if linkReceives lb then [(bay * 4 + k / 16, n)] else [])
      else [] }

/-- The counts of a page walk (12 R292). DESIGN CHOICE (assumption 28): a frame does not say whether its sequences have
`SHADOW`, and the counts are those without it, as in the worked example of chapter 13. -/
def kvCost (b : List Byte) : NodeCost :=
  let tw := kvTw b
  if kvOp b = 1 then
    { NodeCost.none with near := kvSlots b * 16 * tw, dma := kvSlots b * 64 * tw + if kvFlag b 1 then kvSlots b * 256 else 0 }
  else
    let g := kvApp b * tw / 64
    { NodeCost.none with
      near := (ceilDiv g 4 + 1) * 64, dma := kvApp b * tw }

/-- The counts of a speculation node (13 R312), without `SHADOW` likewise (assumption 28). -/
def specCost (img b : List Byte) : NodeCost :=
  let n := specNmax b
  let tw := tokenBytes (specR b) (specFmt b)
  match specOp b with
  | 1 => { NodeCost.none with dma := n * kvSlots (nodeBody img (specRef b)) * 256 }
  | 2 => { NodeCost.none with near := 512, ext := 512, dma := 1024 }
  | 3 => { NodeCost.none with near := 2 * (ceilDiv ((n - 1) * tw / 64) 4 + 1) * 64, dma := 2 * (n - 1) * tw }
  | _ => NodeCost.none

/-- The counts of node `i` (04 R102). -/
def Partition.nodeCost (p : Partition) (k : Nat) (img : List Byte) (i : Nat) : NodeCost :=
  let b := nodeBody img i
  let g := frameG img
  let c : NodeCost :=
    match nodeUnit img i with
    | 1 => { NodeCost.none with cArr := (parseArray b).cycles }
    | 2 => { NodeCost.none with cVec := (parseVec b).cycles }
    | 3 => p.dmaCost k b
    | 4 => p.linkCost k b
    | 5 => kvCost b
    | _ => specCost img b
  let two := (nodeUnit img i == 3 && bothSides b) || (nodeUnit img i == 4 && bothSides (linkSides b))
  { c with truss := if two then 2 else nodeTruss img i
           inst := if nodeUnit img i == 1 && (parseArray b).gather then 1 else g }

/-- The 32 bytes of a cost record (04 R102); a count beyond its field reads as the largest. -/
def costRecord (unit : Nat) (c : NodeCost) : List Byte :=
  let sat (v : Nat) : List Byte := leBytes 4 (min v 0xFFFFFFFF)
  sat c.cArr ++ sat c.cVec ++ sat c.near ++ sat c.ext ++ sat c.dma ++
    sat ((dedup (c.fabric.map (·.1))).map (fun path => ((c.fabric.filter fun f => f.1 == path).map (·.2)).sum) |>.foldl max 0) ++
    sat c.link ++ leBytes 2 c.hops ++ leBytes 1 unit ++ leBytes 1 c.truss

/-- Whether a node keeps a frame from being reservable by what it names: host memory or a best-effort path (10 R228,
15 R340). -/
def nodeBestEffort (img : List Byte) (i : Nat) : Bool :=
  let b := nodeBody img i
  (nodeUnit img i == 3 && (fld b 0 1 == 3 || fld b 1 1 == 3)) || (nodeUnit img i == 4 && decide (0x80 ≤ fld b 2 1))

/-- `FORM` of a frame (04 R102). DESIGN CHOICE (assumption 49): a frame that names an exact view answers 1 too, though
11 R267 keeps it from being reserved. -/
def frameForm (img : List Byte) : Bool := !(List.range (frameNodes img)).any (nodeBestEffort img)

/-- The links a frame names. -/
def frameLinks (img : List Byte) : List Nat :=
  dedup ((List.range (frameNodes img)).filterMap fun i =>
    if nodeUnit img i = 4 ∧ fld (nodeBody img i) 2 1 < 0x80 then some (fld (nodeBody img i) 2 1) else none)

/-! ### Memory as Molique reaches it -/

/-- Whether a location lies in external memory without a bound key: it reads 0 and ignores writes (11 R251, 17 R384). -/
def Mod.keyless (m : Mod) (k loc : Nat) : Bool := isExt loc && (m.memVersion k).isNone

/-- Molique's read of a tenant's memory. -/
def Mod.tenantRead (m : Mod) (k loc n : Nat) (e : Ecc) : Reading × Mod :=
  if m.keyless k loc then ({ bytes := zeros n, bad := [] }, m) else m.memRead k (m.memKey k) loc n e false

/-- Molique's write to a tenant's memory. -/
def Mod.tenantWrite (m : Mod) (k loc : Nat) (bs : List Byte) : Mod :=
  if m.keyless k loc then m else m.memWrite k (m.memKey k) loc bs [] .clean

/-! ### FRAME_LOAD (04 R101, R102) -/

def flCtx (pl : List Byte) : Nat := fld pl 0 2
def flReplace (pl : List Byte) : Nat := fld pl 4 4
def flSrc (pl : List Byte) : Nat := fld pl 8 8
def flLen (pl : List Byte) : Nat := fld pl 16 4
def flReport (pl : List Byte) : Nat := fld pl 24 8

/-- Whether a frame is bound to an open reservation or has a raise in a queue or running (04 R101, check 3). -/
def Partition.frameBusy (p : Partition) (c h : Nat) : Bool :=
  let x := p.ctx c
  p.resvs.any (fun e => e.2.ctxNo == c && e.2.frameNo == h && !e.2.closed) ||
    ([0, 1, 2, 3].any fun q => (x.queue q).landed.any fun r => r.frame == h) ||
    x.started.any fun u => u.frame == h

/-- Checks 1 to 3 of 04 R101. -/
def Mod.frameLoadBad (m : Mod) (r : Request) : Option (Nat × Nat) :=
  let pl := r.payload
  let len := flLen pl
  let lenOk' := decide (64 ≤ len) && decide (len ≤ 0x400000)
  let rep := flReport pl
  let p := m.part (flCtx pl / 16)
  let x := p.ctx (flCtx pl % 16)
  let old := flReplace pl
  orBad (fieldBad [
      (!ownsCtx r.fn (flCtx pl), 0), (fld pl 2 2 != 0, 2),
      (flSrc pl % 64 != 0 || !plainTenant (flSrc pl) (if lenOk' then len else 64), 8), (!lenOk', 16), (fld pl 20 4 != 0, 20),
      (rep != 0 && (rep % 64 != 0 || !plainTenant rep 1), 24)])
    (firstBad [
      (!(p.created && x.created), stNotPermitted, 0),
      (old != 0 && ((Table.find old x.frames).isNone || p.frameBusy (flCtx pl % 16) old), stNotPermitted, 1)])

/-! ### Frame stores (04 R97, 11 R250) -/

/-- `n` granules of a frame store from `g` on that no frame holds, in ascending order. -/
def freeGranules (used : List Nat) : Nat → Nat → Nat → List Nat
  | 0, _, _ => []
  | _ + 1, _, 0 => []
  | fuel + 1, g, n + 1 =>
    if used.contains g then freeGranules used fuel (g + 1) (n + 1) else g :: freeGranules used fuel (g + 1) n

/-- The granules of a frame store that a new image of `n` bytes takes beside other frames. DESIGN CHOICE (assumption 51):
the lowest that are free. -/
def storeGranules (fs : Table Frame) (n : Nat) : List Nat :=
  freeGranules (fs.flatMap fun e => e.2.granules) 65536 0 (ceilDiv n 64)

/-- The granule of external memory that granule `g` of the frame store of context `c` is (11 R250). -/
def frameGranule (c g : Nat) : Nat := (extEnd + 0x400000 * c) / 64 + g

/-- The poisoned granules of a stored frame. -/
def Partition.frameLost (p : Partition) (c handle : Nat) : List Nat :=
  match Table.find handle (p.ctx c).frames with
  | some f => (f.granules.map (frameGranule c)).filter p.poisoned
  | none => []

/-- Check 8 of 04 R101: more than 32 frames or 4 MiB, with `REPLACE` counted as dropped (04 R97). -/
def storeFull (fs : Table Frame) (len : Nat) : Bool :=
  decide (32 ≤ fs.length) || decide (0x400000 < (fs.map fun (e : Nat × Frame) => e.2.image.length).sum + len)

/-- The frame is stored (04 R102). -/
def Mod.storeFrame (m : Mod) (r : Request) (img : List Byte) : Mod :=
  let pl := r.payload
  let k := flCtx pl / 16
  let c := flCtx pl % 16
  let h := ((m.part k).ctx c).lastHandle + 1
  let m := if flReport pl = 0 then m
    else m.tenantWrite k (flReport pl) ((List.range (frameNodes img)).flatMap fun i =>
      costRecord (nodeUnit img i) ((m.part k).nodeCost k img i))
  let m := m.modPart k fun p =>
    let kept := Table.erase (flReplace pl) (p.ctx c).frames
    let gs := storeGranules kept img.length
    let p := gs.foldl (fun p g => p.setPoison (frameGranule c g) false) p
    p.modCtx c fun x => { x with frames := Table.set h { image := img, granules := gs } kept, lastHandle := h }
  m.respond r stOk 0 (leBytes 4 h ++ leBytes 2 (frameNodes img) ++ leBytes 2 (framePegs img) ++ leBytes 1 (b2n (frameForm img)) ++
    zeros 3 ++ leBytes 4 (frameLinks img).length)

/-- FRAME_LOAD (04 R101): the image is read once checks 1 to 3 pass, and the rest is judged on what was read. -/
def Mod.frameLoad (m : Mod) (r : Request) (e : Ecc) : Mod :=
  m.judge r (m.frameLoadBad r) fun m =>
    let pl := r.payload
    let k := flCtx pl / 16
    let (rd, m) := m.tenantRead k (flSrc pl) (flLen pl) e
    if !rd.bad.isEmpty then m.respond r stIntegrity 0
    else
      let kept := Table.erase (flReplace pl) ((m.part k).ctx (flCtx pl % 16)).frames
      m.judge r (orBad (frameBad rd.bytes (flLen pl) (flReport pl))
        (firstBad [(storeFull kept (flLen pl), stNoResource, 0)])) fun m => m.storeFrame r rd.bytes

def execFrameLoad (f : Fn) (e : Ecc) (s : State) : Host.Outcome State Fault Refusal :=
  s.act fun m => m.mbxRow f 0x20 (fun _ => true) fun m r => m.frameLoad r e

end Sys2Proof.Machine
end

