-- ==== Sys2Proof/Machine/Resv.lean ====
section
/-!
DEFINITION. Budgets, the kerf, the time and energy tests, and RESV_OPEN (03 R73 to R86, 16 R363). Times are counted in
whole parts of a nanosecond, so that every quotient of 03 R78 is exact.
-/

namespace Sys2Proof.Machine

/-! ### The time of a node (03 R78, R79) -/

/-- What a frame's times depend on besides its counts: clock in MHz, host traffic in MB/s, fabric slots by path. -/
structure Pace where
  mhz : Nat
  hostBw : Nat
  slots : Table Nat
  deriving DecidableEq, Repr

/-- The parts into which a nanosecond is cut: a common multiple of every divisor of 03 R78, R79 and 16 R363. -/
def Pace.unit (c : Pace) : Nat :=
  4032000 * c.mhz * (2500000 - c.hostBw) * c.slots.foldl (fun n (e : Nat × Nat) => Nat.lcm n e.2) 1

/-- t_hop of a reach class in ns (03 R79, 15 R332). -/
def hopNs (cls fibre : Nat) : Nat :=
  match cls with
  | 1 => 150
  | 2 => 250
  | 3 => 280
  | _ => 300 + 5 * fibre

/-- The synchronous binding that a partition is in as primary (16 R363). -/
def Mod.syncBind (m : Mod) (k : Nat) : Option Binding :=
  ((m.bindsOf k).find? fun e => !e.2.standby && !e.2.lagged).map fun e => e.2

/-- Bytes that a node sends the standby when it can advance LC (16 R363). -/
def sisterBytes (img : List Byte) (i : Nat) : Option Nat :=
  let b := nodeBody img i
  let rows := specNmax b * tokenBytes (specR b) (specFmt b)
  if nodeUnit img i = 5 ∧ kvOp b = 2 ∧ kvFlag b 3 = true then some (64 + kvApp b * kvTw b)
  else if nodeUnit img i = 6 ∧ specOp b = 3 then some (64 + rows + 448)
  else if nodeUnit img i = 6 ∧ specOp b = 5 then some (64 + rows)
  else none

/-- The binding that a partition is in as primary, synchronous or lagged (16 R363, R364). -/
def Mod.primaryBind (m : Mod) (k : Nat) : Option Binding := ((m.bindsOf k).find? fun e => !e.2.standby).map fun e => e.2

/-- The message of a node of partition `k` to its standby, none where there is none. -/
def Mod.sisterSent (m : Mod) (k : Nat) (img : List Byte) (i : Nat) : Option (Nat × Binding) :=
  match sisterBytes img i, m.primaryBind k with
  | some n, some x => some (n, x)
  | _, _ => none

/-- The message of a node of partition `k` to its synchronous standby, none where there is none. -/
def Mod.sisterLoad (m : Mod) (k : Nat) (img : List Byte) (i : Nat) : Option (Nat × Binding) :=
  (m.sisterSent k img i).filter fun x => !x.2.lagged

/-- t_sis of a binding for a message of `n` bytes, in parts of 1 / `q` ns (16 R363). -/
def Binding.sisterTime (x : Binding) (k n q : Nat) : Nat :=
  let links := (x.links.filter fun l => bayOfLink l == k / 16).length
  let parts := ((partsOf x.parts).filter fun j => j / 16 == k / 16).length
  n * parts * q / (70 * links) + (2 * hopNs (fld x.payload 18 1) (fld x.payload 19 1) + 400) * q

/-- The bytes of a node on each fabric path it uses. -/
def NodeCost.paths (c : NodeCost) : List (Nat × Nat) :=
  (dedup (c.fabric.map (·.1))).map fun p => (p, ((c.fabric.filter fun f => f.1 == p).map (·.2)).sum)

/-- t_hop of the path that a link node names, as it stands now. -/
def Mod.nodeHop (m : Mod) (img : List Byte) (i : Nat) : Nat :=
  match Table.find (linkPath (nodeBody img i)) m.paths with
  | some p => hopNs p.cls p.fibre
  | none => 0

/-- What nodes that run at the same time can share (03 R78): an array or vector engine, the busiest near and external
channel, the DMA engine, a fabric path, a link. -/
inductive Resource where
  | array (t : Nat)
  | vector (t : Nat)
  | near
  | ext
  | engine
  | fabric (path : Nat)
  | link (n : Nat)
  deriving DecidableEq, Repr

/-- The time that one instance of a node takes on a resource. -/
structure Term where
  on : Resource
  time : Nat
  deriving DecidableEq, Repr

/-- The terms of d(n) of one instance of node `i`, in parts of 1 / `unit` ns (03 R78); a fabric path without slots at this
pace counts nothing. A message to a standby leaves through the DMA engine (16 R363, R364). -/
def Mod.nodeTerms (m : Mod) (k : Nat) (img : List Byte) (i : Nat) (c : Pace) : List Term :=
  let q := c.unit
  let n := (m.part k).nodeCost k img i
  let dma := n.dma + (match m.sisterSent k img i with
    | some x => x.1
    | none => 0)
  let fab : List Term := n.paths.filterMap fun f => (Table.find f.1 c.slots).map fun slots =>
    { on := .fabric f.1, time := f.2 * 4 * q / (125 * slots) + 40 * q }
  let link : List Term := if nodeUnit img i = 4 then
      [{ on := .link (fld (nodeBody img i) 2 1), time := n.link * q / 72 + n.hops * m.nodeHop img i * q }]
    else []
  let local' : List Term := [{ on := .array (nodeTruss img i), time := n.cArr * 1000 * q / c.mhz },
    { on := .vector (nodeTruss img i), time := n.cVec * 1000 * q / c.mhz },
    { on := .near, time := n.near * 4000 * q / (2500000 - c.hostBw) }, { on := .ext, time := n.ext * q / 60 },
    { on := .engine, time := dma * q / 2560 }]
  (local' ++ link ++ fab).filter fun x => x.time != 0

/-- t_sis of a node that commits to a synchronous standby, in parts of 1 / `unit` ns (16 R363). -/
def Mod.sisterWait (m : Mod) (k : Nat) (img : List Byte) (i : Nat) (c : Pace) : Nat :=
  match m.sisterLoad k img i with
  | some x => x.2.sisterTime k x.1 c.unit
  | none => 0

/-- d(n) of one instance of node `i`, in parts of 1 / `unit` ns (03 R78). -/
def Mod.nodeTime (m : Mod) (k : Nat) (img : List Byte) (i : Nat) (c : Pace) : Nat :=
  60 * c.unit + ((m.nodeTerms k img i c).map (·.time)).foldl max 0 + m.sisterWait k img i c

/-- The longest node of a frame, in ns rounded up (03 R83, R84). -/
def Mod.longestNode (m : Mod) (k : Nat) (img : List Byte) (c : Pace) : Nat :=
  ceilDiv (((List.range (frameNodes img)).map fun i => m.nodeTime k img i c).foldl max 0) c.unit

/-! ### The longest path (03 R78, R80) -/

/-- What the longest path needs of a node: its unit's rank, the nodes before it, its time alone and its terms. -/
structure Timed where
  prio : Nat
  preds : List Nat
  alone : Nat
  terms : List Term
  deriving DecidableEq, Repr

/-- Every node of a frame at a pace: a node that runs once a member is charged for each (06 R168). -/
def Mod.timed (m : Mod) (k : Nat) (img : List Byte) (c : Pace) : List Timed :=
  (List.range (frameNodes img)).map fun i =>
    let n := ((m.part k).nodeCost k img i).inst
    { prio := nodePrio img i, preds := framePreds img i, alone := n * m.nodeTime k img i c
      terms := (m.nodeTerms k img i c).map fun x => { x with time := n * x.time } }

/-- Whether node `i` goes before node `j` on what they share: by DMA priority number, then by index. -/
def goesFirst (ns : List Timed) (i j : Nat) : Bool :=
  match ns[i]?, ns[j]? with
  | some a, some b => decide (a.prio < b.prio) || (a.prio == b.prio && decide (i < j))
  | _, _ => false

/-- What a node adds on a resource to one that waits for it there: its time on it; on an engine that one node has to
itself, its whole time. -/
def Timed.holds (b : Timed) (r : Resource) : Nat :=
  match b.terms.find? fun x => x.on == r with
  | none => 0
  | some x => (match r with
    | .array _ => b.alone
    | .vector _ => b.alone
    | _ => x.time)

/-- The time of node `i` beside the nodes that `pairs` says go before it: on each of its resources, theirs and then its
own. -/
def besideTime (ns : List Timed) (pairs : List (Nat × Nat)) (i : Nat) : Nat :=
  match ns[i]? with
  | none => 0
  | some a =>
    let others := (pairs.filter fun e => e.1 == i).filterMap fun e => ns[e.2]?
    let top := (a.terms.map (·.time)).foldl max 0
    a.alone - top + (a.terms.map fun x => x.time + (others.map fun b => b.holds x.on).sum).foldl max top

/-- A node placed in time: its start and end, and the node whose end it waited for. -/
structure Placed where
  start : Nat
  finish : Nat
  after : Option Nat
  deriving DecidableEq, Repr

/-- A placement with node `i` after its predecessors, once they are placed. -/
def placeNode (ns : List Timed) (time : Nat → Nat) (ps : Table Placed) (i : Nat) : Table Placed :=
  match ns[i]? with
  | none => ps
  | some a =>
    if (Table.find i ps).isSome || !(a.preds.all fun j => (Table.find j ps).isSome) then ps
    else
      let before := a.preds.filterMap fun j => (Table.find j ps).map fun x => (j, x.finish)
      let start := (before.map (·.2)).foldl max 0
      Table.set i { start := start, finish := start + time i, after := (before.find? fun b => b.2 == start).map (·.1) } ps

/-- Every node placed as early as its predecessors let it, round by round. -/
def placeAll (ns : List Timed) (time : Nat → Nat) : Nat → Table Placed → Table Placed
  | 0, ps => ps
  | fuel + 1, ps =>
    let ps := (List.range ns.length).foldl (placeNode ns time) ps
    if ps.length = ns.length then ps else placeAll ns time fuel ps

/-- The pairs of nodes that run at the same time and share a resource, the one that waits first. -/
def meetings (ns : List Timed) (ps : Table Placed) : List (Nat × Nat) :=
  (List.range ns.length).flatMap fun i => (List.range ns.length).filterMap fun j =>
    match ns[i]?, ns[j]?, Table.find i ps, Table.find j ps with
    | some a, some b, some x, some y =>
      if goesFirst ns j i && decide (x.start < y.finish) && decide (y.start < x.finish) &&
          (a.terms.any fun s => b.terms.any fun t => s.on == t.on) then some (i, j)
      else none
    | _, _, _, _ => none

/-- The placement once every pair of nodes that meet is charged one after another: a charge can lengthen a node and so make
it meet others, and once charged a pair stays charged (03 R78; assumption 26). -/
def settlePlaces (ns : List Timed) : Nat → List (Nat × Nat) → Table Placed
  | 0, pairs => placeAll ns (besideTime ns pairs) ns.length []
  | fuel + 1, pairs =>
    let ps := placeAll ns (besideTime ns pairs) ns.length []
    match (meetings ns ps).filter fun e => !pairs.contains e with
    | [] => ps
    | new => settlePlaces ns fuel (pairs ++ new)

/-- The nodes of the longest path, from its end back. -/
def pathBack (ps : Table Placed) : Nat → Option Nat → List Nat
  | 0, _ => []
  | _, none => []
  | fuel + 1, some i =>
    match Table.find i ps with
    | none => []
    | some p => i :: pathBack ps fuel p.after

/-- The budget of a frame: L in ns rounded up, and the nodes of its longest path (03 R78). A receive waits for its peer no
longer than the path to it counts: 03 R81 keeps the peer's budgeted time up to each exchange within this one's. -/
def Mod.longestPath (m : Mod) (k : Nat) (img : List Byte) (c : Pace) : Nat × List Nat :=
  let ns := m.timed k img c
  let ps := settlePlaces ns (ns.length * ns.length) []
  let top := (ps.map fun e => e.2.finish).foldl max 0
  (ceilDiv top c.unit, pathBack ps ns.length ((ps.find? fun e => e.2.finish == top).map (·.1)))

/-- The lane allowance (03 R80): links of the frame, and those a synchronous binding holds where the frame can advance LC;
instances on the longest path that move data over a link. -/
def Mod.laneAllowance (m : Mod) (k : Nat) (img : List Byte) (path : List Nat) : Nat :=
  let held := if (List.range (frameNodes img)).any fun i => (m.sisterLoad k img i).isSome then
      (match m.syncBind k with
       | some x => x.links.length
       | none => 0)
    else 0
  let phases := (path.map fun i =>
    let n := (m.part k).nodeCost k img i
    if 0 < n.link ∨ (m.sisterLoad k img i).isSome = true then n.inst else 0).sum
  2500 * min ((frameLinks img).length + held) phases

/-- K, the kerf (03 R82). -/
def kerfOf (w : Nat) : Nat := 1000 + ceilDiv w 64

/-! ### Energy (03 R85) -/

/-- Bytes of a memory side by tier, near and external; a pegged side counts as external. -/
def sideBytes (b : List Byte) (ko vo peg n : Nat) : Nat × Nat :=
  if fld b ko 1 != 0 then (0, 0)
  else if bit (bodyFlags b) peg || isExt (addrLoc (fld b vo 8)) then (0, n) else (n, 0)

/-- Bytes that one instance of a node moves in near and external memory. -/
def nodeMemory (img : List Byte) (i : Nat) : Nat × Nat :=
  let b := nodeBody img i
  let add (x y : Nat × Nat) : Nat × Nat := (x.1 + y.1, x.2 + y.2)
  match nodeUnit img i with
  | 3 => add (sideBytes b 0 8 1 (bodyLen b)) (sideBytes b 1 16 2 (bodyLen b))
  | 4 =>
    let s := linkSides b
    add (if linkSends b then sideBytes s 0 8 1 (linkLen b) else (0, 0))
      (if linkReceives b then sideBytes s 1 16 2 (linkLen b) else (0, 0))
  | 5 =>
    if kvOp b = 1 then (kvSlots b * 64 * kvTw b, 0)
    else (kvApp b * kvTw b, if kvFlag b 3 then kvApp b * kvTw b else 0)
  | 6 =>
    let tw := tokenBytes (specR b) (specFmt b)
    (match specOp b with
     | 2 => (0, 1024)
     | 3 => (2 * (specNmax b - 1) * tw + specNmax b * tw, specNmax b * tw)
     | 5 => (specNmax b * tw, specNmax b * tw)
     | _ => (0, 0))
  | _ => (0, 0)

/-- E, the energy of a raise in microjoules, rounded up (03 R85, R74), counted in picojoules. -/
def Partition.frameEnergy (p : Partition) (k : Nat) (img : List Byte) (w : Nat) : Nat :=
  let per := (List.range (frameNodes img)).map fun i =>
    let n := p.nodeCost k img i
    let b := nodeMemory img i
    n.inst * (6510 * n.cArr + 868 * n.cVec + 2 * b.1 + 32 * b.2)
  ceilDiv ((per.sum + 1953 * w * if frameBoth img then 2 else 1) * 21) 20000000

/-! ### The time test (03 R84) -/

/-- What the time test needs of a reservation: C, P and D. -/
structure Load where
  c : Nat
  p : Nat
  d : Nat
  deriving DecidableEq, Repr

def Reservation.load (r : Reservation) : Load := { c := r.w + r.kerf, p := r.period, d := r.deadline }

/-- Demand of a set of reservations by time `t`. -/
def demandAt (rs : List Load) (t : Nat) : Nat := (rs.map fun r => if t < r.d then 0 else ((t - r.d) / r.p + 1) * r.c).sum

/-- The time test (03 R84), its quotients over the product of all periods. -/
def timeTest (rs : List Load) (b : Nat) : Bool :=
  let q := (rs.map (·.p)).foldl (· * ·) 1
  let u := (rs.map fun r => r.c * (q / r.p)).sum
  if q ≤ u then false
  else
    let excess := (rs.map fun r => (r.p - r.d) * r.c * (q / r.p)).sum + b * q
    let last := max ((rs.map (·.d)).foldl max 0) (excess / (q - u))
    rs.all fun r => (List.range (last / r.p + 1)).all fun j =>
      let t := r.d + j * r.p
      decide (last < t) || decide (demandAt rs t + b ≤ t)

/-! ### RESV_OPEN (03 R73 to R76) -/

def roCtx (pl : List Byte) : Nat := fld pl 0 2

/-- The frame that a request names, if its context holds it. -/
def Mod.roFrame (m : Mod) (pl : List Byte) : Option (List Byte) :=
  let x := (m.part (roCtx pl / 16)).ctx (roCtx pl % 16)
  if x.created then (Table.find (fld pl 4 4) x.frames).map (·.image) else none

/-- Check 1 of 03 R75. -/
def Mod.resvFields (m : Mod) (r : Request) : Option (Nat × Nat) :=
  let pl := r.payload
  let p := fld pl 8 8
  let d := fld pl 16 8
  let links : Option Bool := (m.roFrame pl).map fun img => !(frameLinks img).isEmpty
  fieldBad [
    (!ownsCtx r.fn (roCtx pl), 0), (decide (3 < fld pl 2 1), 2), (fld pl 3 1 != 0, 3),
    (!(decide (1000 ≤ p) && decide (p ≤ 2 ^ 40)), 8), (!(decide (1000 ≤ d) && decide (d ≤ p)), 16),
    (decide (100000 < fld pl 24 4) || (links == some false && fld pl 24 4 != 0), 24), (decide (100000 < fld pl 32 4), 32),
    ((links == some false && fld pl 36 4 != 0) || (links == some true && fld pl 36 4 == 0), 36),
    (!allZero (slice pl 40 24), 40)]

/-- Whether a memory side of a body names an exact view (11 R267). -/
def exactView (b : List Byte) (ko vo : Nat) : Bool := fld b ko 1 == 0 && addrMode (fld b vo 8) == 1

/-- Whether node `i` of a frame keeps it from being reserved for a job (03 R76, R78, 11 R267). -/
def Mod.nodeBars (m : Mod) (k job : Nat) (img : List Byte) (i : Nat) : Bool :=
  let b := nodeBody img i
  nodeBestEffort img i ||
    (nodeUnit img i == 3 && (exactView b 0 8 || exactView b 1 16)) ||
    (nodeUnit img i == 4 &&
      ((linkSends b && exactView (linkSides b) 0 8) || (linkReceives b && exactView (linkSides b) 1 16) ||
        !m.linkNodeOk k (some job) b))

/-- Checks 2 to 5 of 03 R75. -/
def Mod.resvBars (m : Mod) (pl : List Byte) : Option (Nat × Nat) :=
  let k := roCtx pl / 16
  let c := roCtx pl % 16
  let p := m.part k
  let job := fld pl 36 4
  let held := match Table.find job m.jobs with
    | some j => j.tenant == p.tenant
    | none => false
  match m.roFrame pl with
  | none => some (stNotPermitted, 1)
  | some img =>
    firstBad [
      (job != 0 && !held, stNotPermitted, 1),
      ((List.range (frameNodes img)).any (m.nodeBars k job img) || m.standbyPart k, stNotPermitted, 2),
      (p.bound c (fld pl 2 1), stNotPermitted, 3),
      (decide (16 ≤ p.resvs.length), stNoResource, 0)]

/-- The fabric paths of a frame. -/
def Partition.framePaths (p : Partition) (k : Nat) (img : List Byte) : List Nat :=
  dedup ((List.range (frameNodes img)).flatMap fun i => (p.nodeCost k img i).fabric.map (·.1))

/-- How many slots Molique sets aside on each path of a frame: 1 to 60, a free choice for each path (01 R27). -/
def Mod.drawSlots (m : Mod) (paths : List Nat) : Table Nat × Mod :=
  paths.foldl (fun (acc : Table Nat × Mod) path =>
    let d := acc.2.draw
    (Table.set path (1 + d.1 % 60) acc.1, d.2)) ([], m)

/-- The lowest free reservation slot of a partition. -/
def Partition.freeResv (p : Partition) : Nat :=
  ((List.range 16).find? fun i => (Table.find i p.resvs).isNone).getD 0

/-- B (03 R84) of the open reservations with the new one: the larger of the smallest open BE_SLICE_NS and the longest node
of an open frame that stands before another's. A frame alone on its partition is blocked by no other: there the node term
is 0, as in the worked example of the chapter (DEDUCED, assumption 50). -/
def blockTerm (rs : List Reservation) : Nat :=
  match rs with
  | [] => 0
  | [x] => x.beSlice
  | x :: xs => max ((xs.map (·.beSlice)).foldl min x.beSlice) ((rs.map (·.longest)).foldl max 0)

/-- The reservation that a request would open, and the block term it is tested with. -/
def Mod.newResv (m : Mod) (pl img : List Byte) (slots : Table Nat) : Reservation × Nat :=
  let k := roCtx pl / 16
  let p := m.part k
  let pace : Pace := { mhz := 1800, hostBw := fld pl 32 4, slots := slots }
  let (l, path) := m.longestPath k img pace
  let lane := m.laneAllowance k img path
  let w := 1200 + fld pl 24 4 + l + lane
  let r : Reservation :=
    { payload := pl, response := [], closed := false, suspended := false, prev := none, serial := m.resvSerial
      longest := m.longestNode k img pace, slots := slots }
  let b := blockTerm ((p.resvs.filter fun e => !e.2.closed).map (·.2) ++ [r])
  let resp := leBytes 4 (16 * k + p.freeResv) ++ zeros 4 ++ leBytes 8 w ++ leBytes 8 (kerfOf w) ++ leBytes 8 lane ++
    leBytes 4 (p.frameEnergy k img w) ++ leBytes 4 (slots.map fun e => e.2).sum ++ leBytes 8 b
  ({ r with response := resp }, b)

/-- Checks 6 to 9 of 03 R75; a frame of both trusses fails the time test while one is out of service (18 R414). -/
def Mod.resvTests (m : Mod) (k : Nat) (img : List Byte) (r : Reservation) (b : Nat) : Option (Nat × Nat) :=
  let p := m.part k
  firstBad [
    (decide (r.deadline < r.w + r.kerf), stRefusedDeadline, 0),
    ((frameBoth img && !(p.inService 0 && p.inService 1)) || !timeTest (p.resvs.map (fun e => e.2.load) ++ [r.load]) b,
      stRefusedBudget, 1),
    (!capFits m.gov.cap ((m.allResvs.map fun e => e.2.2.energyMs).sum + r.energyMs), stRefusedBudget, 2),
    (r.slots.any fun e => decide (60 < Table.get 0 e.1 m.fabric + e.2), stRefusedBudget, 3)]

/-- The reservation opens (03 R75): its slots are reserved, and the first opening after a reset ends GV_PARTITION_RESET
(03 R93). -/
def Mod.resvStand (m : Mod) (k : Nat) (r : Reservation) : Mod :=
  let m := { m with
    resvSerial := m.resvSerial + 1
    fabric := r.slots.foldl (fun t (e : Nat × Nat) => Table.modify 0 e.1 (· + e.2) t) m.fabric }
  let was := (m.part k).resetNotice
  let m := m.modPart k fun p => { p with resvs := Table.set p.freeResv r p.resvs, resetNotice := false }
  if was then m.notice k 4 0xFFFF 0 0 else m

/-- RESV_OPEN (03 R75). -/
def Mod.resvOpen (m : Mod) (r : Request) : Mod :=
  let pl := r.payload
  let k := roCtx pl / 16
  m.judge r (orBad (m.resvFields r) (m.resvBars pl)) fun m =>
    match m.roFrame pl with
    | none => m
    | some img =>
      let (slots, m) := m.drawSlots ((m.part k).framePaths k img)
      let (v, b) := m.newResv pl img slots
      m.judge r (m.resvTests k img v b) fun m => (m.resvStand k v).respond r stOk 0 v.response

def execResvOpen (f : Fn) (s : State) : Host.Outcome State Fault Refusal :=
  s.act fun m => m.mbxRow f 0x21 (fun _ => true) Mod.resvOpen

end Sys2Proof.Machine
end

