-- ==== Sys2Proof/Machine/Sched.lean ====
section
/-!
DEFINITION. How the bay controller chooses the next raise: heads of queues, deadlines, trusses, and gathering
(03 R83, 04 R108, R115, R119, 06 R166, 18 R414, R415, 19 R427).
-/

namespace Sys2Proof.Machine

/-- Whether a landed raise is ready (06 R166, item 1). -/
def Mod.ready (m : Mod) (k c : Nat) (r : Raise) : Bool :=
  let p := m.part k
  r.guar || (!r.waits && !p.fenced c r && !p.queueHeld c r.q)

/-! ### Heads of queues (04 R108, rules 1 and 6) -/

/-- The head of a queue: a landed raise, or a run stopped at a node boundary. -/
inductive Head where
  | landed (r : Raise)
  | parked (u : Run)
  deriving DecidableEq, Repr

/-- The head of queue `q`: a later raise starts only after the started ones of its queue have completed. -/
def Context.head (x : Context) (q : Nat) : Option Head :=
  match Table.find q x.parked with
  | some u => some (.parked u)
  | none => if x.startedQueue q then none else ((x.queue q).landed.head?).map .landed

/-- The frame that a head runs. -/
def Head.frame : Head → Nat
  | .landed r => r.frame
  | .parked u => u.frame

/-- Whether a head is of the guaranteed class. -/
def Head.guar : Head → Bool
  | .landed r => r.guar
  | .parked u => u.guar

/-- The image of a frame of a context. -/
def Context.frameImage (x : Context) (h : Nat) : List Byte :=
  match Table.find h x.frames with
  | some f => f.image
  | none => []

/-- Whether both trusses are in service. -/
def Partition.bothServe (p : Partition) : Bool := p.inService 0 && p.inService 1

/-- A head in its queue. -/
structure Place where
  c : Nat
  q : Nat
  head : Head
  deriving DecidableEq, Repr

/-- Every head of a partition whose frame can run on the trusses in service (18 R414), by queue, then context. -/
def Partition.heads (p : Partition) : List Place :=
  [0, 1, 2, 3].flatMap fun q => p.ctxs.filterMap fun e =>
    match e.2.head q with
    | none => none
    | some h =>
      if frameBoth (e.2.frameImage h.frame) && !p.bothServe then none
      else
        let x : Place := { c := e.1, q := q, head := h }
        some x

/-! ### The guaranteed class (03 R83) -/

/-- t_land + D of a raise, and its landing order: the earlier starts first. -/
def Partition.urgency (p : Partition) (c : Nat) (r : Raise) : Nat × Nat :=
  (r.tLand.toNat + (match p.resvOf c r.q with
    | some (_, v) => v.deadline
    | none => 0), r.serial)

/-- Whether one urgency comes before another. -/
def sooner (a b : Nat × Nat) : Bool := decide (a.1 < b.1) || (a.1 == b.1 && decide (a.2 < b.2))

/-- The urgency of a run: that of its leader. -/
def Partition.runUrgency (p : Partition) (c : Nat) (u : Run) : Nat × Nat :=
  match u.members with
  | [] => (0, 0)
  | mb :: _ => p.urgency c mb.raise

/-- The urgency of a head. -/
def Partition.headUrgency (p : Partition) (x : Place) : Nat × Nat :=
  match x.head with
  | .landed r => p.urgency x.c r
  | .parked u => p.runUrgency x.c u

/-- The most urgent guaranteed-class head. -/
def Partition.guarHead (p : Partition) : Option Place :=
  (p.heads.filter fun x => x.head.guar).foldl (fun (best : Option Place) x =>
    match best with
    | none => some x
    | some b => if sooner (p.headUrgency x) (p.headUrgency b) then some x else best) none

/-- Whether a run must stop at its next node boundary: for any ready guaranteed-class raise where it is best-effort, for a
more urgent one where it is not (03 R83, 04 R108, rule 6). -/
def Partition.mustStop (p : Partition) (c : Nat) (u : Run) : Bool :=
  match p.guarHead with
  | none => false
  | some x => !u.guar || sooner (p.headUrgency x) (p.runUrgency c u)

/-- The runs of a partition, with their contexts. -/
def Partition.running (p : Partition) : List (Nat × Run) :=
  p.ctxs.filterMap fun e => e.2.run.map fun u => (e.1, u)

/-- Whether a run has a node instance that has started and not ended. -/
def Run.active (u : Run) : Bool := u.nodes.any fun e => e.2 != .done

/-! ### Trusses (04 R108, rule 5, R109) -/

/-- Whether a running raise of a partition holds truss `t`. -/
def Partition.trussBusy (p : Partition) (t : Nat) : Bool :=
  p.ctxs.any fun e => match e.2.run with
    | some u => frameBoth (e.2.image u) || u.truss == t
    | none => false

/-- Whether truss `t` is in service and free. -/
def Partition.trussFree (p : Partition) (t : Nat) : Bool := p.inService t && !p.trussBusy t

/-- The truss that a head takes as role 0: both for a frame with `BOTH`, the same as before for a stopped run, else the
lower-numbered free one. -/
def Partition.takeTruss (p : Partition) (x : Place) : Option Nat :=
  let both := frameBoth ((p.ctx x.c).frameImage x.head.frame)
  if both then (if p.trussFree 0 && p.trussFree 1 then some 0 else none)
  else
    match x.head with
    | .parked u => if p.trussFree u.truss then some u.truss else none
    | .landed _ => if p.trussFree 0 then some 0 else if p.trussFree 1 then some 1 else none

/-- Whether the partition stands at a frame boundary once a raise is about to start: no raise runs, no hold is in progress
(18 R415). -/
def Partition.atFrameBoundary (p : Partition) : Bool := p.running.isEmpty && p.hold.isNone

/-- Trusses that wait for a frame boundary rejoin (18 R415, R420). -/
def Partition.rejoin (p : Partition) : Partition :=
  let v := p.reg offTruss
  p.setReg offTruss (setF (setF v 1 0 (getF v 1 0 ||| getF v 3 2)) 3 2 0)

/-- The partition as the raise about to start sees it. -/
def Partition.forStart (p : Partition) : Partition := if p.atFrameBoundary then p.rejoin else p

/-! ### The best-effort class (03 R83, 04 R108, rule 4) -/

/-- Clock steps open to a best-effort raise on the bay of partition `k` (01 R34, 19 R427): up to 1.20 GHz while a die of the
bay stands at the throttle level. -/
def Mod.clockSteps (m : Mod) (k : Nat) : Nat := if bit m.gov.hot.toNat (k / 16) then 13 else 25

/-- The clock step of a free choice: the governor's estimate is its own (19 R427). -/
def Mod.clockStep (m : Mod) (k d : Nat) : Nat := 600 + 50 * (d % m.clockSteps k)

/-- Whether a best-effort frame may run beside the open reservations at a clock step (03 R83); during a trip every truss
runs at 0.60 GHz (19 R430). DESIGN CHOICE (assumption 49): its nodes are timed with `HOST_BW` 0 and without fabric slots. -/
def Mod.sliceOk (m : Mod) (k : Nat) (img : List Byte) (mhz : Nat) : Bool :=
  match ((m.part k).resvs.filter fun e => !e.2.closed).map fun e => e.2.beSlice with
  | [] => true
  | x :: xs =>
    let pace : Pace := { mhz := if m.tripStands then 600 else mhz, hostBw := 0, slots := [] }
    decide (m.longestNode k img pace ≤ xs.foldl min x)

/-- Whether an open window of partition `k` keeps truss `t` at 1.80 GHz (10 R235): one opened with `GUAR`. -/
def Partition.guarWindow (p : Partition) (t : Nat) : Bool :=
  (List.range 16).any fun w =>
    let v := p.win w
    winOpen v && winGuar v && winTruss v == t

/-- The clock step of a head that would start at `mhz`: 1.80 GHz on a truss that an open window keeps there (10 R235). -/
def Mod.startMhz (m : Mod) (k mhz : Nat) (x : Place) : Nat :=
  let p := (m.part k).forStart
  match p.takeTruss x with
  | some t =>
    if p.guarWindow t || (frameBoth ((p.ctx x.c).frameImage x.head.frame) && p.guarWindow (1 - t)) then 1800 else mhz
  | none => mhz

/-- Whether a best-effort head may start or resume, its truss apart. -/
def Mod.eligible (m : Mod) (k mhz : Nat) (x : Place) : Bool :=
  let y := (m.part k).ctx x.c
  !x.head.guar && y.run.isNone &&
    (match x.head with
     | .parked u => !(m.part k).queueHeld x.c u.q && m.sliceOk k (y.frameImage u.frame) u.mhz
     | .landed r => m.ready k x.c r && m.sliceOk k (y.frameImage r.frame) (m.startMhz k mhz x))

/-- The best-effort head chosen: the lowest queue, then the first context after the one that last started. -/
def Mod.chooseBest (m : Mod) (k mhz : Nat) : Option Place :=
  let p := m.part k
  let xs := p.heads.filter fun x => m.eligible k mhz x
  [0, 1, 2, 3].findSome? fun q => (List.range 16).findSome? fun i =>
    xs.find? fun x => x.q == q && x.c == (p.lastCtx + 1 + i) % 16

/-- Whether the governor holds a best-effort start: P has reached L (19 R427). -/
def Mod.governorHolds (m : Mod) : Bool := decide (m.gov.limit ≤ m.gov.power * 100000)

/-! ### Gathering (06 R166) -/

/-- Whether a raise can lead or join a gathered run with others (06 R166). DESIGN CHOICE (assumption 49): a guaranteed-class
raise with a fence bit cannot either, though 04 R104 ignores the bit for everything else. -/
def Raise.joins (r : Raise) : Bool := !r.fence && !r.fencePart

/-- The candidates of one queue behind a leader: consecutive from its head. -/
def Mod.queueCandidates (m : Mod) (k c q : Nat) (lead : Raise) : List Raise :=
  let x := (m.part k).ctx c
  if x.startedQueue q then []
  else
    ((x.queue q).landed.filter fun r => r != lead).takeWhile fun r =>
      r.frame == lead.frame && r.guar == lead.guar && r.joins && m.ready k c r

/-- The candidates of a leader, in ascending queue number and landing order. -/
def Mod.candidates (m : Mod) (k c : Nat) (lead : Raise) : List Raise :=
  if lead.joins && frameGathers (((m.part k).ctx c).frameImage lead.frame) then
    [0, 1, 2, 3].flatMap fun q => m.queueCandidates k c q lead
  else []

/-- The raises that have joined a leader, once those that are candidates now and find room have joined too: at most G - 1,
named by their landing order (06 R166). -/
def Mod.joined (m : Mod) (k c : Nat) (lead : Raise) (before : List Nat) : List Nat :=
  let cs := (m.candidates k c lead).map (·.serial)
  let kept := before.filter cs.contains
  kept ++ (cs.filter fun i => !kept.contains i).take (frameG (((m.part k).ctx c).frameImage lead.frame) - 1 - kept.length)

/-- Whether a best-effort leader holds its start for `GATHER_NS`: its frame gathers, and fewer than G - 1 have joined. -/
def Mod.opensWindow (m : Mod) (k c : Nat) (lead : Raise) (joined : List Nat) : Bool :=
  let img := ((m.part k).ctx c).frameImage lead.frame
  frameGathers img && decide (joined.length < frameG img - 1)

/-- The leader that a hold waits for, while it still heads its queue and is ready. -/
def Mod.holdLeader (m : Mod) (k : Nat) (h : Hold) : Option Raise :=
  match ((m.part k).ctx h.ctx).head h.q with
  | some (.landed r) => if m.ready k h.ctx r && !r.guar then some r else none
  | _ => none

/-- A gathering hold as it stands now (06 R166): candidates join it, and it ends without a start when a guaranteed-class
raise is ready or its leader no longer is. -/
def Mod.settleHold (m : Mod) (k : Nat) : Mod :=
  match (m.part k).hold with
  | none => m
  | some h =>
    let hold := match (m.part k).guarHead, m.holdLeader k h with
      | none, some r => some { h with joined := m.joined k h.ctx r h.joined }
      | _, _ => none
    m.modPart k fun p => { p with hold := hold }

/-- Every gathering hold as it stands now. -/
def Mod.settleHolds (m : Mod) : Mod := m.forAll (fun m (e : Nat × Partition) => m.settleHold e.1) m.parts

end Sys2Proof.Machine
end

