-- ==== Sys2Proof/Machine/Landing.lean ====
section
/-!
DEFINITION. Landing, and host access to events: what can complete a raise's wait or a gathering hold as the host acts
(04 R105, R106, R115, R117, 03 R88, 06 R166).
-/

namespace Sys2Proof.Machine

/-! ### Landing (04 R105, R106) -/

/-- The fields of a record that break check 2 of 04 R106, in ascending byte offset. -/
def recordBad (x : Context) (r : Raise) : Option Nat :=
  match Table.find r.frame x.frames with
  | none => some 0
  | some f =>
    let pegs := framePegs f.image
    (([(decide (64 ≤ fld r.record 4 2), 4), (r.inlineEn && decide (pegs ≤ r.inlineIdx), 6),
       (r.waitEn && !r.guar && decide (63 < r.waitPart), 7), (decide (pegs < r.pegCount), 36),
       (r.sigEn && decide (63 < r.sigPart), 38), (fld r.record 39 1 != 0, 39),
       (decide (0 < r.pegCount) && r.pegSrc % 8 != 0, 40)] : List (Bool × Nat)).find? fun c => c.1).map fun c => c.2

/-- The outcome of a bound queue at landing (03 R77, R88), none where the raise is accepted. -/
def boundBad (rv : Reservation) (r : Raise) : Option (Nat × Nat) :=
  if rv.closed then some (stAborted, 0)
  else if (match rv.prev with
      | some t => decide (r.tLand.toNat < t.toNat + rv.period)
      | none => false) then some (stRefusedBudget, 0)
  else if r.deadline < r.tLand.toNat + rv.deadline then some (stRefusedBudget, 0)
  else none

/-- The checks at landing, in order (04 R106): the status and DETAIL that end the raise, or none. -/
def Mod.landingBad (m : Mod) (k c : Nat) (r : Raise) : Option (Nat × Nat) :=
  let p := m.part k
  let x := p.ctx c
  let wait := r.waitEn && !r.guar
  let rv := p.resvOf c r.q
  if 64 ≤ (x.standing r.q).length then some (stQueueOverflow, 0)
  else
    match recordBad x r with
    | some off => some (stBadField, off)
    | none =>
      if (wait || r.sigEn) && !r.eventMode then some (stNotPermitted, 1)
      else if (wait && !m.sameTenant k r.waitPart) || (r.sigEn && !m.sameTenant k r.sigPart) then some (stNotPermitted, 2)
      else
        match rv with
        | none => none
        | some (_, v) => if v.frameNo != r.frame then some (stNotPermitted, 3) else boundBad v r

/-- What a raise ended at landing leaves in the counters (03 R90, 04 R117). -/
def Partition.landingMarks (p : Partition) (st d : Nat) : Partition :=
  if st = stQueueOverflow then p.count offRefuseCnt 31 16
  else if st = stRefusedBudget then p.count offRefuseCnt 15 0
  else if st = stNotPermitted ∧ d = 2 then p.flag offEvtStatus 2
  else p

/-- The condition that voids a raise as it lands (03 R88, R93). -/
def Mod.landingVoid (m : Mod) (k c : Nat) (r : Raise) (rv : Reservation) : Option Nat :=
  match m.standing k rv with
  | some code => some code
  | none => (((m.part k).ctx c).unfinished r.q).findSome? fun x => x.voided

/-- A record lands (04 R106): it takes a credit, and is ended at landing or held in its queue. A wait on a partition
under reset ends there (18 R411), and during Shutdown every raise ends (19 R432). -/
def Mod.land (m : Mod) (k c q : Nat) (body : List Byte) : Mod :=
  let p := m.part k
  let bare : Raise :=
    { record := body, q := q, tLand := m.devtime, guar := p.bound c q, eventMode := getB (p.reg offEvtCtrl) 0
      serial := p.landSerial, voided := none, noticed := false, met := false, waitMs := getF (p.reg offWdogCfg) 31 16 }
  let r0 := bare.latch m k
  let bad := m.landingBad k c r0
  let m := m.modPart k fun p =>
    { p.modCtx c fun x => x.modQueue q fun u => { u with taken := u.taken + 1 } with landSerial := p.landSerial + 1 }
  match bad with
  | some (st, d) => (m.modPart k fun p => p.landingMarks st d).complete k c r0 st d
  | none =>
    if m.shutStands then m.complete k c r0 stThermal 0
    else if r0.waits && (m.part r0.waitPart).underReset then
      m.complete k c r0 stPartitionReset (0x6000 + r0.waitPart)
    else
      let (r, m) := match p.resvOf c q with
        | some (i, v) =>
          ({ r0 with voided := m.landingVoid k c r0 v },
           m.modPart k fun p => { p with resvs := Table.set i { v with prev := some m.devtime } p.resvs })
        | none => (r0, m)
      (m.modCtx k c fun x => x.modQueue q fun u => { u with landed := u.landed ++ [r] }).settleHold k

/-- A launch-window write, window by window in ascending order (04 R105): bytes are kept, and a range that includes
byte 63 takes the record. -/
def Mod.launchWrite (m : Mod) (k c off : Nat) (data : List Byte) : Mod :=
  m.forAll (fun m q =>
    let lo := max off (64 * q)
    let hi := min (off + data.length) (64 * q + 64)
    if lo < hi then
      let m := m.modCtx k c fun x => { x with windows := Cells.write x.windows lo ((data.drop (lo - off)).take (hi - lo)) }
      if hi = 64 * q + 64 then m.land k c q (Cells.read ((m.part k).ctx c).windows (64 * q) 64) else m
    else m) [0, 1, 2, 3]

/-- LAUNCH_RECORD (04 R105, R106): discarded for a context that does not exist or a partition under reset. -/
def execLaunchRecord (f : Fn) (k : Fin 64) (c : Fin 16) (off : Fin 256) (data : List Byte) (s : State) :
    Host.Outcome State Fault Refusal :=
  s.actWrite data fun m => m.host fun m =>
    let p := m.part k.val
    if m.reaches f k.val && p.created && !p.underReset && (p.ctx c.val).created then
      m.launchWrite k.val c.val off.val data
    else m

/-! ### Host access to events (04 R117, 20 R447) -/

/-- An aligned 8-byte write signals in event mode and stores exactly in fence mode; any other write is ignored and
sets BAD_ACCESS (04 R117). -/
def Partition.eventWrite (p : Partition) (off : Nat) (data : List Byte) : Partition :=
  if data.length = 8 ∧ off % 8 = 0 then
    if getB (p.reg offEvtCtrl) 0 then p.signal (off / 8) (leNat data) else p.setEvent (off / 8) (leNat data)
  else p.flag offEvtStatus 4

/-- A host write to the event window of partition `k`, and the waits it meets (04 R115, R117). -/
def Mod.eventWrite (m : Mod) (k off : Nat) (data : List Byte) : Mod :=
  ((m.modPart k fun p => p.eventWrite off data).latchWaits).settleHolds

/-- Whether a function sees an offset of the event window: VF k all of it, the PF the page of its aperture (20 R447). -/
def Mod.seesEvent (m : Mod) (f : Fn) (k off : Nat) : Bool :=
  m.reaches f k && (match f with
    | .pf => off / 65536 == getF ((m.part k).reg offPfSel) 2 0
    | _ => true)

/-- EVENT_HOST_WRITE (04 R117). -/
def execEventHostWrite (f : Fn) (k : Fin 64) (off : Fin 524288) (data : List Byte) (s : State) :
    Host.Outcome State Fault Refusal :=
  s.actWrite data fun m => m.host fun m =>
    if m.writable f k.val && m.seesEvent f k.val off.val then m.eventWrite k.val off.val data else m

end Sys2Proof.Machine
end

