-- ==== Sys2Proof/Machine/Run.lean ====
section
/-!
DEFINITION. Raises and nodes as they start and end: RAISE_START, GATHER_WINDOW_END, NODE_START, NODE_COMPLETE,
RAISE_COMPLETE, TRUSS_REJOIN (03 R83, 04 R108 to R111, 06 R165 to R170, 12 R280, 13 R303, R310, 15 R340, R341, 18 R415).
-/

namespace Sys2Proof.Machine

/-! ### Pegs (04 R110) -/

/-- The values of `n` pegs in bytes read from `PEG_SRC`. -/
def pegWords (bs : List Byte) (n : Nat) : List Dword := (List.range n).map fun i => BitVec.ofNat 64 (fld bs (8 * i) 8)

/-- Steps 1 to 3 of 04 R110: what ends the raise, or its pegs. -/
def Mod.patchPegs (m : Mod) (k : Nat) (img : List Byte) (r : Raise) (e : Ecc) : Option (Nat × Nat) × List Dword × Mod :=
  let base := (List.range (framePegs img)).map fun i => BitVec.ofNat 64 (pegDefault img i)
  let n := r.pegCount
  let inl (ps : List Dword) : List Dword := if r.inlineEn then ps.set r.inlineIdx (BitVec.ofNat 64 r.inlineVal) else ps
  if n = 0 then (none, inl base, m)
  else if !plainTenant r.pegSrc (8 * n) then (some (stBadField, 40), [], m)
  else
    let (rd, m) := m.tenantRead k r.pegSrc (8 * n) e
    if !rd.bad.isEmpty then (some (stIntegrity, 0), [], m)
    else (none, inl (pegWords rd.bytes n ++ base.drop n), m)

/-- The check of an `ADDR` peg (04 R99, 14 R319): the range lies in tenant memory and in no other context's shard. -/
def Partition.addrPegOk (p : Partition) (c v extent : Nat) : Bool :=
  viewOk v && inTenant (addrLoc v) extent && (p.shardsAt (addrLoc v) extent).all fun e => e.2.ctx == c

/-- The check of an `EVT` peg (04 R99). -/
def Mod.evtPegOk (m : Mod) (k v : Nat) : Bool := decide (v < 2 ^ 22) && m.sameTenant k (bits v 21 16)

/-- The shape that a node gives its `KV_PEG` (12 R280, check 4, 13 R301): `R` and `FMT`. -/
def kvShape (img : List Byte) (i peg : Nat) : Option (Nat × Nat) :=
  let b := nodeBody img i
  match kvNames img i with
  | some (q, _) => if q = peg then some (if nodeUnit img i = 5 then (kvR b, kvFmt b) else (specR b, specFmt b)) else none
  | none => none

/-- The sequences that the started raises of a partition name. -/
def Partition.heldSeqs (p : Partition) : List Nat := p.ctxs.flatMap fun e => e.2.started.flatMap fun u => u.kv.map (·.seq)

/-- The checks of a `KV` peg (12 R280): what ends the raise with the bit it sets, or the sequence's entry. -/
def Mod.kvPeg (m : Mod) (k : Nat) (img : List Byte) (peg v : Nat) (mine : List Nat) (e : Ecc) :
    Option ((Nat × Nat) × Option Nat) × SeqEntry × Mod :=
  let p := m.part k
  let ctrl := p.reg offKvCtrl
  let count := getF ctrl 16 0
  let bad (i : Nat) : Option ((Nat × Nat) × Option Nat) := some ((stBadField, 0x100 + peg), some i)
  if !getB ctrl 31 || decide (65536 < count) || decide (65536 ≤ v) || decide (count ≤ v) then (bad 28, { raw := [] }, m)
  else if !inExt (p.seqLoc v) 64 || (m.memVersion k).isNone then (bad 28, { raw := [] }, m)
  else
    let (s, lost, m) := m.readEntry k v e
    if lost then (some ((stIntegrity, 5), none), s, m)
    else if !s.ok then (bad 28, s, m)
    else if (List.range (frameNodes img)).any fun i => match kvShape img i peg with
        | some x => x != (s.r, s.fmt)
        | none => false then (bad 28, s, m)
    else if mine.contains v || p.heldSeqs.contains v || m.standbyHolds k v then (bad 29, s, m)
    else (none, s, m)

/-- Step 4 of 04 R110, peg by peg: what ends the raise, or the sequences that it names, with their entries; `e` is what the
first read of an entry finds. -/
def Mod.checkPegs (m : Mod) (k c : Nat) (img : List Byte) (pegs : List Dword) (member : Nat) (held : List KvUse) (e : Ecc) :
    Option (Nat × Nat) × List (KvUse × SeqEntry) × Mod :=
  (List.range (framePegs img)).foldl (fun (acc : Option (Nat × Nat) × List (KvUse × SeqEntry) × Mod) i =>
    let m := acc.2.2
    let v := (pegs.getD i 0).toNat
    let fail := some (stBadField, 0x100 + i)
    if acc.1.isSome then acc
    else
      match pegKind img i with
      | 1 => if (m.part k).addrPegOk c v (pegExtent img i) then acc else (fail, acc.2.1, m)
      | 2 => if m.evtPegOk k v then acc else (fail, acc.2.1, m)
      | 3 =>
        (match m.kvPeg k img i v ((held ++ acc.2.1.map (·.1)).map (·.seq)) (if acc.2.1.isEmpty then e else .clean) with
         | (some (fin', flag), _, m) =>
           (some fin', acc.2.1, match flag with
             | some b => m.modPart k fun p => p.flag offKvStatus b
             | none => m)
         | (none, s, m) =>
           let x : KvUse := { peg := i, member := member, seq := v, lt0 := s.lt, base := none, pages := [], shadows := [] }
           (none, acc.2.1 ++ [(x, s)], m))
      | _ => acc) (none, [], m)

/-! ### The walks of a raise (12 R285) -/

/-- The nodes that name a `KV` peg (12 R284, 13 R301). -/
def kvNodes (img : List Byte) (peg : Nat) : List Nat :=
  (List.range (frameNodes img)).filter fun i => match kvNames img i with
    | some x => x.1 == peg
    | none => false

/-- Whether node `i` walks pages with operation `op`, or is a speculation node with one of `ops`. -/
def isWalk (img : List Byte) (i op : Nat) : Bool := nodeUnit img i == 5 && kvOp (nodeBody img i) == op
def isSpec (img : List Byte) (i : Nat) (ops : List Nat) : Bool := nodeUnit img i == 6 && ops.contains (specOp (nodeBody img i))

/-- The first token that walks of a peg count from, `LT` at the start, or `LC` where a node can lower `LT` (13 R310); and the
largest `LT` they can reach. -/
def kvSpan (img : List Byte) (peg : Nat) (s : SeqEntry) : Nat × Nat :=
  let ns := kvNodes img peg
  (if ns.any fun i => isSpec img i [4, 5] then min s.lc s.lt else s.lt,
    s.lt + ((ns.filter fun i => isWalk img i 2).map fun i => kvApp (nodeBody img i)).sum)

/-- The page indices that the walks of a peg can touch (12 R285). -/
def kvTouched (img : List Byte) (peg : Nat) (s : SeqEntry) (globs : List Nat) : List Nat :=
  let span := kvSpan img peg s
  let win := ((kvNodes img peg).map fun i => if isWalk img i 1 then kvWin (nodeBody img i) else 0).foldl max 0
  (globs.filter fun p => decide (p < span.2)).foldl (fun a p => insertNat (p / 64) a) (pageRange (span.1 - win) span.2)

/-- The shadow-page indices that the commits of a peg can touch (12 R290, 13 R308, R311). -/
def kvShadowed (img : List Byte) (peg : Nat) (s : SeqEntry) : List Nat :=
  let span := kvSpan img peg s
  if s.shadow && (kvNodes img peg).any fun i => (isWalk img i 2 && kvFlag (nodeBody img i) 3) || isSpec img i [3, 5] then
    pageRange span.1 span.2
  else []

/-- The global positions of a READ, read at the start (12 R283, R285): what ends the raise, or the positions. -/
def Mod.globStart (m : Mod) (k c i : Nat) (img : List Byte) (mb : Member) (e : Ecc) : Option (Nat × Nat) × List Nat × Mod :=
  let b := nodeBody img i
  let n := kvGlobCount b
  let peg := kvGlobPeg b
  let ch := nodePrio img i % 16
  if n = 0 then (none, [], m)
  else if compressed (mb.addr peg) then (some (stBadField, 0x100 + peg), [], m)
  else if !m.recordOk k ch c (mb.addr peg) (4 * n) false then (some (stNotPermitted, ch), [], m.engineStops k ch 3 false 0)
  else
    let (rd, m) := m.memRead k (m.memKey k) (mb.loc peg) (4 * n) e true
    (if rd.bad.isEmpty then none else some (stIntegrity, 5), (List.range n).map fun j => fld rd.bytes (4 * j) 4, m)

/-- The position lists of a member's READs, by instance (12 R285): what ends the raise, or the lists. -/
def Mod.globsStart (m : Mod) (k c : Nat) (img : List Byte) (mb : Member) (member : Nat) (e : Ecc) :
    Option (Nat × Nat) × Table (List Nat) × Mod :=
  ((List.range (frameNodes img)).filter fun i => isWalk img i 1).foldl
    (fun (acc : Option (Nat × Nat) × Table (List Nat) × Mod) i =>
      if acc.1.isSome then acc
      else
        let r := acc.2.2.globStart k c i img mb (if acc.2.1.isEmpty then e else .clean)
        (r.1, Table.set (i * 64 + member) r.2.1 acc.2.1, r.2.2)) (none, [], m)

/-- The page-table entries of a member's sequences, read at the start (12 R285, R291): what ends the raise, or the sequences
with the entries they need. -/
def Mod.tablesStart (m : Mod) (k : Nat) (img : List Byte) (member : Nat) (globs : Table (List Nat)) (e : Ecc)
    (kv : List (KvUse × SeqEntry)) : Option (Nat × Nat) × List KvUse × Mod :=
  kv.foldl (fun (acc : Option (Nat × Nat) × List KvUse × Mod) x =>
    if acc.1.isSome then acc
    else
      let (u, s) := x
      let mine := (kvNodes img u.peg).flatMap fun i => Table.get [] (i * 64 + member) globs
      match acc.2.2.readTable k s false (kvTouched img u.peg s mine) (if acc.2.1.isEmpty then e else .clean) with
      | (none, m) => (some (stIntegrity, 5), acc.2.1, m)
      | (some pages, m) =>
        match m.readTable k s true (kvShadowed img u.peg s) .clean with
        | (none, m) => (some (stIntegrity, 5), acc.2.1, m)
        | (some shadows, m) => (none, acc.2.1 ++ [{ u with pages := pages, shadows := shadows }], m)) (none, [], m)

/-! ### A run as it forms (06 R166, R167) -/

/-- No error in any read of a start. -/
def StartEcc.clean : StartEcc := { pegs := .clean, entry := .clean, table := .clean, list := .clean, record := .clean }

/-- What the members of a run have gathered so far. -/
structure Forming where
  members : List Member
  kv : List KvUse
  retreed : List Nat
  globs : Table (List Nat)
  recs : Table (List Byte × List Byte)
  deriving DecidableEq, Repr

def Forming.empty : Forming := { members := [], kv := [], retreed := [], globs := [], recs := [] }

/-- What a new member adds to a run. -/
def Forming.add (f : Forming) (mb : Member) (kv : List KvUse) (globs : Table (List Nat)) (retreed : Bool)
    (recs : Table (List Byte × List Byte)) : Forming :=
  { members := f.members ++ [mb], kv := f.kv ++ kv
    retreed := if retreed then f.retreed ++ [f.members.length] else f.retreed
    globs := globs.foldl (fun t x => Table.set x.1 x.2 t) f.globs
    recs := recs.foldl (fun t x => Table.set x.1 x.2 t) f.recs }

/-- The start of one member: pegs, sequences, lists and tables, records, in this order (DESIGN CHOICE, assumption 51: the
manual gives none between them). Answers what ends it alone, or the run with it (06 R166, item 4). -/
def Mod.formMember (m : Mod) (k c : Nat) (img : List Byte) (e : StartEcc) (f : Forming) (r : Raise) :
    Option (Nat × Nat) × Forming × Mod :=
  let i := f.members.length
  let e := if i = 0 then e else StartEcc.clean
  match m.patchPegs k img r e.pegs with
  | (some x, _, m) => (some x, f, m)
  | (none, pegs, m) =>
    match m.checkPegs k c img pegs i f.kv e.entry with
    | (some x, _, m) => (some x, f, m)
    | (none, kv, m) =>
      let mb : Member := { raise := r, pegs := pegs }
      match m.globsStart k c img mb i e.list with
      | (some x, _, m) => (some x, f, m)
      | (none, globs, m) =>
        match m.tablesStart k img i globs e.table kv with
        | (some x, _, m) => (some x, f, m)
        | (none, kv, m) =>
          match m.treeStart k c img mb e.record with
          | (some x, _, m) => (some x, f, m)
          | (none, retreed, m) =>
            match m.reconcileStart k c img mb i e.record with
            | (some x, _, m) => (some x, f, m)
            | (none, recs, m) => (none, f.add mb kv globs retreed recs, m)

/-- The members of a run in order; one that fails completes alone at that instant. -/
def Mod.formRun (m : Mod) (k c : Nat) (img : List Byte) (e : StartEcc) (rs : List Raise) : Forming × Mod :=
  rs.foldl (fun (acc : Forming × Mod) r =>
    match acc.2.formMember k c img e acc.1 r with
    | (some x, _, m) => (acc.1, (m.complete k c r x.1 x.2).releaseResv k c r.q)
    | (none, f, m) => (f, m)) (Forming.empty, m)

/-- The first link node whose path does not serve a raise of partition `k` (15 R340). -/
def Mod.badLinkNode (m : Mod) (k : Nat) (job : Option Nat) (img : List Byte) : Option Nat :=
  (List.range (frameNodes img)).find? fun i => nodeUnit img i == 4 && !m.linkNodeOk k job (nodeBody img i)

/-- The receives of a run armed, in node order and then in member order (15 R341). -/
def Mod.armAll (m : Mod) (k c q : Nat) (img : List Byte) (n : Nat) : Mod :=
  m.forAll (fun m i =>
    if nodeUnit img i = 4 ∧ linkReceives (nodeBody img i) = true then
      m.forAll (fun m mb => m.armReceive k c q i mb (nodeBody img i)) (List.range n)
    else m) (List.range (frameNodes img))

/-- PART_ARR_GATHER as a run of a gatherable frame with `n` members leaves it (06 R170). -/
def gatherReg (v : Word) (img : List Byte) (n : Nat) : Word :=
  let rows := ((List.range (frameNodes img)).map fun i =>
    let b := parseArray (nodeBody img i)
    if nodeUnit img i = 1 ∧ b.gather = true then b.rows else 0).foldl max 0
  let v := setF (setF v 31 24 (n * rows)) 23 16 n
  if 2 ≤ n then satIncF v 15 0 else v

/-- The run that its members form, under way on a truss at a clock step. -/
def Forming.run (f : Forming) (frame : Nat) (guar : Bool) (truss mhz : Nat) (now : Dword) : Run :=
  { frame := frame, guar := guar, truss := truss, members := f.members, nodes := [], ending := none, abort := false, mhz := mhz
    tStart := now, kv := f.kv, bar2 := 0, retreed := f.retreed, sent := [], received := [], lts := [], globs := f.globs
    recs := f.recs, watch := [], beside := [] }

/-- A run begins (04 R108, 06 R166, 15 R340, R341): a link node without its path ends it before any node runs. DESIGN CHOICE
(assumption 49): the context that last started a best-effort raise is that of the last one to reach its first node. -/
def Mod.beginRun (m : Mod) (k c : Nat) (lead : Raise) (f : Forming) (truss mhz : Nat) : Mod :=
  let img := ((m.part k).ctx c).frameImage lead.frame
  match f.members with
  | [] => m
  | _ :: _ =>
    let u := f.run lead.frame lead.guar truss mhz m.devtime
    let job := if lead.guar then ((m.part k).resvOf c lead.q).map fun v => v.2.job else none
    match m.badLinkNode k job img with
    | some i => m.completeRun k c u (some (stBadField, 0x5000 + i))
    | none =>
      let m := m.modPart k fun p =>
        let p := p.modCtx c fun x => { x with run := some u }
        let p := if frameGathers img then p.setReg offGather (gatherReg (p.reg offGather) img f.members.length) else p
        if lead.guar then p else { p with lastCtx := c }
      m.armAll k c u.q img f.members.length

/-- A raise as it starts: void where a condition stands that names running raises (03 R93). -/
def Mod.startVoid (m : Mod) (k c : Nat) (r : Raise) : Raise :=
  match (m.part k).resvOf c r.q with
  | some (_, v) => (match m.runVoid v with
    | some code => r.void code
    | none => r)
  | none => r

/-- A leader starts with the raises that have joined it (06 R166): they leave their queues together. Where the stored frame
has come to hold a poisoned granule (11 R250, R257) they end with ST_INTEGRITY (DESIGN CHOICE, assumption 51). -/
def Mod.launch (m : Mod) (k c : Nat) (lead : Raise) (joined : List Nat) (truss mhz : Nat) (e : StartEcc) : Mod :=
  let rs := lead :: (m.candidates k c lead).filter fun r => joined.contains r.serial
  let img := ((m.part k).ctx c).frameImage lead.frame
  let m := m.modCtx k c fun x =>
    [0, 1, 2, 3].foldl (fun (x : Context) q =>
      x.modQueue q fun u => { u with landed := u.landed.filter fun r => !rs.contains r }) x
  let rs := rs.map (m.startVoid k c)
  let lost := (m.part k).frameLost c lead.frame
  if lost.isEmpty then
    let (f, m) := m.formRun k c img e rs
    m.beginRun k c lead f truss mhz
  else
    let m := m.forAll (fun m g => m.eccError k g (channelOf k (64 * g)) false) lost
    m.forAll (fun m r => (m.complete k c r stIntegrity 2).releaseResv k c r.q) rs

/-- A stopped run runs on from its node boundary (04 R108, rule 6). -/
def Mod.resumeRun (m : Mod) (k c : Nat) (u : Run) : Mod :=
  m.modCtx k c fun x => { x with run := some u, parked := Table.erase u.q x.parked }

/-- A chosen head starts with the raises that have joined it, or runs on. -/
def Mod.startHead (m : Mod) (k : Nat) (x : Place) (joined : List Nat) (truss mhz : Nat) (e : StartEcc) : Mod :=
  let m := m.modPart k fun p => { p.forStart with hold := none }
  match x.head with
  | .landed r => m.launch k x.c r joined truss mhz e
  | .parked u => m.resumeRun k x.c u

/-! ### Ends of runs (04 R111) -/

/-- The instances of node `i`: one for a gathered pass, else one a member (06 R167). -/
def nodeInstances (img : List Byte) (i n : Nat) : List Nat :=
  if nodeUnit img i = 1 ∧ (parseArray (nodeBody img i)).gather = true then [0] else List.range n

/-- Whether every instance of a node has ended. -/
def Run.nodeDone (u : Run) (img : List Byte) (i : Nat) : Bool :=
  (nodeInstances img i u.members.length).all fun mb => u.phase i mb == some .done

/-- Whether every node of a run has ended. -/
def Run.allDone (u : Run) (img : List Byte) : Bool := (List.range (frameNodes img)).all (u.nodeDone img)

/-- Whether a run stands at its end: nothing of it runs, and it has failed, is aborted, or has run every node. -/
def Run.finished (u : Run) (img : List Byte) : Bool := !u.active && (u.ending.isSome || u.abort || u.allDone img)

/-- The ending of a finished run; one closed with ABORT ends with ST_ABORTED (03 R77). -/
def Run.outcome (u : Run) : Option (Nat × Nat) :=
  if u.abort then worseEnding u.ending (stAborted, 0) else u.ending

/-- The first started run of a context that is finished. -/
def Context.finishedRun (x : Context) : Option Run := x.started.find? fun u => u.finished (x.image u)

/-- RAISE_COMPLETE (04 R111, 06 R169): the members of a finished run complete. -/
def Mod.raiseComplete (m : Mod) (k c : Nat) : Mod :=
  let x := (m.part k).ctx c
  match x.finishedRun with
  | none => m
  | some u => m.completeRun k c u u.outcome

def execRaiseComplete (k : Fin 64) (c : Fin 16) (s : State) : Host.Outcome State Fault Refusal :=
  s.act fun m =>
    if (m.part k.val).underReset || !m.running then m
    else ((m.raiseComplete k.val c.val).settleHolds).advanceAll k.val

/-! ### Choosing (03 R83, 04 R108) -/

/-- Every run of a partition stops where it stands, at a node boundary; one that is finished completes. -/
def Mod.parkAll (m : Mod) (k : Nat) : Mod :=
  m.forAll (fun m (e : Nat × Run) =>
    if e.2.finished (((m.part k).ctx e.1).image e.2) then m.raiseComplete k e.1
    else m.modCtx k e.1 fun x => { x with run := none, parked := Table.set e.2.q e.2 x.parked }) (m.part k).running

/-- The most urgent guaranteed-class head starts once every run that must stop for it stands at a node boundary. -/
def Mod.startGuar (m : Mod) (k : Nat) (x : Place) (e : StartEcc) : Mod :=
  let p := m.part k
  let m := m.modPart k fun p => { p with hold := none }
  if (p.running.any fun u => !p.mustStop u.1 u.2) || (p.running.any fun u => u.2.active) then m
  else
    let m := m.parkAll k
    match (m.part k).forStart.takeTruss x with
    | none => m
    | some t =>
      let joined := match x.head with
        | .landed r => m.joined k x.c r []
        | .parked _ => []
      m.startHead k x joined t 1800 e

/-- A best-effort head starts where a truss is free and the governor lets it (19 R427). -/
def Mod.startBest (m : Mod) (k : Nat) (x : Place) (joined : List Nat) (mhz : Nat) (e : StartEcc) : Mod :=
  let p := { m.part k with hold := none }
  let mhz := m.startMhz k mhz x
  match p.forStart.takeTruss x with
  | none => m
  | some t =>
    match x.head with
    | .parked _ => m.startHead k x [] t mhz e
    | .landed _ =>
      if m.governorHolds then (m.modPart k fun p => { p with hold := none }).chipCount offPwrGovCnt 31 16
      else
        let m := if mhz < 1800 ∨ m.tripStands = true then m.chipCount offPwrGovCnt 15 0 else m
        (m.modPart k fun p => { p with hold := none }).startHead k x joined t mhz e

/-- The best-effort choice: a leader whose window is open waits (06 R166, item 2). -/
def Mod.startChosen (m : Mod) (k : Nat) (x : Place) (mhz : Nat) (e : StartEcc) : Mod :=
  match x.head with
  | .landed r =>
    let joined := m.joined k x.c r []
    if m.opensWindow k x.c r joined then
      (match (m.part k).forStart.takeTruss x with
       | none => m
       | some _ => m.modPart k fun p =>
         { p with hold := some { ctx := x.c, q := x.q, since := m.devtime, joined := joined } })
    else m.startBest k x joined mhz e
  | .parked _ => m.startBest k x [] mhz e

/-- The end of a gathering hold (06 R166): its leader starts, where it may still start beside the open reservations. -/
def Mod.endHold (m : Mod) (k : Nat) (h : Hold) (e : StartEcc) : Mod :=
  let (d, m) := m.draw
  let mhz := m.clockStep k d
  let none' := m.modPart k fun p => { p with hold := none }
  match m.holdLeader k h with
  | none => none'
  | some r =>
    let x : Place := { c := h.ctx, q := h.q, head := .landed r }
    if m.eligible k mhz x then
      let m' := m.startBest k x (m.joined k h.ctx r h.joined) mhz e
      m'.modPart k fun p => { p with hold := none }
    else none'

/-- A best-effort run whose frame has a node too long for the reservations now open stops where it stands at a node
boundary, and stays queued (03 R83). -/
def Mod.parkLong (m : Mod) (k : Nat) : Mod :=
  m.forAll (fun m (e : Nat × Run) =>
    let img := ((m.part k).ctx e.1).image e.2
    if e.2.guar || e.2.active || e.2.finished img || m.sliceOk k img e.2.mhz then m
    else m.modCtx k e.1 fun x => { x with run := none, parked := Table.set e.2.q e.2 x.parked }) (m.part k).running

/-- One scheduling decision of the bay controller (03 R83, 04 R108, 06 R166). -/
def Mod.schedule (m : Mod) (k : Nat) (e : StartEcc) : Mod :=
  let m := (m.parkLong k).settleHold k
  let p := m.part k
  match p.guarHead with
  | some x => m.startGuar k x e
  | none =>
    if p.running.any fun u => u.2.guar then m
    else
      match p.hold with
      | some h =>
        (match m.holdLeader k h with
         | some r => if m.opensWindow k h.ctx r h.joined then m else m.endHold k h e
         | none => m.modPart k fun p => { p with hold := none })
      | none =>
        let (d, m) := m.draw
        let mhz := m.clockStep k d
        match m.chooseBest k mhz with
        | none => m
        | some x => m.startChosen k x mhz e

/-- Whether the bay controller of a partition starts anything now (18 R403, R405, 19 R432). -/
def Mod.schedules (m : Mod) (k : Nat) : Bool :=
  m.running && (m.part k).created && !(m.part k).underReset && !m.shutStands

/-- RAISE_START (04 R108): segments that waited for a run that resumes are written (01 R24). -/
def execRaiseStart (k : Fin 64) (e : StartEcc) (s : State) : Host.Outcome State Fault Refusal :=
  s.act fun m => if m.schedules k.val then (m.schedule k.val e).advanceAll k.val else m

/-- GATHER_WINDOW_END (06 R166, item 2): `GATHER_NS` has elapsed. -/
def execGatherWindowEnd (k : Fin 64) (e : StartEcc) (s : State) : Host.Outcome State Fault Refusal :=
  s.act fun m =>
    match (m.part k.val).hold with
    | none => m
    | some h => if m.schedules k.val && (m.part k.val).guarHead.isNone then m.endHold k.val h e else m.settleHold k.val

/-- Whether the bay controller is about to start a raise: a guaranteed-class one, or a best-effort one that opens no window
and that the governor does not hold. -/
def Mod.aboutToStart (m : Mod) (k : Nat) : Bool :=
  (m.part k).guarHead.isSome ||
    (!m.governorHolds && (match m.chooseBest k 1800 with
      | some x => (match x.head with
        | .landed r => !m.opensWindow k x.c r (m.joined k x.c r [])
        | .parked _ => true)
      | none => false))

/-- TRUSS_REJOIN (18 R415): at a frame boundary, the trusses that wait rejoin. -/
def execTrussRejoin (k : Fin 64) (s : State) : Host.Outcome State Fault Refusal :=
  s.act fun m =>
    if m.schedules k.val && (m.part k.val).atFrameBoundary && m.aboutToStart k.val then m.modPart k.val Partition.rejoin
    else m

/-! ### Nodes (04 R100, 06 R167) -/

/-- Whether another instance runs on the array or the vector engine that node `i` needs. -/
def Run.unitBusy (u : Run) (img : List Byte) (i : Nat) : Bool :=
  nodeUnit img i ≤ 2 && u.nodes.any fun e =>
    e.2 == .running && nodeUnit img (e.1 / 64) == nodeUnit img i && nodeTruss img (e.1 / 64) == nodeTruss img i

/-- Whether an instance of a node may start: its run goes on, every node before it has ended, the members before it have
run it, and its unit is free. -/
def Mod.mayStart (m : Mod) (k c node member : Nat) : Bool :=
  let p := m.part k
  let x := p.ctx c
  match x.run with
  | none => false
  | some u =>
    let img := x.image u
    decide (node < frameNodes img) && (nodeInstances img node u.members.length).contains member &&
      (u.phase node member).isNone && u.ending.isNone && !u.abort && !p.mustStop c u && (u.guar || m.sliceOk k img u.mhz) &&
      ((framePreds img node).all (u.nodeDone img)) &&
      ((List.range member).all fun mb => u.phase node mb == some .done) && !u.unitBusy img node

/-- A run in which an instance starts; an array pass and a vector instance of one truss that now run together are noted
(06 R163). -/
def Run.starting (u : Run) (img : List Byte) (node member : Nat) : Run :=
  let i := node * 64 + member
  let others := (u.nodes.filter fun e => e.2 == .running && nodeUnit img (e.1 / 64) + nodeUnit img node == 3 &&
    nodeTruss img (e.1 / 64) == nodeTruss img node).map (·.1)
  let passes := if nodeUnit img node = 1 then (if others.isEmpty then [] else [i])
    else if nodeUnit img node = 2 then others else []
  { u.setNode node member .running with beside := u.beside ++ passes.filter fun j => !u.beside.contains j }

/-- NODE_START (04 R100, R108). -/
def execNodeStart (k : Fin 64) (c : Fin 16) (node member : Nat) (s : State) : Host.Outcome State Fault Refusal :=
  s.act fun m =>
    if m.schedules k.val && m.mayStart k.val c.val node member then
      let img := ((m.part k.val).ctx c.val).runImage
      let m := m.modRun k.val c.val fun u => u.starting img node member
      let b := nodeBody img node
      (if nodeUnit img node = 4 ∧ linkSends b = true then m.sendStart k.val c.val node member b else m).watchLinks k.val
    else m

/-- Whether every frame of one send has left this module's hubs (15 R342). -/
def Mod.sendLeft (m : Mod) (k : Nat) (u : Run) (node member : Nat) : Bool :=
  match u.members[member]? with
  | some mb => m.noFrame fun f => decide (f.part = k) && f.send == some (mb.raise.serial, node)
  | none => true

/-- NODE_COMPLETE (04 R111): an instance that has done its work ends; a send once its last frame has left (15 R342), and with
it its use of the link key (17 R382). -/
def Mod.nodeComplete (m : Mod) (k c node member : Nat) : Mod :=
  let x := (m.part k).ctx c
  match x.run with
  | none => m
  | some u =>
    if u.phase node member != some .worked then m
    else
      let img := x.image u
      let b := nodeBody img node
      if nodeUnit img node = 4 ∧ linkSends b = true ∧ u.ending.isNone = true ∧ m.sendLeft k u node member = false then m
      else
        (m.keyRelease fun y => y == .linkSend k c node member).modRun k c fun u => u.setNode node member .done

def execNodeComplete (k : Fin 64) (c : Fin 16) (node member : Nat) (s : State) : Host.Outcome State Fault Refusal :=
  s.act fun m => if (m.part k.val).underReset || !m.running then m else m.nodeComplete k.val c.val node member

end Sys2Proof.Machine
end

