-- ==== Sys2Proof/Machine/Watch.lean ====
section
/-!
DEFINITION. Watchdogs, late peers and module failure (03 R93, 18 R399 to R401, R416). The rows stand for the moment at
which a limit passes; that a wait has lasted so long is the command's to say (assumption 4).
-/

namespace Sys2Proof.Machine

/-! ### Waits (18 R399) -/

/-- The DEVTIME at which the wait watchdog of a raise expires: its limit is that of when the wait began, at landing
(18 R419). -/
def Raise.waitEnds (r : Raise) : Nat := r.tLand.toNat + 1000000 * r.waitMs

/-- Of the landed raises of a queue whose wait is not met and has a limit, the one whose limit passes first. -/
def Mod.waitingRaise (m : Mod) (k c q : Nat) : Option Raise :=
  ((((m.part k).ctx c).queue q).landed.filter fun r => r.waits && r.waitMs != 0).foldl (fun (best : Option Raise) r =>
    match best with
    | none => some r
    | some b => if r.waitEnds < b.waitEnds then some r else best) none

/-- Raises ended by a watchdog in its registers (18 R419). -/
def Partition.wdogMark (p : Partition) (i n : Nat) : Partition := (p.flag offWdogStatus i).count offWdogStatus 15 0 n

/-- WAIT_WATCHDOG (18 R399): the raise completes with ST_TIMEOUT, DETAIL 1, without running. -/
def Mod.waitWatchdog (m : Mod) (k c q : Nat) : Mod :=
  let p := m.part k
  if p.underReset || !m.running then m
  else
    match m.waitingRaise k c q with
    | none => m
    | some r =>
      let m := m.modPart k fun p =>
        (p.modCtx c fun x => x.modQueue q fun u => { u with landed := u.landed.erase r }).wdogMark 31 1
      (m.complete k c r stTimeout 1).releaseResv k c q

def execWaitWatchdog (k : Fin 64) (c : Fin 16) (q : Fin 4) (s : State) : Host.Outcome State Fault Refusal :=
  s.act fun m => m.waitWatchdog k.val c.val q.val

/-! ### Link nodes (18 R399, R400, 03 R93) -/

/-- Whether a link watchdog runs for an instance (18 R399, R419): a condition of it stands, with a limit. -/
def Run.watched (u : Run) (node member : Nat) : Bool :=
  let i := 2 * (node * 64 + member)
  (Table.get 0 i u.watch != 0) || (Table.get 0 (i + 1) u.watch != 0)

/-- A run whose link nodes have ended with it: their work is over (18 R399). -/
def Run.endLinks (u : Run) (img : List Byte) : Run :=
  { u with nodes := u.nodes.map fun e => if nodeUnit img (e.1 / 64) = 4 ∧ e.2 = .running then (e.1, .worked) else e, watch := [] }

/-- LINK_WATCHDOG (18 R399, R400): the raise of the node ends with ST_TIMEOUT: its running nodes on other units finish, and
no further node starts. -/
def Mod.linkWatchdog (m : Mod) (k c node member : Nat) : Mod :=
  match m.nodeAt k c node member with
  | none => m
  | some (u, img, _) =>
    if u.watched node member then
      ((m.modPart k fun p => p.wdogMark 30 u.members.length).markRun k c stTimeout (0x5000 + node)).modRun k c fun u =>
        u.endLinks img
    else m

def execLinkWatchdog (k : Fin 64) (c : Fin 16) (node member : Nat) (s : State) : Host.Outcome State Fault Refusal :=
  s.act fun m => m.linkWatchdog k.val c.val node member

/-- Whether some payload frame has arrived for an armed receive. -/
def Mod.frameArrived (m : Mod) (k c q : Nat) (b : List Byte) (node member : Nat) : Bool :=
  match Table.find (linkPath b) m.paths with
  | none => false
  | some p => p.owner == k && p.msgs.any fun g => decide (0 < g.got) && (match g.arm with
      | some a => a.c == c && a.q == q && a.node == node && a.member == member
      | none => false)

/-- PEER_LATE_TIMEOUT (03 R93, code 7): no data by the bound; the promise of the raise is void, with a notice that names
the peer. -/
def Mod.peerLate (m : Mod) (k c node member : Nat) : Mod :=
  match m.nodeAt k c node member with
  | none => m
  | some (u, img, mb) =>
    let b := nodeBody img node
    if nodeUnit img node = 4 ∧ u.guar = true ∧ mb.raise.voided.isNone = true ∧ u.awaits b node member = true ∧
        m.frameArrived k c u.q b node member = false then
      match Table.find (linkPath b) m.paths with
      | some p => (m.voidOwn k c mb.raise 7 p.peer).watchLinks k
      | none => m
    else m

def execPeerLateTimeout (k : Fin 64) (c : Fin 16) (node member : Nat) (s : State) : Host.Outcome State Fault Refusal :=
  s.act fun m => m.peerLate k.val c.val node member

/-! ### Hangs (18 R399, R401) -/

/-- NODE_PROGRESS_WATCHDOG (18 R399): a node of units 1, 2, 3, 5 and 6 has made no progress: the partition resets. -/
def Mod.nodeHang (m : Mod) (k c node member : Nat) : Mod :=
  match m.nodeAt k c node member with
  | none => m
  | some (u, img, _) =>
    let unit := nodeUnit img node
    if unit = 4 ∨ m.running = false then m else m.startReset k 4 (0x100 * u.phys img (nodeTruss img node) + unit)

def execNodeProgressWatchdog (k : Fin 64) (c : Fin 16) (node member : Nat) (s : State) :
    Host.Outcome State Fault Refusal :=
  s.act fun m => m.nodeHang k.val c.val node member

/-- TRUSS_INTERNAL_ERROR (18 R401): the partition of the truss resets. -/
def execTrussInternalError (k : Fin 64) (t : Fin 2) (s : State) : Host.Outcome State Fault Refusal :=
  s.act fun m => m.molique fun m => m.startReset k.val 5 t.val

/-- BAY_AGENT_HEARTBEAT (18 R399). -/
def execBayAgentHeartbeat (b : Fin 4) (s : State) : Host.Outcome State Fault Refusal :=
  s.act fun m => m.molique fun m => { m with beats := Table.set b.val m.devtime m.beats }

/-- The existing partitions of a bay. -/
def Mod.bayParts (m : Mod) (b : Nat) : List Nat := allParts.filter fun k => m.exists? k && k / 16 == b

/-- BAY_CONTROLLER_WATCHDOG (18 R399, R413): 1 ms after the last heartbeat the agent is restarted and every existing
partition of the bay resets; one module record names them. -/
def Mod.bayWatchdog (m : Mod) (b : Nat) : Mod :=
  if m.devtime.toNat < (Table.get 0 b m.beats).toNat + 1000000 then m
  else
    let ks := m.bayParts b
    let m := { m with beats := Table.set b m.devtime m.beats }
    let m := (m.send (.agentRestart b)).moduleRecord 1 b (ks.map fun k => 2 ^ k).sum 0 0
    m.forAll (fun m k => m.startReset k 6 b) ks

def execBayControllerWatchdog (b : Fin 4) (s : State) : Host.Outcome State Fault Refusal :=
  s.act fun m => m.molique fun m => m.bayWatchdog b.val

/-- CHIP_CONTROLLER_WATCHDOG (18 R416): every truss and engine halts with Molique, every lane is squelched, the stage is
HALTED, and the link is down. Raises, holds and waits stand as they are, and no command moves them any more. -/
def Mod.moduleFails (m : Mod) : Mod :=
  let m := m.forAll (fun m (e : Nat × Link) =>
    m.forAll (fun m lane => if bit e.2.live.toNat lane then m.send (.squelch e.1 lane) else m) [0, 1, 2, 3]) m.links
  let m := { m with links := m.links.map fun (e : Nat × Link) => (e.1, { e.2 with live := 0, standby := 0 }) }
  m.mute.setStage 0xF

def execChipControllerWatchdog (s : State) : Host.Outcome State Fault Refusal :=
  s.act fun m => m.molique Mod.moduleFails

end Sys2Proof.Machine
end

