-- ==== Sys2Proof/Machine/Reset.lean ====
section
/-!
DEFINITION. Partition resets phase by phase, fault records and their reading, and the re-admission of trusses
(18 R401 to R415, R453, R454). A command of a phase enters the phase and does its work.
-/

namespace Sys2Proof.Machine

/-! ### PART_RESET (18 R402) -/

/-- The checks of 18 R402. -/
def Mod.partResetBad (m : Mod) (r : Request) : Option (Nat × Nat) :=
  let k := fld r.payload 0 1
  orBad (fieldBad ((decide (64 ≤ k), 0) :: ([1, 2, 3, 4, 5, 6, 7].map fun i => (fld r.payload i 1 != 0, i))))
    (firstBad [((match r.fn with
      | .vf j => j.val != k
      | _ => !m.exists? k), stNotPermitted, 1)])

/-- The reset runs; its response waits for the end (18 R402, R403). -/
def Mod.partReset (m : Mod) (r : Request) : Mod :=
  m.judge r (m.partResetBad r) fun m =>
    (m.hold r).startReset (fld r.payload 0 1) (if r.fn = .mgmt then 2 else 1) (fnCode r.fn)

/-- PART_RESET (18 R402). -/
def execPartReset (f : Fn) (s : State) : Host.Outcome State Fault Refusal :=
  s.act fun m => m.mbxRow f 0x11 (fun _ => true) Mod.partReset

/-! ### The fault record (18 R406, R407, R453, R454) -/

/-- A reservation entry (18 R453). -/
def resvEntry (r : Reservation) : List Byte :=
  slice r.payload 0 64 ++ slice r.response 0 48 ++ leBytes 8 (match r.prev with
    | some t => t.toNat
    | none => 2 ^ 64 - 1) ++ leBytes 1 (b2n (!r.closed) + 2 * b2n r.closed + 4 * b2n r.suspended)

/-- The header (18 R407). -/
def Mod.recordHeader (m : Mod) (k : Nat) (z : ResetState) (seq : Nat) : List Byte :=
  leBytes 4 0x464C5452 ++ leBytes 2 1 ++ leBytes 1 k ++ leBytes 1 z.cause ++ leBytes 8 z.t0.toNat ++
    leBytes 8 m.devtime.toNat ++ leBytes 4 seq ++ leBytes 2 (m.part k).tenant.toNat ++ leBytes 2 z.cdetail ++
    leBytes 1 (b2n z.joined + 2 * b2n z.mode) ++ leBytes 1 z.trusses ++ zeros 30 ++
    z.regs.flatMap fun v => leBytes 4 v.toNat

/-- The record of a reset but for its two sections without a stated layout (18 R407). -/
def Mod.recordCells (m : Mod) (k : Nat) (z : ResetState) (seq : Nat) : Cells :=
  let p := m.part k
  let c0 := Cells.write z.queues 0 (m.recordHeader k z seq)
  let c1 := p.chans.foldl (fun (a : Cells) (e : Nat × Channel) =>
    Cells.write a (0x2000 + 0x200 * e.1) ((e.2.queue.take 16).flatMap fun d => slice d.raw 0 32)) c0
  let c2 := p.resvs.foldl (fun (a : Cells) (e : Nat × Reservation) => Cells.write a (0x5000 + 256 * e.1) (resvEntry e.2)) c1
  p.evCopy.foldl (fun (a : Cells) (e : Nat × BitVec 64) =>
    Cells.write a (0x50000 + 8 * e.1) (leBytes 8 e.2.toNat)) c2

/-- The first granule of a record's slot in external memory (18 R406). -/
def recordGranule (slot : Nat) : Nat := (extEnd + 0x4080000 + 0x100000 * slot) / 64

/-- A unit of a channel's head that was in flight at t0 (10 R224, 18 R403): written whole. -/
def Mod.flightUnit (m : Mod) (k ch : Nat) (d : Desc) : Mod :=
  let at' := ((m.part k).chan ch).written
  let m := (m.moveUnit k ch d at' UnitEcc.clean).2.2
  m.modPart k fun p => p.modChan ch fun h => h.wrote (m.unitLen d at')

/-- Whether a descriptor's units leave for external memory, the host or a remote window (18 R403). -/
def Mod.leaves (m : Mod) (k : Nat) (d : Desc) : Bool :=
  match d.job, m.descNode k d with
  | .page g, _ => g.write && g.shadow.isSome
  | .accept, some (_, img, node, _, mb) => isExt (mb.loc (specAcc (nodeBody img node)))
  | .mask, _ | .accept, none => false
  | .sides, _ | .row _, _ => d.dstKind == 2 || d.dstKind == 3 || (d.dstKind == 0 && isExt (addrLoc d.dst))

/-- The units in flight of a channel as its engine freezes (18 R403): those that leave the partition's near memory and
scratchpads are written. DESIGN CHOICE (assumption 51): the others, which may be dropped, are. -/
def Mod.freezeChan (m : Mod) (k ch : Nat) : Mod :=
  let h := (m.part k).chan ch
  match h.queue.head? with
  | none => m
  | some d =>
    if !m.sidesOk k ch d h.written || !m.leaves k d then m
    else if h.winOk || h.hostData.isSome then m.flightUnit k ch d
    else if d.flies then m.forAll (fun m _ => m.flightUnit k ch d) (List.range h.flight)
    else m

/-- The running state of a record (18 R407): for each run the truss it took, its context, its frame, its running nodes, and
of every member queue, `USER_TAG` and t_land. -/
def Partition.runningFacts (p : Partition) : List (List Nat) :=
  p.running.flatMap fun e =>
    [e.2.truss, e.1, e.2.frame] :: (e.2.nodes.filterMap fun n => if n.2 == .running then some n.1 else none) ::
      e.2.members.map fun mb => [mb.raise.q, mb.raise.userTag, mb.raise.tLand.toNat]

/-- The channel state of a record (18 R407): for each channel its units in flight, `DMA_CH_DONE`, and the `DISABLE` and error
state. -/
def Partition.channelFacts (p : Partition) : List (List Nat) :=
  (List.range 16).map fun ch =>
    let h := p.chan ch
    [h.flight + b2n h.winOk + b2n h.hostData.isSome, if h.queue.isEmpty then h.done else h.written,
     (p.reg (offChCtrl ch)).toNat, getF (p.reg (offChStatus ch)) 7 5]

/-- The record is written into the next slot, over what stood there (18 R406); an uncorrectable error leaves one of its
granules poisoned. A reset by a bay restart is named by that restart's module record (18 R413). -/
def Mod.capture (m : Mod) (k : Nat) (z : ResetState) (e : Ecc) : Mod :=
  let (progress, m) := m.draw
  let p := m.part k
  let facts : RecordFacts := { running := p.runningFacts, channels := p.channelFacts, progress := progress }
  let m := m.forAll (fun m ch => m.freezeChan k ch) (List.range 16)
  let p := m.part k
  let slot := p.recordCount % 32
  let seq := p.recordCount + 1
  let g := recordGranule slot
  let (x, m) := m.draw
  let body := m.recordCells k z seq
  let m := m.modPart k fun p =>
    { p with
      records := Table.set slot body p.records, recordFacts := Table.set slot facts p.recordFacts, recordCount := seq
      extPoison := (if e = .uncorrectable then [g + x % 16384] else []) ++
        p.extPoison.filter fun i => !(decide (g ≤ i) && decide (i < g + 16384))
      resetting := some { z with phase := 2 } }
  if z.cause = 6 then m else m.moduleRecord 2 (k / 16) (2 ^ k) seq z.cause z.t0

/-- A command of reset phase `n`: it acts while the partition stands in the phase before, and enters its own. -/
def Mod.resetRow (m : Mod) (k n : Nat) (act : Mod → ResetState → Mod) : Mod :=
  m.molique fun m =>
    match (m.part k).resetting with
    | some z => if z.phase + 1 = n then act m { z with phase := n } else m
    | none => m

/-- The partition stands in the phase of `z`. -/
def Mod.setPhase (m : Mod) (k : Nat) (z : ResetState) : Mod := m.modPart k fun p => { p with resetting := some z }

/-- RESET_CAPTURE (18 R407). -/
def execResetCapture (k : Fin 64) (e : Ecc) (s : State) : Host.Outcome State Fault Refusal :=
  s.act fun m => m.resetRow k.val 2 fun m z => m.capture k.val z e

/-! ### Phase 3 (18 R403, R410) -/

/-- Units that the windows of partition `k` have accepted are written before the windows close (10 R234). -/
def Mod.landAccepted (m : Mod) (k : Nat) : Mod :=
  m.forAll (fun m (e : Nat × Partition) =>
    m.forAll (fun m (h : Nat × Channel) =>
      match h.2.winOk, h.2.queue.head? with
      | true, some d => (match d.window with
        | some (j, _, _, _) => if j = k ∧ e.1 ≠ k then (m.unitStep e.1 h.1 d UnitEcc.clean).2 else m
        | none => m)
      | _, _ => m) e.2.chans) m.parts

/-- Descriptor queues empty, with their device reads and uses of keys; gathering ends (18 R403). -/
def Mod.dropChans (m : Mod) (k : Nat) : Mod :=
  let m := m.forAll (fun m ch => m.orphanReads k ch) (List.range 16)
  let m := m.keyRelease fun u => match u with
    | .dma j _ => j == k
    | .scrub j => j == k
    | _ => false
  m.modPart k fun p =>
    { p with
      chans := p.chans.map fun (e : Nat × Channel) => (e.1, { Channel.reset with
        done := if e.2.queue.isEmpty then e.2.done else e.2.written })
      gather := none, hold := none, scrub := none }

/-- An attachment that the reset interrupts completes with ST_PARTITION_RESET, and its slot is free (14 R320). -/
def Mod.dropAttachments (m : Mod) (k : Nat) : Mod :=
  m.forAll (fun m (e : Nat × Shard) =>
    if e.2.state = .pending then
      (m.modPart k fun p => { p with shards := Table.erase e.1 p.shards }).shardFinish k e.1 stPartitionReset 0
    else m) (m.part k).shards

/-- The bindings of a partition end (16 R360); its own committing nodes have ended with their raises. -/
def Mod.dropBinds (m : Mod) (k : Nat) : Mod :=
  let m := m.modPart k fun p => { p with mirrorWait := [] }
  m.forAll (fun m (e : Nat × Binding) => m.endBind e.1 stPartitionReset) (m.bindsOf k)

/-- What ends in phase 3 (18 R403, R410). -/
def Mod.endRaises (m : Mod) (k : Nat) (z : ResetState) : Mod :=
  let m := m.landAccepted k
  let m := m.forAll (fun m (e : Nat × Context) => m.endCtx k e.1 stPartitionReset z.cause) (m.part k).ctxs
  let m := ((m.dropResvs k).dropChans k).modPart k fun p =>
    (List.range 16).foldl (fun (p : Partition) w => p.setFld (offWinCtrl w) 31 30 0) p
  ((m.dropAttachments k).dropBinds k).setPhase k z

/-- RESET_END_RAISES (18 R410). -/
def execResetEndRaises (k : Fin 64) (s : State) : Host.Outcome State Fault Refusal :=
  s.act fun m => m.resetRow k.val 3 fun m z => m.endRaises k.val z

/-! ### Phases 4 to 6 (18 R403) -/

/-- RESET_RETRAIN (18 R403): the channels are retrained; external memory keeps its contents. -/
def execResetRetrain (k : Fin 64) (s : State) : Host.Outcome State Fault Refusal :=
  s.act fun m => m.resetRow k.val 4 fun m z => m.setPhase k.val z

/-- RESET_SCRUB (18 R403): near memory, the scratchpads and the state of the arrays are zero. -/
def execResetScrub (k : Fin 64) (s : State) : Host.Outcome State Fault Refusal :=
  s.act fun m => m.resetRow k.val 5 fun m z =>
    (m.modPart k.val fun p => { p with near := [], nearPoison := [], trusses := [] }).setPhase k.val z

/-- The results of a self-test of both trusses in FLT_TRUSS (18 R414, R420). -/
def Partition.selfTest (p : Partition) (pass0 pass1 : Bool) : Partition :=
  let v := setF (p.reg offTruss) 1 0 (b2n pass0 + 2 * b2n pass1)
  p.setReg offTruss (setF (setF v 7 6 (b2n (!pass0) + 2 * b2n (!pass1))) 5 2 0)

/-- RESET_SELF_TEST (18 R403): both trusses are tested; a paused test does not end (02 R64). -/
def execResetSelfTest (k : Fin 64) (pass0 pass1 : Bool) (s : State) : Host.Outcome State Fault Refusal :=
  s.act fun m => if m.boot.paused then m
    else m.resetRow k.val 6 fun m z => (m.modPart k.val fun p => p.selfTest pass0 pass1).setPhase k.val z

/-! ### Phase 7 (18 R403, R404, R411, R412, 20 R449) -/

/-- Whether a register keeps its value through a partition reset (20 R449). -/
def keptReg (off : Nat) : Bool :=
  off == offResetStatus || off == offWdogCfg || off == offWdogStatus || off == offTruss ||
    (decide (0x10000 ≤ off) && decide (off < 0x20000))

/-- The registers of a partition at the end of a reset (20 R449). -/
def Partition.restoreRegs (p : Partition) (z : ResetState) : Partition :=
  let slot := p.memSlot
  let p := { p with regs := p.regs.filter fun (e : Nat × Word) => keptReg e.1 }
  let p := p.setReg offKsStatus (setF 0 15 0 slot)
  let p := (p.setFld offResetStatus 28 26 z.cause).count offResetStatus 15 0
  let p := if z.cause = 4 then p.flag offWdogStatus 29 else p
  (List.range 64).foldl (fun (p : Partition) i =>
    if getB (p.reg (offQdCtrl (i / 4) (i % 4))) 0 then p.setReg (offQdCtrl (i / 4) (i % 4)) 0 else p) p

/-- The partition as phase 7 leaves it (18 R404, R411): the event store reloaded from the copy, registers and rings at their
reset values, near-tier shards gone. -/
def Partition.restored (p : Partition) (z : ResetState) : Partition :=
  { p.restoreRegs z with
    events := p.evCopy, noticeRing := [], notices := [], resetNotice := true, memObj := 0, cmpTables := []
    chans := [], descWin := [], shards := p.shards.filter fun (e : Nat × Shard) => isExt e.2.loc, resetting := none }

/-- The 16-byte answer of a PART_RESET (18 R402). -/
def Mod.partResetAnswer (m : Mod) (k : Nat) (z : ResetState) : List Byte :=
  let p := m.part k
  leBytes 8 z.t0.toNat ++ leBytes 1 z.cause ++ leBytes 1 (getF (p.reg offTruss) 1 0) ++ zeros 2 ++ leBytes 4 p.recordCount

/-- The first granule of the write-through copy of the events (11 R250). -/
def copyGranule : Nat := (extEnd + 0x4000000) / 64

/-- The events that stand in poisoned granules of the write-through copy (11 R250, R257): they reload as free values, and the
errors are reported (DESIGN CHOICE, assumption 51). -/
def Mod.lostEvents (m : Mod) (k : Nat) : Mod :=
  let bad := (m.part k).extPoison.filter fun g => decide (copyGranule ≤ g) && decide (g < copyGranule + 8192)
  m.forAll (fun m g =>
    (m.eccError k g (channelOf k (64 * g)) false).forAll (fun m i =>
      let (x, m) := m.draw
      m.modPart k fun p => { p with evCopy := Sparse.set (8 * (g - copyGranule) + i) (BitVec.ofNat 64 x) p.evCopy })
      (List.range 8)) bad

/-- The end of a reset (18 R403, R404): state, the notice, VF vector 1, and the answers of every PART_RESET that joined. -/
def Mod.restore (m : Mod) (k : Nat) (z : ResetState) : Mod :=
  let m := ((m.lostEvents k).modPart k fun p => p.restored z).clearPairs k
  let m := (m.notice k 4 0xFFFF 0 1).msixPart k 1
  m.forAll (fun m (r : Request) =>
    if r.opcode = 0x11 ∧ fld r.payload 0 1 = k then m.finish r stOk 0 (m.partResetAnswer k z) else m) m.acting

/-- RESET_RESTORE (18 R404). -/
def execResetRestore (k : Fin 64) (s : State) : Host.Outcome State Fault Refusal :=
  s.act fun m => m.resetRow k.val 7 fun m z => m.restore k.val z

/-! ### Re-admission (18 R414, R415, R420) -/

/-- A write of READMIT (18 R415, step 1): a test starts for each named truss that is out of service; nothing starts while the
partition is under reset or does not exist. -/
def Partition.readmit (p : Partition) (mask : Nat) : Partition :=
  let v := p.reg offTruss
  if !p.created || p.underReset then p
  else p.setFld offTruss 5 4 (getF v 5 4 ||| (mask &&& (3 - getF v 1 0)))

/-- TRUSS_READMIT (18 R415): FLT_TRUSS stands in chip space, which the PF reaches. -/
def execTrussReadmit (f : Fn) (k : Fin 64) (mask : BitVec 2) (s : State) : Host.Outcome State Fault Refusal :=
  s.act fun m => m.host fun m => if f = .pf then m.modPart k.val fun p => p.readmit mask.toNat else m

/-- The end of a re-admission test (18 R415, step 3). -/
def Partition.readmitDone (p : Partition) (t : Nat) (pass : Bool) : Partition :=
  let p := p.setFld offTruss (4 + t) (4 + t) 0
  if pass then ({ p with trusses := Table.erase t p.trusses }.setFld offTruss (6 + t) (6 + t) 0).flag offTruss (2 + t)
  else (p.setFld offTruss (2 + t) (2 + t) 0).flag offTruss (6 + t)

/-- READMIT_TEST_DONE (18 R415): of a test in progress that is not paused (02 R64). -/
def execReadmitTestDone (k : Fin 64) (t : Fin 2) (pass : Bool) (s : State) : Host.Outcome State Fault Refusal :=
  s.act fun m => m.molique fun m =>
    if getB ((m.part k.val).reg offTruss) (4 + t.val) && !m.boot.paused then m.modPart k.val fun p => p.readmitDone t.val pass
    else m

/-! ### FAULT_READ (18 R409) -/

def frKind (pl : List Byte) : Nat := fld pl 0 1
def frPart (pl : List Byte) : Nat := fld pl 1 1
def frIndex (pl : List Byte) : Nat := fld pl 2 2
def frDst (pl : List Byte) : Nat := fld pl 8 8

/-- The field checks of 18 R409. -/
def faultReadFields (pl : List Byte) : Option (Nat × Nat) :=
  let own := frKind pl == 1
  fieldBad [(frKind pl == 0 || decide (3 < frKind pl), 0), (if own then decide (63 < frPart pl) else frPart pl != 0, 1),
    ((own && decide (31 < frIndex pl)) || (frKind pl == 2 && decide (15 < frIndex pl)), 2), (fld pl 4 4 != 0, 4),
    (if own then decide (2 ^ 40 ≤ frDst pl) || frDst pl % 4096 != 0 else frDst pl != 0, 8)]

/-- Slot of the record `INDEX` names: 0 the newest (18 R406, R409). -/
def Partition.recordSlot (p : Partition) (index : Nat) : Nat := (p.recordCount - 1 - index) % 32

/-- Byte `a` of the record in a slot (18 R407): where the manual lays a section out, as stored; else a function of what the
section holds. -/
def Partition.recordByte (p : Partition) (slot a : Nat) : Byte :=
  let x := Table.get { running := [], channels := [], progress := 0 } slot p.recordFacts
  if a / 0x1000 = 1 then Config.recordByte 1 x.running x.progress a
  else if a / 0x1000 = 4 then Config.recordByte 4 x.channels 0 a
  else Sparse.get a (Table.get [] slot p.records)

/-- The record in a slot as a byte memory. -/
def Partition.recordWhole (p : Partition) (slot : Nat) : Cells :=
  ([0x1000, 0x4000] : List Nat).foldl (fun (a : Cells) base =>
    Cells.write a base ((List.range 0x1000).map fun i => p.recordByte slot (base + i))) (Table.get [] slot p.records)

/-- `n` bytes from a multiple of 64 take the contents of a byte memory, granule by granule whole (11 R255, R257). -/
def Partition.putRange (p : Partition) (key dst n : Nat) (bs : Cells) : Partition :=
  let into (old : Cells) : Cells := bs.foldl (fun (a : Cells) (c : Host.Cell) => Sparse.set (dst + c.1) c.2 a) (Cells.clear old dst n)
  let gs := granules dst n
  if isExt dst then
    { p with ext := into p.ext, extKey := gs.foldl (fun t g => Table.set g key t) p.extKey
             extPoison := p.extPoison.filter fun g => !(decide (dst / 64 ≤ g) && decide (g < (dst + n) / 64)) }
  else
    { p with near := into p.near
             nearPoison := p.nearPoison.filter fun g => !(decide (dst / 64 ≤ g) && decide (g < (dst + n) / 64)) }

/-- Checks 2 to 5 of 18 R409 for a partition record. -/
def Mod.faultReadBad (m : Mod) (r : Request) : Option (Nat × Nat) :=
  let pl := r.payload
  let p := m.part (frPart pl)
  firstBad [
    ((match r.fn with
      | .vf j => frKind pl != 1 || j.val != frPart pl
      | _ => frKind pl == 1 && !p.created), stNotPermitted, 1),
    (decide (min 32 p.recordCount ≤ frIndex pl), stBadField, 2),
    (!inTenant (frDst pl) 0x100000 || !(p.shardsAt (frDst pl) 0x100000).isEmpty || p.meetsRegion (frDst pl) 0x100000,
      stNotPermitted, 3),
    ((match p.resetting with
      | some z => decide (z.phase ≤ 3)
      | none => false), stNotPermitted, 4)]

/-- What Molique's read of a record's granules finds (11 R257, R260): errors are counted, and poisoned granules reported. -/
def Mod.recordScan (m : Mod) (k slot : Nat) (e : Ecc) : List Nat × Mod :=
  let g := recordGranule slot
  let m := match e with
    | .corrected => m.modPart k fun p => p.count offXmEcc 15 0
    | .uncorrectable => m.modPart k fun p => p.setPoison g true
    | .clean => m
  let bad := (m.part k).extPoison.filter fun i => decide (g ≤ i) && decide (i < g + 16384)
  (bad, m.forAll (fun m i => m.eccError k i (channelOf k (64 * i)) false) bad)

/-- KIND 0x01: the record is copied to `DST`, and the first bytes of its header answer (18 R409). A request whose `KIND`
is none of the three is refused here. -/
def Mod.faultReadPart (m : Mod) (r : Request) (e : Ecc) : Mod :=
  let pl := r.payload
  let k := frPart pl
  m.judge r (orBad (faultReadFields pl) (m.faultReadBad r)) fun m =>
    let slot := (m.part k).recordSlot (frIndex pl)
    let (bad, m) := m.recordScan k slot e
    if !bad.isEmpty then m.respond r stIntegrity 2
    else
      let body := (m.part k).recordWhole slot
      let m := if m.keyless k (frDst pl) then m
        else (let key := m.memKey k; m.modPart k fun p => p.putRange key (frDst pl) 0x100000 body)
      m.respond r stOk 0 (Cells.read body 0 64)

/-- FAULT_READ of a partition record (18 R409). -/
def execFaultReadPartition (f : Fn) (e : Ecc) (s : State) : Host.Outcome State Fault Refusal :=
  s.act fun m => m.mbxRow f 0x60 (fun r => frKind r.payload != 2 && frKind r.payload != 3) fun m r => m.faultReadPart r e

/-- KIND 0x02 and 0x03: the entries from `INDEX` on of a list that begins with the newest (18 R409). -/
def Mod.faultReadList (m : Mod) (r : Request) (xs : List (List Byte)) (most : Nat) : Mod :=
  let i := frIndex r.payload
  m.judge r (orBad (faultReadFields r.payload) (firstBad [
      ((match r.fn with
        | .vf _ => true
        | _ => false), stNotPermitted, 1),
      (decide (xs.length ≤ i), stBadField, 2)]))
    fun m => m.respond r stOk 0 ((xs.drop i).take most).flatten

/-- FAULT_READ of a module record (18 R408, R409). -/
def execFaultReadModule (f : Fn) (s : State) : Host.Outcome State Fault Refusal :=
  s.act fun m => m.mbxRow f 0x60 (fun r => frKind r.payload == 2) fun m r => m.faultReadList r m.modRecords 1

/-- FAULT_READ of the supersede log (02 R61, 18 R409). -/
def execFaultReadSupersedeLog (f : Fn) (s : State) : Host.Outcome State Fault Refusal :=
  s.act fun m => m.mbxRow f 0x60 (fun r => frKind r.payload == 3) fun m r => m.faultReadList r m.supersede.reverse 127

end Sys2Proof.Machine
end

