-- ==== Sys2Proof/Machine/Registers.lean ====
section
/-!
DEFINITION. The two register spaces: where an access goes, what each register reads, and what a write does to its
fields (00 R9 to R11, 20 R438 to R452).
-/

namespace Sys2Proof.Machine

/-! ### Where an access goes (20 R440 to R448) -/

/-- What stands at an offset of a register space: a register of the module or of a partition by its word, or an area with
rules of its own. -/
inductive Target where
  | nothing
  | chip (off : Nat)
  | part (k off : Nat)
  | mailbox (f : Fn) (off : Nat)
  | msix (f : Fn) (off : Nat)
  | launch (k c off : Nat)
  | events (k off : Nat)
  | ring (k c off : Nat)
  | notices (k off : Nat)
  | descs (k off : Nat)
  | aperture (k off : Nat)
  deriving DecidableEq, Repr

/-- A block offset of partition `k` (20 R442); `PAGE` places the event aperture (20 R447). -/
def Mod.blockTarget (m : Mod) (k off : Nat) : Target :=
  if 0x1000 ≤ off ∧ off < 0x1800 then .notices k (off - 0x1000)
  else if off < 0x10000 then .part k off
  else if off < 0x20000 then
    if off % 0x1000 < 0x100 then .launch k (off / 0x1000 - 0x10) (off % 0x1000) else .part k off
  else if off < 0x40000 then .ring k ((off - 0x20000) / 0x2000) (off % 0x2000)
  else if off < 0x4000C then .part k off
  else if 0x50000 ≤ off ∧ off < 0x51000 then .part k off
  else if 0x51000 ≤ off ∧ off < 0x51200 then .descs k (off - 0x51000)
  else if 0x60000 ≤ off ∧ off < 0x60084 then .part k off
  else if 0x70000 ≤ off ∧ off < 0x80000 then .events k (65536 * getF ((m.part k).reg offPfSel) 2 0 + (off - 0x70000))
  else .nothing

/-- An offset of VF BAR0 of VF `k` (20 R442): FLT_TRUSS and EVT_PF_SEL stand in the block only (20 R443, R447). -/
def Mod.vfTarget (m : Mod) (k : Fin 64) (off : Nat) : Target :=
  if off < 0x10000 then (if off / 4 * 4 = offTruss then .nothing else m.blockTarget k.val off)
  else if 0xF0000 ≤ off ∧ off < 0xF2000 then .msix (.vf k) (off - 0xF0000)
  else if 0x100000 ≤ off ∧ off < 0x110000 then m.blockTarget k.val (off - 0xF0000)
  else if 0x200000 ≤ off ∧ off < 0x204000 then .mailbox (.vf k) (off - 0x200000)
  else if 0x300000 ≤ off ∧ off < 0x380000 then .events k.val (off - 0x300000)
  else if 0x380000 ≤ off ∧ off < 0x3A0000 then m.blockTarget k.val (off - 0x360000)
  else if 0x3F0000 ≤ off ∧ off < 0x3F0008 then m.blockTarget k.val (off - 0x3B0000)
  else if 0x400000 ≤ off ∧ off < 0x402000 then m.blockTarget k.val (off - 0x3B0000)
  else if 0x800000 ≤ off ∧ off < 0xC00000 then .aperture k.val (off - 0x800000)
  else if 0xC00000 ≤ off ∧ off < 0xC00084 then m.blockTarget k.val (off - 0xBA0000)
  else .nothing

/-- An offset of chip space (20 R440, R441). -/
def Mod.chipTarget (m : Mod) (off : Nat) : Target :=
  if 0x10000 ≤ off ∧ off < 0x14000 then .mailbox .pf (off - 0x10000)
  else if 0x50000 ≤ off ∧ off < 0x52000 then .msix .pf (off - 0x50000)
  else if off < 0x60000 then .chip off
  else if 0x1000000 ≤ off ∧ off < 0x3000000 then m.blockTarget ((off - 0x1000000) / 0x80000) (off % 0x80000)
  else .nothing

/-- Where a function's access goes, none where the function does not reach the space (02 R43, R44). -/
def Mod.target (m : Mod) (f : Fn) (sp : RegSpace) (off : Nat) : Option Target :=
  match f, sp with
  | .pf, .chip => some (m.chipTarget off)
  | .vf j, .vf k => if j = k ∧ m.vfExists k.val = true then some (m.vfTarget k off) else none
  | _, _ => none

/-! ### Pairs (00 R9, 20 R438) -/

/-- Whether a partition's offset is the low half of a 64-bit pair (20 R443). -/
def partPair (off : Nat) : Bool :=
  [8, offNmErr, offXmErr, offKvBase].contains off ||
    (decide (0x440 ≤ off) && decide (off < 0x800) && [0, 8, 0x10, 0x18].contains (off % 0x40))

/-- Whether a chip-space offset is the low half of a 64-bit pair (20 R441). -/
def chipPair (off : Nat) : Bool := off == 8 || off == offTimeSet

/-! ### What registers read -/

/-- MBX_BOOT_STATE (02 R64). -/
def Mod.bootState (m : Mod) : Word :=
  setF (setF (setF 0 31 16 m.boot.failCnt) 15 8 m.boot.authLast) 3 0 m.boot.stage

/-- PART_ID (20 R444). -/
def Mod.partId (m : Mod) (k : Nat) : Word :=
  if m.exists? k then setB (setF (setF 0 31 16 (m.part k).tenant.toNat) 5 0 k) 7 true else setF 0 5 0 k

/-- FLT_RESET_STATUS (18 R418). -/
def Partition.resetStatus (p : Partition) : Word :=
  setF (setF (p.reg offResetStatus) 31 29 (match p.resetting with
    | some z => z.phase
    | none => 0)) 20 16 (min 31 p.recordCount)

/-- DMA_CH_STATUS and DMA_CH_DONE of a channel (10 R245). -/
def Partition.chStatus (p : Partition) (ch : Nat) : Word := setF (p.reg (offChStatus ch)) 4 0 (p.chan ch).queue.length
def Partition.chDone (p : Partition) (ch : Nat) : Word :=
  BitVec.ofNat 32 (if (p.chan ch).queue.isEmpty then (p.chan ch).done else (p.chan ch).written)

/-- A word of a doorbell page (20 R446); the registers of a context that does not exist read 0. -/
def Mod.doorRead (m : Mod) (k c r : Nat) : Word :=
  let p := m.part k
  let q := (r - 0x100) / 0x10
  if !(p.ctx c).created then 0
  else if r = 0x140 then p.reg (offCplPtr c)
  else if r < 0x100 ∨ 0x140 ≤ r then 0
  else if r % 0x10 = 0 then p.qdCredit c q
  else if r % 0x10 = 4 then m.qdStatus k c q
  else if r % 0x10 = 8 then p.reg (offQdCtrl c q)
  else p.reg (offQdDone c q)

/-- What a word of a partition's registers reads (20 R442 to R448, R450); an offset without a register reads 0. -/
def Mod.partRead (m : Mod) (k off : Nat) : Word :=
  let p := m.part k
  if off = 0 then m.partId k
  else if off = 4 then m.bootState
  else if off = 8 then m.devtime.truncate 32
  else if off = offTruss then p.reg offTruss
  else if !p.created then 0
  else if 0x10000 ≤ off ∧ off < 0x20000 then m.doorRead k (off / 0x1000 - 0x10) (off % 0x1000)
  else if off = offSuspend then m.suspendReg k
  else if off = offResetStatus then p.resetStatus
  else if off = offEvtStatus then setB (p.reg offEvtStatus) 0 (getB (p.reg offEvtCtrl) 0)
  else if off = offDmaEng then p.dmaEng
  else if 0x50100 ≤ off ∧ off < 0x50200 ∧ off % 0x10 = 4 then p.chStatus ((off - 0x50100) / 0x10)
  else if 0x50100 ≤ off ∧ off < 0x50200 ∧ off % 0x10 = 8 then p.chDone ((off - 0x50100) / 0x10)
  else p.reg off

/-- KS_SLOT (17 R397). -/
def Mod.ksSlot (m : Mod) (i : Nat) : Word :=
  let s := m.keySlot i
  match s.state with
  | .free => 0
  | _ =>
    setF (setF (setB (setF (setF 0 31 30 (if s.state = .loaded then 1 else 2)) 29 28 s.kind) 27
      (decide (0 < s.usersOf s.retiring))) 26 16 (min s.users.length 0x7FF)) 15 0 s.tenant.toNat

/-- What a word of the module's registers reads (20 R441). -/
def Mod.chipRead (m : Mod) (off : Nat) : Word :=
  if off = 0 then m.bootState
  else if off = 8 then m.devtime.truncate 32
  else if off = 0x40 then BitVec.ofNat 32 m.pwrStatus
  else if off = 0x44 then BitVec.ofNat 32 m.pwrLimit
  else if off = offPwrTherm then BitVec.ofNat 32 m.pwrTherm
  else if 0x20000 ≤ off ∧ off < 0x20600 ∧ off % 0x10 = 0 then m.linkStatus ((off - 0x20000) / 0x10)
  else if off = offTimeStatus then m.timeStatus
  else if 0x30000 ≤ off ∧ off < 0x30400 then m.ksSlot ((off - 0x30000) / 4)
  else if 0x40000 ≤ off ∧ off < 0x40030 then m.sisStatus ((off - 0x40000) / 4)
  else m.chipReg off

/-- A word of a mailbox's registers (02 R51). -/
def Mailbox.read (b : Mailbox) (off : Nat) : Word :=
  if off = 0x2004 then setF (setB (setB (setB 0 2 b.overrun) 1 b.done) 0 b.cur.isSome) 31 16 b.seqLo.toNat
  else if off = 0x2008 then setB 0 0 b.irq
  else if off = 0x200C then setB 0 0 b.irqEn
  else 0

/-- Vectors of a function (02 R45). -/
def vectors (f : Fn) : Nat :=
  match f with
  | .pf => 8
  | .vf _ => 19
  | .mgmt => 0

/-- Vector `v` of a function. -/
def Mod.vector (m : Mod) (f : Fn) (v : Nat) : Msix := Table.get Msix.reset (fnIdx f * 32 + v) m.pcie.msix

/-- A word of the MSI-X table or pending-bit array (20 R440, R442; assumption 16). -/
def Mod.msixRead (m : Mod) (f : Fn) (off : Nat) : Word :=
  if off < 0x1000 then
    if vectors f ≤ off / 16 then 0
    else
      let e := m.vector f (off / 16)
      if off % 16 = 0 then e.addrLo else if off % 16 = 4 then e.addrHi else if off % 16 = 8 then e.data else setB 0 0 e.masked
  else if off = 0x1000 then
    BitVec.ofNat 32 ((List.range (vectors f)).map fun v => b2n (m.vector f v).pend * 2 ^ v).sum
  else 0

/-- What the aligned word at a register reads. -/
def Mod.wordAt (m : Mod) : Target → Word
  | .chip off => m.chipRead off
  | .part k off => m.partRead k off
  | .mailbox f off => (m.mailbox (fnIdx f)).read off
  | .msix f off => m.msixRead f off
  | _ => 0

/-! ### Fields that a read clears (00 R10, type RC) -/

/-- RC fields of a partition's register. -/
def partRc (off : Nat) : Word :=
  if off = offRefuseCnt ∨ off = offStall 0 ∨ off = offStall 1 then 0xFFFFFFFF
  else if off = offQnt then 0xFFFF0000
  else if off = offGather ∨ off = offNmEcc ∨ off = offXmEcc ∨ off = offKvStatus ∨ off = offShardStatus ∨ off = offResetStatus ∨
    off = offWdogStatus ∨ off = offSpEcc then 0x0000FFFF
  else if off = offCmpStatus then 0x00FFFFFF
  else if off = offSpecStatus then 0x7FFFFFFF
  else if 0x50100 ≤ off ∧ off < 0x50200 ∧ off % 0x10 = 4 then 0xFFFF0000
  else 0

/-- RC fields of a module register. -/
def chipRc (off : Nat) : Word :=
  if off = offArbHoldCnt ∨ off = offPwrGovCnt then 0xFFFFFFFF
  else if 0x20000 ≤ off ∧ off < 0x20600 ∧ off % 0x10 = 0 then 0x0000FFFF
  else if 0x20000 ≤ off ∧ off < 0x20600 ∧ off % 0x10 = 8 then 0xFFFFFFFF
  else if 0x40000 ≤ off ∧ off < 0x40030 then 0x00FFFFFF
  else 0

/-- A word without the fields of a mask. -/
def Word.less (v mask : Word) : Word := v &&& ~~~mask

/-- The RC fields of a register cleared by a full read; not those of a partition under reset or one that does not exist
(20 R450, R451). -/
def Mod.readClear (m : Mod) : Target → Mod
  | .chip off => if chipRc off = 0 then m else m.setChip off (Word.less (m.chipReg off) (chipRc off))
  | .part k off =>
    let p := m.part k
    if partRc off = 0 ∨ p.created = false ∨ p.underReset = true then m
    else m.modPart k fun p => p.setReg off (Word.less (p.reg off) (partRc off))
  | _ => m

/-- The offset in chip space that names a register for its pair's shadow and staged half. -/
def Target.place : Target → Nat
  | .chip off => off
  | .part k off => blockBase k + off
  | _ => 0

/-- Whether a register is the low half of a pair. -/
def Target.pairLow : Target → Bool
  | .chip off => chipPair off
  | .part _ off => partPair off
  | _ => false

/-- Whether a register is the high half of a pair. -/
def Target.pairHigh : Target → Bool
  | .chip off => decide (4 ≤ off) && chipPair (off - 4)
  | .part _ off => decide (4 ≤ off) && partPair (off - 4)
  | _ => false

/-- The high half of a pair as it stands. -/
def Mod.highOf (m : Mod) : Target → Word
  | .chip off => if off = 8 then BitVec.ofNat 32 (m.devtime.toNat / 2 ^ 32) else 0
  | .part k off =>
    if off = 8 then BitVec.ofNat 32 (m.devtime.toNat / 2 ^ 32)
    else if (m.part k).created then (m.part k).reg (off + 4) else 0
  | _ => 0

/-- What an agent reads in one aligned word: the high half of a pair is the agent's shadow (00 R9). -/
def Mod.wordRead (m : Mod) (a : Agent) (t : Target) : Word :=
  if t.pairHigh then Table.get 0 (pairKey a (t.place - 4)) m.shadows else m.wordAt t

/-- What a full read leaves: RC fields cleared, the shadow of a pair latched. -/
def Mod.wordReadEffect (m : Mod) (a : Agent) (t : Target) : Mod :=
  if t.pairLow then { m with shadows := Table.set (pairKey a t.place) (m.highOf t) m.shadows } else m.readClear t

/-- A control core's read of a register (00 R9): no row of the table is such a read, so the cores' shadows stand as reset
leaves them (assumption 48). -/
def Mod.coreRead (m : Mod) (i : Fin 5) (t : Target) : Word × Mod := (m.wordRead (.core i) t, m.wordReadEffect (.core i) t)

/-! ### What a write does -/

/-- RW fields of a partition's register that a write simply stores. -/
def partRw (off : Nat) : Word :=
  if off = offBar2Sel then 0x1F
  else if off = offShardScrub then 0xFFF
  else if off = offWdogCfg then 0xFFFFFF00
  else if off = offPfSel then 7
  else if 0x60000 ≤ off ∧ off < 0x60080 ∧ off % 8 = 4 then 0xFFFF3FFF
  else 0

/-- W1C fields of a partition's register that a write of 1 simply clears. -/
def partW1c (off : Nat) : Word :=
  if off = offQnt then 3
  else if off = offNmEcc ∨ off = offXmEcc ∨ off = offCmpStatus ∨ off = offShardStatus ∨ off = offDmaErr then 0xC0000000
  else if off = offKvStatus then 0xF0000000
  else if off = offSpecStatus ∨ off = offKsStatus ∨ off = offSpEcc then 0x80000000
  else if off = offWdogStatus then 0xE0000000
  else if off = offSuspend then 0xE0
  else if off = offEvtStatus then 0x1E
  else if 0x50100 ≤ off ∧ off < 0x50200 ∧ off % 0x10 = 4 then 0xE0
  else 0

/-- A register with its RW fields stored and its W1C fields cleared. -/
def Word.written (old v rw w1c : Word) : Word := Word.less (Word.less old rw ||| (v &&& rw)) (v &&& w1c)

/-- The commit of a 64-bit pair of a partition: the high half with the staged low half (00 R9). While a region or the KV
tables are enabled their pairs are not written (11 R263, 12 R298). -/
def Mod.pairCommit (m : Mod) (f : Fn) (k lo : Nat) (hi : Word) : Mod :=
  let low := Table.get (0 : Word) (pairKey (.fn f) (blockBase k + lo)) m.staged
  let v := low.toNat + hi.toNat * 2 ^ 32
  m.modPart k fun p =>
    if lo = offKvBase then (if getB (p.reg offKvCtrl) 31 then p else p.setPair lo (v % 2 ^ 40 / 64 * 64))
    else if 0x440 ≤ lo then (if p.cmpEn ((lo - 0x400) / 0x40) then p else p.setPair lo (v % 2 ^ 40))
    else p

/-- A write of PART_KV_CTRL (12 R298). -/
def Partition.kvCtrlWrite (p : Partition) (v : Word) : Partition :=
  let old := p.reg offKvCtrl
  p.setReg offKvCtrl (setB (if getB old 31 then old else setF old 16 0 (getF v 16 0)) 31 (getB v 31))

/-- A write to a doorbell-page register (04 R103). -/
def Mod.doorWrite (m : Mod) (k c r : Nat) (v : Word) : Mod :=
  if !((m.part k).ctx c).created then m
  else if r = 0x140 then m.cplRdWrite k c v
  else if 0x100 ≤ r ∧ r < 0x140 ∧ r % 0x10 = 8 then m.modPart k fun p => p.setFld (offQdCtrl c ((r - 0x100) / 0x10)) 0 0 (getF v 0 0)
  else m

/-- A write to a channel's registers (10 R239, R244, R245). -/
def Mod.chWrite (m : Mod) (k ch r : Nat) (v : Word) : Mod :=
  if r ≠ 0 then m
  else if getB v 0 then (if getB ((m.part k).reg (offChCtrl ch)) 0 then m else m.chDisable k ch)
  else m.modPart k fun p => p.setFld (offChCtrl ch) 0 0 0

/-- A write of one word of a partition that exists and is not under reset, field by field (00 R10). -/
def Mod.partWrite (m : Mod) (f : Fn) (k off : Nat) (v : Word) : Mod :=
  if partPair off then { m with staged := Table.set (pairKey (.fn f) (blockBase k + off)) v m.staged }
  else if 4 ≤ off ∧ partPair (off - 4) = true then m.pairCommit f k (off - 4) v
  else if 0x10000 ≤ off ∧ off < 0x20000 then m.doorWrite k (off / 0x1000 - 0x10) (off % 0x1000) v
  else if off = offNoticePtr then m.noticeRdWrite k v
  else if off = offKvCtrl then m.modPart k fun p => p.kvCtrlWrite v
  else if 0x440 ≤ off ∧ off < 0x800 ∧ off % 0x40 = 0x20 then m.cmpCtrlWrite k ((off - 0x400) / 0x40) v .clean
  else if off = offEvtCtrl then m.modPart k fun p => if getB v 0 then p.flag offEvtCtrl 0 else p
  else if off = offTruss then m.modPart k fun p => p.readmit (getF v 5 4)
  else if 0x60000 ≤ off ∧ off < 0x60080 ∧ off % 8 = 0 then m.winCtrlWrite k ((off - 0x60000) / 8) v
  else if off = offHostSel then m.modPart k fun p => p.hostSelWrite v
  else if 0x50100 ≤ off ∧ off < 0x50200 ∧ off % 0x10 ≠ 4 then m.chWrite k ((off - 0x50100) / 0x10) (off % 0x10) v
  else if partRw off = 0 ∧ partW1c off = 0 then m
  else
    let m := if off = offSuspend ∧ getB v 3 = true then m.memClear k else m
    m.modPart k fun p => p.setReg off (Word.written (p.reg off) v (partRw off) (partW1c off))

/-- A write of one word of a partition (20 R450, R451). -/
def Mod.partWordWrite (m : Mod) (f : Fn) (k off : Nat) (v : Word) : Mod :=
  let p := m.part k
  if !p.created then m
  else if p.underReset then
    (if off = offWdogCfg then m.modPart k fun p => p.setReg off (Word.written (p.reg off) v (partRw off) 0) else m)
  else m.partWrite f k off v

/-- RW fields of a module register that a write simply stores. -/
def chipRw (off : Nat) : Word :=
  if off = offCoord then 0x80FFFFFF
  else if off = offTimeCtrl then 0xC07F007F
  else if 0x20000 ≤ off ∧ off < 0x20600 ∧ off % 0x10 = 4 then 1
  else 0

/-- W1C fields of a module register that a write of 1 simply clears. -/
def chipW1c (off : Nat) : Word :=
  if off = offArbHold then 0x1FFFFF
  else if off = offLateCpl then 0xC0000000
  else if off = offPwrTherm then 0x30000000
  else if off = offTimeStatus then 0x18000000
  else 0

/-- A write of one word of the module's registers (20 R441): while a link is granted the coordinates stand (15 R355). -/
def Mod.chipWrite (m : Mod) (f : Fn) (off : Nat) (v : Word) : Mod :=
  if off = offTimeSet then { m with staged := Table.set (pairKey (.fn f) off) v m.staged }
  else if off = offTimeSet + 4 then m.timeSetCommit f v
  else if off = offCoord ∧ (List.range 96).any (fun n => m.linkGranted n) = true then m
  else if chipRw off = 0 ∧ chipW1c off = 0 then m
  else
    let m := if 0x20000 ≤ off ∧ off < 0x20600 ∧ getB v 1 = true then m.heldRelease ((off - 0x20000) / 0x10) else m
    let m := m.setChip off (Word.written (m.chipReg off) v (chipRw off) (chipW1c off))
    if off = offCoord then m.placeAll else m

/-- A write of one word of a mailbox's registers (02 R51, R52). -/
def Mod.mbxWrite (m : Mod) (f : Fn) (off : Nat) (v : Word) : Mod :=
  let i := fnIdx f
  let b := m.mailbox i
  let put (b : Mailbox) : Mod := { m with mbx := Table.set i b m.mbx }
  if off = 0x2000 then (if getB v 0 then m.go f else m)
  else if off = 0x2004 then put { b with overrun := b.overrun && !getB v 2 }
  else if off = 0x2008 then put { b with irq := b.irq && !getB v 0 }
  else if off = 0x200C then put { b with irqEn := getB v 0 }
  else m

/-- A write of one word of the MSI-X table (assumption 16): a pending vector whose mask is taken away is signalled. -/
def Mod.msixWrite (m : Mod) (f : Fn) (off : Nat) (v : Word) : Mod :=
  if 0x1000 ≤ off ∨ vectors f ≤ off / 16 then m
  else
    let n := off / 16
    let e := m.vector f n
    let put (m : Mod) (e : Msix) : Mod := { m with pcie := { m.pcie with msix := Table.set (fnIdx f * 32 + n) e m.pcie.msix } }
    if off % 16 = 0 then put m { e with addrLo := v &&& 0xFFFFFFFC }
    else if off % 16 = 4 then put m { e with addrHi := v }
    else if off % 16 = 8 then put m { e with data := v }
    else if getB v 0 then put m { e with masked := true }
    else if e.pend then (put m { e with masked := false, pend := false }).send (.msix f n)
    else put m { e with masked := false }

/-- A write of one aligned word (20 R438). -/
def Mod.wordWrite (m : Mod) (f : Fn) (t : Target) (v : Word) : Mod :=
  match t with
  | .chip off => m.chipWrite f off v
  | .part k off => m.partWordWrite f k off v
  | .mailbox g off => m.mbxWrite g off v
  | .msix g off => m.msixWrite g off v
  | _ => m

/-! ### Areas: buffers, windows and rings (02 R51, 04 R105, R112, R116, R117, 03 R95, 10 R230, R236) -/

/-- Whether a target is an area: its accesses go byte by byte. -/
def Target.area : Target → Bool
  | .launch _ _ _ => true
  | .events _ _ => true
  | .ring _ _ _ => true
  | .notices _ _ => true
  | .descs _ _ => true
  | .aperture _ _ => true
  | .mailbox _ off => decide (off < 0x2000)
  | _ => false

/-- Byte `i` behind the start of an access to an area; launch and descriptor windows read 0. -/
def Mod.areaByte (m : Mod) (t : Target) (i : Nat) : Byte :=
  match t with
  | .events k off =>
    let a := off + i
    if (m.part k).created ∧ a < 524288 then BitVec.ofNat 8 ((m.part k).event (a / 8) / 256 ^ (a % 8)) else 0
  | .ring k c off => (Table.get [] ((off + i) / 32) ((m.part k).ctx c).ring).getD ((off + i) % 32) 0
  | .notices k off => (Table.get [] ((off + i) / 32) (m.part k).noticeRing).getD ((off + i) % 32) 0
  | .mailbox f off =>
    let b := m.mailbox (fnIdx f)
    if off + i < 0x1000 then Sparse.get (off + i) b.reqBuf
    else if off + i < 0x2000 then b.respBuf.getD (off + i - 0x1000) 0
    else 0
  | _ => 0

/-- A read of an area. -/
def Mod.areaRead (m : Mod) (t : Target) (n : Nat) : Mod :=
  match t with
  | .aperture k off =>
    let p := m.part k
    if m.bar2Open k then m.apRequest k (.read p.selStore p.selTruss p.selRow off n .clean)
    else { m with read := some { bytes := zeros n, ep := false } }
  | _ => { m with read := some { bytes := (List.range n).map fun i => m.areaByte t i, ep := false } }

/-- A write of an area; rings and response buffers ignore writes (00 R11), and a partition under reset or one that does not
exist takes none (20 R450, R451). -/
def Mod.areaWrite (m : Mod) (t : Target) (data : List Byte) : Mod :=
  let open' (k : Nat) : Bool := (m.part k).created && !(m.part k).underReset
  match t with
  | .launch k c off => if open' k && ((m.part k).ctx c).created then m.launchWrite k c off data else m
  | .events k off => if open' k then m.eventWrite k off data else m
  | .descs k off => if open' k then m.modPart k fun p => p.descWrite off data else m
  | .aperture k off => if m.bar2Open k then m.apWrite k off data .clean else m
  | .mailbox f off =>
    let b := m.mailbox (fnIdx f)
    { m with mbx := Table.set (fnIdx f) { b with reqBuf := Cells.write b.reqBuf off (data.take (0x1000 - off)) } m.mbx }
  | _ => m

/-! ### The access (20 R438) -/

/-- A read of a register: aligned accesses of 4 and 8 bytes have the effects of a read, word by word; every other size
returns its bytes and changes nothing. -/
def Mod.regRead (m : Mod) (f : Fn) (sp : RegSpace) (off n : Nat) : Mod :=
  let at' (m : Mod) (a : Nat) : Target := (m.target f sp a).getD .nothing
  let full := (n = 4 ∨ n = 8) ∧ off % n = 0
  if full then
    let r := (List.range (n / 4)).foldl (fun (acc : List Byte × Mod) i =>
      let t := at' acc.2 (off + 4 * i)
      (acc.1 ++ leBytes 4 (acc.2.wordRead (.fn f) t).toNat, acc.2.wordReadEffect (.fn f) t)) ([], m)
    { r.2 with read := some { bytes := r.1, ep := false } }
  else
    let bs := (List.range n).map fun i =>
      BitVec.ofNat 8 ((m.wordRead (.fn f) (at' m ((off + i) / 4 * 4))).toNat / 256 ^ ((off + i) % 4))
    { m with read := some { bytes := bs, ep := false } }

/-- A write of a register: 4 or 8 bytes, aligned, the lower word first; any other is ignored. -/
def Mod.regWrite (m : Mod) (f : Fn) (sp : RegSpace) (off : Nat) (data : List Byte) : Mod :=
  if (data.length = 4 ∨ data.length = 8) ∧ off % data.length = 0 then
    m.forAll (fun m i =>
      m.wordWrite f ((m.target f sp (off + 4 * i)).getD .nothing) (BitVec.ofNat 32 (fld data (4 * i) 4)))
      (List.range (data.length / 4))
  else m

/-- A host access to a register space (20 R438). -/
def Mod.regAccess (m : Mod) (f : Fn) (sp : RegSpace) (off : Nat) (op : RegOp) : Mod :=
  match m.target f sp off with
  | none => m
  | some t =>
    match op with
    | .write data => if t.area then m.areaWrite t data else m.regWrite f sp off data
    | .read n => if t.area then m.areaRead t n else m.regRead f sp off n

/-- REGISTER_WRITE (00 R10, 20 R438): an access of either kind to any register, with the effect of the row of its own where
it has one. -/
def execRegisterWrite (f : Fn) (sp : RegSpace) (off : Nat) (op : RegOp) (s : State) : Host.Outcome State Fault Refusal :=
  match op with
  | .write data => s.actWrite data fun m => m.host fun m => m.regAccess f sp off op
  | .read _ => s.act fun m => m.host fun m => m.regAccess f sp off op

end Sys2Proof.Machine
end

