-- ==== Sys2Proof/Machine/Dispatch.lean ====
section
/-! DEFINITION. What each command does: one arm a constructor, each one call of its meaning. -/

namespace Sys2Proof.Machine

def exec (i : Instr) (s : State) : Host.Outcome State Fault Refusal :=
  match i with
  | .powerEnable rise mv lowNs => Sys2Proof.Machine.execPowerEnable rise mv lowNs s
  | .powerDisable railFault => Sys2Proof.Machine.execPowerDisable railFault s
  | .inputOvervoltage mv => Sys2Proof.Machine.execInputOvervoltage mv s
  | .inputUndervoltageTimeout mv => Sys2Proof.Machine.execInputUndervoltageTimeout mv s
  | .inputOvercurrentTimeout amps => Sys2Proof.Machine.execInputOvercurrentTimeout amps s
  | .perst => Sys2Proof.Machine.execPerst s
  | .bootStageComplete failed => Sys2Proof.Machine.execBootStageComplete failed s
  | .vfFlr k => Sys2Proof.Machine.execVfFlr k s
  | .pfFlr => Sys2Proof.Machine.execPfFlr s
  | .vfEnableClear => Sys2Proof.Machine.execVfEnableClear s
  | .vfEnableSet => Sys2Proof.Machine.execVfEnableSet s
  | .numvfsWrite n => Sys2Proof.Machine.execNumvfsWrite n s
  | .pcieCompletionRx tag status data => Sys2Proof.Machine.execPcieCompletionRx tag status data s
  | .completionTimeout tag => Sys2Proof.Machine.execCompletionTimeout tag s
  | .arbHoldCutoff a => Sys2Proof.Machine.execArbHoldCutoff a s
  | .mbxGo fn => Sys2Proof.Machine.execMbxGo fn s
  | .mctpMessageRx msg => Sys2Proof.Machine.execMctpMessageRx msg s
  | .messageTimeTakeup => Sys2Proof.Machine.execMessageTimeTakeup s
  | .identGet fn => Sys2Proof.Machine.execIdentGet fn s
  | .healthGet fn => Sys2Proof.Machine.execHealthGet fn s
  | .fwLoad => Sys2Proof.Machine.execFwLoad s
  | .fwLoadChunk => Sys2Proof.Machine.execFwLoadChunk s
  | .fwLoadChunkTimeout => Sys2Proof.Machine.execFwLoadChunkTimeout s
  | .fwAuthDone => Sys2Proof.Machine.execFwAuthDone s
  | .partCreate fn => Sys2Proof.Machine.execPartCreate fn s
  | .partDelete fn => Sys2Proof.Machine.execPartDelete fn s
  | .partReset fn => Sys2Proof.Machine.execPartReset fn s
  | .ctxCreate fn => Sys2Proof.Machine.execCtxCreate fn s
  | .frameLoad fn e => Sys2Proof.Machine.execFrameLoad fn e s
  | .resvOpen fn => Sys2Proof.Machine.execResvOpen fn s
  | .resvClose fn => Sys2Proof.Machine.execResvClose fn s
  | .keyLoadPlain fn => Sys2Proof.Machine.execKeyLoadPlain fn s
  | .keyLoadWrapped fn => Sys2Proof.Machine.execKeyLoadWrapped fn s
  | .keyLoadGenerate fn => Sys2Proof.Machine.execKeyLoadGenerate fn s
  | .keyBindMem fn => Sys2Proof.Machine.execKeyBindMem fn s
  | .keyUnbindMem fn => Sys2Proof.Machine.execKeyUnbindMem fn s
  | .pkeOperationDone => Sys2Proof.Machine.execPkeOperationDone s
  | .keyErase fn => Sys2Proof.Machine.execKeyErase fn s
  | .keyEraseNow fn => Sys2Proof.Machine.execKeyEraseNow fn s
  | .keyUserEnd slot => Sys2Proof.Machine.execKeyUserEnd slot s
  | .shardFetch fn => Sys2Proof.Machine.execShardFetch fn s
  | .shardCopy fn => Sys2Proof.Machine.execShardCopy fn s
  | .shardDetach fn => Sys2Proof.Machine.execShardDetach fn s
  | .shardAttachDone k => Sys2Proof.Machine.execShardAttachDone k s
  | .linkGrant fn => Sys2Proof.Machine.execLinkGrant fn s
  | .linkGrantComplete job => Sys2Proof.Machine.execLinkGrantComplete job s
  | .linkRelease fn => Sys2Proof.Machine.execLinkRelease fn s
  | .sisterBind fn => Sys2Proof.Machine.execSisterBind fn s
  | .sisterUnbind fn => Sys2Proof.Machine.execSisterUnbind fn s
  | .sisterTakeover fn => Sys2Proof.Machine.execSisterTakeover fn s
  | .sisBindTimeout b => Sys2Proof.Machine.execSisBindTimeout b s
  | .faultReadPartition fn e => Sys2Proof.Machine.execFaultReadPartition fn e s
  | .faultReadModule fn => Sys2Proof.Machine.execFaultReadModule fn s
  | .faultReadSupersedeLog fn => Sys2Proof.Machine.execFaultReadSupersedeLog fn s
  | .attestGet fn => Sys2Proof.Machine.execAttestGet fn s
  | .pwrSet fn => Sys2Proof.Machine.execPwrSet fn s
  | .spdmGetVersion t msg => Sys2Proof.Machine.execSpdmGetVersion t msg s
  | .spdmGetCapabilities t msg => Sys2Proof.Machine.execSpdmGetCapabilities t msg s
  | .spdmNegotiateAlgorithms t msg => Sys2Proof.Machine.execSpdmNegotiateAlgorithms t msg s
  | .spdmGetDigests t msg => Sys2Proof.Machine.execSpdmGetDigests t msg s
  | .spdmGetCertificate t msg => Sys2Proof.Machine.execSpdmGetCertificate t msg s
  | .spdmChallenge t msg => Sys2Proof.Machine.execSpdmChallenge t msg s
  | .spdmGetMeasurements t msg => Sys2Proof.Machine.execSpdmGetMeasurements t msg s
  | .spdmKeyExchange t msg => Sys2Proof.Machine.execSpdmKeyExchange t msg s
  | .spdmFinish t msg => Sys2Proof.Machine.execSpdmFinish t msg s
  | .spdmEndSession t msg => Sys2Proof.Machine.execSpdmEndSession t msg s
  | .launchRecord fn k c off data => Sys2Proof.Machine.execLaunchRecord fn k c off data s
  | .raiseStart k e => Sys2Proof.Machine.execRaiseStart k e s
  | .gatherWindowEnd k e => Sys2Proof.Machine.execGatherWindowEnd k e s
  | .nodeStart k c node member => Sys2Proof.Machine.execNodeStart k c node member s
  | .arrayPass k c work => Sys2Proof.Machine.execArrayPass k c work s
  | .vectorAdd k c node work => Sys2Proof.Machine.execVectorAdd k c node work s
  | .vectorMul k c node work => Sys2Proof.Machine.execVectorMul k c node work s
  | .vectorFma k c node work => Sys2Proof.Machine.execVectorFma k c node work s
  | .vectorMax k c node work => Sys2Proof.Machine.execVectorMax k c node work s
  | .vectorMin k c node work => Sys2Proof.Machine.execVectorMin k c node work s
  | .convert k c node work => Sys2Proof.Machine.execConvert k c node work s
  | .rescale k c node work => Sys2Proof.Machine.execRescale k c node work s
  | .vectorFunc k c node work => Sys2Proof.Machine.execVectorFunc k c node work s
  | .gate k c node work => Sys2Proof.Machine.execGate k c node work s
  | .softmax k c node work => Sys2Proof.Machine.execSoftmax k c node work s
  | .rmsnorm k c node work => Sys2Proof.Machine.execRmsnorm k c node work s
  | .layernorm k c node work => Sys2Proof.Machine.execLayernorm k c node work s
  | .argmax k c node work => Sys2Proof.Machine.execArgmax k c node work s
  | .dmaTransfer k c node member => Sys2Proof.Machine.execDmaTransfer k c node member s
  | .bayDescPushRetry k ch => Sys2Proof.Machine.execBayDescPushRetry k ch s
  | .dmaUnitWritten k ch e => Sys2Proof.Machine.execDmaUnitWritten k ch e s
  | .dmaDescHostPush fn k off data => Sys2Proof.Machine.execDmaDescHostPush fn k off data s
  | .dmaBusError k ch cause => Sys2Proof.Machine.execDmaBusError k ch cause s
  | .dmaEngineRestart k => Sys2Proof.Machine.execDmaEngineRestart k s
  | .dmaChDisable fn k ch => Sys2Proof.Machine.execDmaChDisable fn k ch s
  | .dmaChEnable fn k ch => Sys2Proof.Machine.execDmaChEnable fn k ch s
  | .dmaWinOpen fn k w value => Sys2Proof.Machine.execDmaWinOpen fn k w value s
  | .dmaWinClose fn k w value => Sys2Proof.Machine.execDmaWinClose fn k w value s
  | .dmaWinCloseDone k w => Sys2Proof.Machine.execDmaWinCloseDone k w s
  | .windowUnitRx j ch => Sys2Proof.Machine.execWindowUnitRx j ch s
  | .hostApertureWrite k off data e => Sys2Proof.Machine.execHostApertureWrite k off data e s
  | .hostApertureRead k off len e => Sys2Proof.Machine.execHostApertureRead k off len e s
  | .dmaHostSelWrite fn k value => Sys2Proof.Machine.execDmaHostSelWrite fn k value s
  | .bar2Read k off len e => Sys2Proof.Machine.execBar2Read k off len e s
  | .bar2Write k off data e => Sys2Proof.Machine.execBar2Write k off data e s
  | .patrolScrub k ext g e => Sys2Proof.Machine.execPatrolScrub k ext g e s
  | .memRefresh k ext chan => Sys2Proof.Machine.execMemRefresh k ext chan s
  | .cmpRegionEnable fn k r value e => Sys2Proof.Machine.execCmpRegionEnable fn k r value e s
  | .cmpRegionDisable fn k r value => Sys2Proof.Machine.execCmpRegionDisable fn k r value s
  | .kvRead k c node member e => Sys2Proof.Machine.execKvRead k c node member e s
  | .kvAppend k c node member e => Sys2Proof.Machine.execKvAppend k c node member e s
  | .pageWalkPush k ch => Sys2Proof.Machine.execPageWalkPush k ch s
  | .specMask k c node member => Sys2Proof.Machine.execSpecMask k c node member s
  | .specAccept k c node member => Sys2Proof.Machine.execSpecAccept k c node member s
  | .specCommit k c node member e => Sys2Proof.Machine.execSpecCommit k c node member e s
  | .specRollback k c node member => Sys2Proof.Machine.execSpecRollback k c node member s
  | .specReconcile k c node member e => Sys2Proof.Machine.execSpecReconcile k c node member e s
  | .linkSend k c node work => Sys2Proof.Machine.execLinkSend k c node work s
  | .linkRecv k c node member => Sys2Proof.Machine.execLinkRecv k c node member s
  | .linkExchange k c node work => Sys2Proof.Machine.execLinkExchange k c node work s
  | .nodeComplete k c node member => Sys2Proof.Machine.execNodeComplete k c node member s
  | .raiseComplete k c => Sys2Proof.Machine.execRaiseComplete k c s
  | .cplRecordRetry k c => Sys2Proof.Machine.execCplRecordRetry k c s
  | .cplRdWrite fn k c value => Sys2Proof.Machine.execCplRdWrite fn k c value s
  | .noticeRdWrite fn k value => Sys2Proof.Machine.execNoticeRdWrite fn k value s
  | .noticePushRetry k => Sys2Proof.Machine.execNoticePushRetry k s
  | .eventHostWrite fn k off data => Sys2Proof.Machine.execEventHostWrite fn k off data s
  | .evtCtrlArm fn k => Sys2Proof.Machine.execEvtCtrlArm fn k s
  | .admSuspendMemClear fn k => Sys2Proof.Machine.execAdmSuspendMemClear fn k s
  | .peerLateTimeout k c node member => Sys2Proof.Machine.execPeerLateTimeout k c node member s
  | .waitWatchdog k c q => Sys2Proof.Machine.execWaitWatchdog k c q s
  | .linkWatchdog k c node member => Sys2Proof.Machine.execLinkWatchdog k c node member s
  | .nodeProgressWatchdog k c node member => Sys2Proof.Machine.execNodeProgressWatchdog k c node member s
  | .bayAgentHeartbeat b => Sys2Proof.Machine.execBayAgentHeartbeat b s
  | .bayControllerWatchdog b => Sys2Proof.Machine.execBayControllerWatchdog b s
  | .chipControllerWatchdog => Sys2Proof.Machine.execChipControllerWatchdog s
  | .trussInternalError k t => Sys2Proof.Machine.execTrussInternalError k t s
  | .resetCapture k e => Sys2Proof.Machine.execResetCapture k e s
  | .resetEndRaises k => Sys2Proof.Machine.execResetEndRaises k s
  | .resetRetrain k => Sys2Proof.Machine.execResetRetrain k s
  | .resetScrub k => Sys2Proof.Machine.execResetScrub k s
  | .resetSelfTest k pass0 pass1 => Sys2Proof.Machine.execResetSelfTest k pass0 pass1 s
  | .resetRestore k => Sys2Proof.Machine.execResetRestore k s
  | .trussReadmit fn k mask => Sys2Proof.Machine.execTrussReadmit fn k mask s
  | .readmitTestDone k t pass => Sys2Proof.Machine.execReadmitTestDone k t pass s
  | .trussRejoin k => Sys2Proof.Machine.execTrussRejoin k s
  | .shardScrubPassStart k => Sys2Proof.Machine.execShardScrubPassStart k s
  | .shardScrubHashDone k e => Sys2Proof.Machine.execShardScrubHashDone k e s
  | .scrubLate k => Sys2Proof.Machine.execScrubLate k s
  | .linkTrain n p => Sys2Proof.Machine.execLinkTrain n p s
  | .payloadFrameRx n lane f => Sys2Proof.Machine.execPayloadFrameRx n lane f s
  | .laneEntryRx n live standby widen ack quiet => Sys2Proof.Machine.execLaneEntryRx n live standby widen ack quiet s
  | .nakRx n seqs => Sys2Proof.Machine.execNakRx n seqs s
  | .ackRx n seq => Sys2Proof.Machine.execAckRx n seq s
  | .msgRx n path tag len seq => Sys2Proof.Machine.execMsgRx n path tag len seq s
  | .creditRx n path units => Sys2Proof.Machine.execCreditRx n path units s
  | .gtagRx n path segment tag => Sys2Proof.Machine.execGtagRx n path segment tag s
  | .laneLoss n lane => Sys2Proof.Machine.execLaneLoss n lane s
  | .linkDownTimeout n => Sys2Proof.Machine.execLinkDownTimeout n s
  | .laneStandbyReady n lane => Sys2Proof.Machine.execLaneStandbyReady n lane s
  | .linkWiden n => Sys2Proof.Machine.execLinkWiden n s
  | .linkWidenDone n ok => Sys2Proof.Machine.execLinkWidenDone n ok s
  | .laneHeldRelease fn n => Sys2Proof.Machine.execLaneHeldRelease fn n s
  | .timeExchange t1 t2 t3 t4 skew => Sys2Proof.Machine.execTimeExchange t1 t2 t3 t4 skew s
  | .lnkTimeSetCommit fn hi => Sys2Proof.Machine.execLnkTimeSetCommit fn hi s
  | .timeParentLoss => Sys2Proof.Machine.execTimeParentLoss s
  | .sisHeartbeatTx b n => Sys2Proof.Machine.execSisHeartbeatTx b n s
  | .sisHeartbeatRx b epoch => Sys2Proof.Machine.execSisHeartbeatRx b epoch s
  | .sisHeartbeatLoss b => Sys2Proof.Machine.execSisHeartbeatLoss b s
  | .sisCommitApply b msg e => Sys2Proof.Machine.execSisCommitApply b msg e s
  | .sisAckRx b k => Sys2Proof.Machine.execSisAckRx b k s
  | .sisAckTimeout b k => Sys2Proof.Machine.execSisAckTimeout b k s
  | .sisReleaseRx b epoch => Sys2Proof.Machine.execSisReleaseRx b epoch s
  | .sisBreakRx b epoch cause => Sys2Proof.Machine.execSisBreakRx b epoch cause s
  | .sisSettle b => Sys2Proof.Machine.execSisSettle b s
  | .governorSample r => Sys2Proof.Machine.execGovernorSample r s
  | .thermalThrottle b temp => Sys2Proof.Machine.execThermalThrottle b temp s
  | .throttleClear b temp => Sys2Proof.Machine.execThrottleClear b temp s
  | .thermalTrip tdie inlet => Sys2Proof.Machine.execThermalTrip tdie inlet s
  | .lowFlowTimeout => Sys2Proof.Machine.execLowFlowTimeout s
  | .tripStandingTimeout => Sys2Proof.Machine.execTripStandingTimeout s
  | .thermalShutdown tdie => Sys2Proof.Machine.execThermalShutdown tdie s
  | .tripClear tdie inlet flow => Sys2Proof.Machine.execTripClear tdie inlet flow s
  | .registerWrite fn space off op => Sys2Proof.Machine.execRegisterWrite fn space off op s
  | .bootFatalFault => Sys2Proof.Machine.execBootFatalFault s
  | .inletAboveSelfTestLimit inlet => Sys2Proof.Machine.execInletAboveSelfTestLimit inlet s
  | .selfTestLimitsRestored tdie inlet => Sys2Proof.Machine.execSelfTestLimitsRestored tdie inlet s
  | .pcieTagQuarantineEnd tag => Sys2Proof.Machine.execPcieTagQuarantineEnd tag s
  | .keyLoadWrappedResponse => Sys2Proof.Machine.execKeyLoadWrappedResponse s
  | .ideKeyManagementMessage st act => Sys2Proof.Machine.execIdeKeyManagementMessage st act s

end Sys2Proof.Machine
end

