-- ==== Sys2Proof/Laws/Tables.lean ====
section
/-!
SUPPORT. What a table, a sparse memory and a byte memory read after an update, and that every memory operation keeps the
canonical form.
-/

namespace Sys2Proof.Machine

/-! ### Tables -/

variable {α : Type}

@[simp] theorem Table.find_nil (n : Nat) : Table.find n ([] : Table α) = none := rfl

@[simp] theorem Table.find_set_same (n : Nat) (v : α) (t : Table α) : Table.find n (Table.set n v t) = some v := by
  induction t with
  | nil => simp [Table.set, Table.find]
  | cons e t ih =>
    obtain ⟨m, w⟩ := e
    simp only [Table.set]
    split
    · simp [Table.find]
    · split
      · simp [Table.find]
      · rename_i h1 h2
        simp [Table.find, h2, ih]

theorem Table.find_set_other {n k : Nat} (h : k ≠ n) (v : α) (t : Table α) :
    Table.find k (Table.set n v t) = Table.find k t := by
  induction t with
  | nil => simp [Table.set, Table.find, Ne.symm h]
  | cons e t ih =>
    obtain ⟨m, w⟩ := e
    simp only [Table.set]
    split
    · simp [Table.find, Ne.symm h]
    · split
      · rename_i h1 h2
        subst h2
        simp [Table.find, Ne.symm h]
      · simp [Table.find, ih]

theorem Table.find_set (n k : Nat) (v : α) (t : Table α) :
    Table.find k (Table.set n v t) = if k = n then some v else Table.find k t := by
  split
  · subst_vars; simp
  · exact Table.find_set_other ‹_› v t

@[simp] theorem Table.get_set_same (d : α) (n : Nat) (v : α) (t : Table α) : Table.get d n (Table.set n v t) = v := by
  simp [Table.get]

theorem Table.get_set_other (d : α) {n k : Nat} (h : k ≠ n) (v : α) (t : Table α) :
    Table.get d k (Table.set n v t) = Table.get d k t := by
  simp [Table.get, Table.find_set_other h]

@[simp] theorem Table.get_modify_same (d : α) (n : Nat) (f : α → α) (t : Table α) :
    Table.get d n (Table.modify d n f t) = f (Table.get d n t) := by
  simp [Table.modify]

theorem Table.get_modify_other (d : α) {n k : Nat} (h : k ≠ n) (f : α → α) (t : Table α) :
    Table.get d k (Table.modify d n f t) = Table.get d k t := by
  simp [Table.modify, Table.get_set_other d h]

@[simp] theorem Table.find_erase_same (n : Nat) (t : Table α) : Table.find n (Table.erase n t) = none := by
  induction t with
  | nil => rfl
  | cons e t ih =>
    obtain ⟨m, w⟩ := e
    simp only [Table.erase]
    split
    · exact ih
    · rename_i h
      simp [Table.find, h, ih]

theorem Table.find_erase_other {n k : Nat} (h : k ≠ n) (t : Table α) :
    Table.find k (Table.erase n t) = Table.find k t := by
  induction t with
  | nil => rfl
  | cons e t ih =>
    obtain ⟨m, w⟩ := e
    simp only [Table.erase]
    split
    · rename_i hm
      subst hm
      simp [Table.find, Ne.symm h, ih]
    · simp [Table.find, ih]

/-! ### Sparse memories -/

variable {w : Nat}

theorem Sparse.wf_tail {e : Nat × BitVec w} {t : Sparse w} (h : Sparse.wf (e :: t) = true) : Sparse.wf t = true := by
  cases t with
  | nil => rfl
  | cons f t => simp only [Sparse.wf, Bool.and_eq_true] at h; exact h.2

/-- An address below the first of a canonical memory reads 0. -/
theorem Sparse.get_below {a : Nat} : ∀ {m : Sparse w}, Sparse.wf m = true → (∀ e ∈ m.head?, a < e.1) → Sparse.get a m = 0
  | [], _, _ => rfl
  | [(b, v)], _, hb => by
    have : b ≠ a := by have := hb (b, v) rfl; simp at this; omega
    simp [Sparse.get, this]
  | (b, v) :: (c, u) :: t, h, hb => by
    have hlt : a < b := by simpa using hb (b, v) rfl
    have hbc : b < c := by simp only [Sparse.wf, Bool.and_eq_true, decide_eq_true_eq] at h; exact h.1.2
    have hr : Sparse.get a ((c, u) :: t) = 0 :=
      Sparse.get_below (Sparse.wf_tail h) (by intro e he; simp at he; subst he; simp; omega)
    simp only [Sparse.get] at hr ⊢
    rw [if_neg (by omega)]
    exact hr

theorem Sparse.get_filter (a b : Nat) : ∀ m : Sparse w,
    Sparse.get b (m.filter fun e => e.1 != a) = if b = a then 0 else Sparse.get b m
  | [] => by simp [Sparse.get]
  | (c, u) :: t => by
    have ih := Sparse.get_filter a b t
    by_cases hc : c = a
    · subst hc
      simp only [List.filter_cons, bne_self_eq_false, Bool.false_eq_true, if_false, ih, Sparse.get]
      by_cases h : b = c
      · simp [h]
      · simp [h, Ne.symm h]
    · simp only [List.filter_cons, bne_iff_ne, ne_eq, hc, not_false_eq_true, if_true, Sparse.get, ih]
      by_cases h : c = b
      · subst h; simp [hc]
      · simp [h]

theorem Sparse.get_put (a b : Nat) (v : BitVec w) : ∀ m : Sparse w,
    Sparse.get b (Sparse.put a v m) = if b = a then v else Sparse.get b m
  | [] => by
    by_cases h : b = a
    · simp [Sparse.put, Sparse.get, h]
    · simp [Sparse.put, Sparse.get, h, Ne.symm h]
  | (c, u) :: t => by
    simp only [Sparse.put]
    split
    · by_cases h : b = a
      · simp [Sparse.get, h]
      · simp [Sparse.get, h, Ne.symm h]
    · split
      · subst_vars
        by_cases h : b = c
        · simp [Sparse.get, h]
        · simp [Sparse.get, h, Ne.symm h]
      · rename_i h1 h2
        simp only [Sparse.get, Sparse.get_put a b v t]
        by_cases h : c = b
        · subst h; simp [h2]
        · simp [h]

theorem Sparse.get_set_same (a : Nat) (v : BitVec w) (m : Sparse w) : Sparse.get a (Sparse.set a v m) = v := by
  unfold Sparse.set
  split
  · simp [Sparse.get_filter, *]
  · simp [Sparse.get_put]

theorem Sparse.get_set_other {a b : Nat} (h : b ≠ a) (v : BitVec w) (m : Sparse w) :
    Sparse.get b (Sparse.set a v m) = Sparse.get b m := by
  unfold Sparse.set
  split <;> simp [Sparse.get_filter, Sparse.get_put, h]

/-- The first address of a memory after a write is the written one or the first of before. -/
theorem Sparse.put_head (a : Nat) (v : BitVec w) (m : Sparse w) (c : Nat) (hc : c < a) (hm : ∀ e ∈ m.head?, c < e.1) :
    ∀ e ∈ (Sparse.put a v m).head?, c < e.1 := by
  intro e he
  cases m with
  | nil => simp [Sparse.put] at he; subst he; exact hc
  | cons f t =>
    simp only [Sparse.put] at he
    split at he
    · simp at he; subst he; exact hc
    · split at he
      · simp at he; subst he; exact hc
      · simp at he; subst he; exact hm f rfl

theorem Sparse.wf_cons {a : Nat} {v : BitVec w} {m : Sparse w} (hv : v ≠ 0) (hm : Sparse.wf m = true)
    (hh : ∀ e ∈ m.head?, a < e.1) : Sparse.wf ((a, v) :: m) = true := by
  cases m with
  | nil => simpa [Sparse.wf] using hv
  | cons f t =>
    obtain ⟨b, u⟩ := f
    have : a < b := by simpa using hh (b, u) rfl
    have hv' : v ≠ 0#w := hv
    simp [Sparse.wf, hv', this, hm]

theorem Sparse.wf_head_ne {e : Nat × BitVec w} {t : Sparse w} (h : Sparse.wf (e :: t) = true) : e.2 ≠ 0 := by
  cases t with
  | nil => simpa [Sparse.wf] using h
  | cons f t => simp only [Sparse.wf, Bool.and_eq_true, bne_iff_ne, ne_eq] at h; exact h.1.1

theorem Sparse.wf_head_lt {e : Nat × BitVec w} {t : Sparse w} (h : Sparse.wf (e :: t) = true) : ∀ f ∈ t.head?, e.1 < f.1 := by
  cases t with
  | nil => simp
  | cons g t =>
    intro f hf
    simp at hf
    subst hf
    simp only [Sparse.wf, Bool.and_eq_true, decide_eq_true_eq] at h
    exact h.1.2

theorem Sparse.filter_wf (f : Nat × BitVec w → Bool) : ∀ {m : Sparse w}, Sparse.wf m = true → Sparse.wf (m.filter f) = true ∧
    ∀ c, (∀ e ∈ m.head?, c < e.1) → ∀ e ∈ (m.filter f).head?, c < e.1
  | [], _ => by simp [Sparse.wf]
  | (b, u) :: t, h => by
    obtain ⟨h1, h2⟩ := Sparse.filter_wf f (Sparse.wf_tail h)
    have hlt := Sparse.wf_head_lt h
    by_cases hf : f (b, u) = true
    · simp only [List.filter_cons, hf, if_true]
      refine ⟨Sparse.wf_cons (Sparse.wf_head_ne h) h1 (h2 b hlt), ?_⟩
      intro c hc e he
      simp at he
      subst he
      simpa using hc (b, u) rfl
    · simp only [List.filter_cons, hf]
      refine ⟨h1, ?_⟩
      intro c hc
      have hcb : c < b := by simpa using hc (b, u) rfl
      exact h2 c fun e he => Nat.lt_trans hcb (hlt e he)

theorem Sparse.put_wf (a : Nat) {v : BitVec w} (hv : v ≠ 0) : ∀ {m : Sparse w}, Sparse.wf m = true →
    Sparse.wf (Sparse.put a v m) = true
  | [], _ => by simpa [Sparse.put, Sparse.wf] using hv
  | (b, u) :: t, h => by
    simp only [Sparse.put]
    split
    · exact Sparse.wf_cons hv h (by intro e he; simp at he; subst he; assumption)
    · split
      · subst_vars
        exact Sparse.wf_cons hv (Sparse.wf_tail h) (Sparse.wf_head_lt h)
      · exact Sparse.wf_cons (Sparse.wf_head_ne h) (Sparse.put_wf a hv (Sparse.wf_tail h))
          (Sparse.put_head a v t b (by omega) (Sparse.wf_head_lt h))

/-- A write keeps the canonical form. -/
theorem Sparse.set_wf (a : Nat) (v : BitVec w) {m : Sparse w} (h : Sparse.wf m = true) : Sparse.wf (Sparse.set a v m) = true := by
  unfold Sparse.set
  split
  · exact (Sparse.filter_wf _ h).1
  · exact Sparse.put_wf a ‹_› h

/-! ### Byte memories -/

theorem Cells.write_wf : ∀ {m : Cells} (a : Nat) (bs : List Byte), Memory.wf m = true → Memory.wf (Cells.write m a bs) = true
  | _, _, [], h => h
  | _, a, b :: bs, h => Cells.write_wf (a + 1) bs (Sparse.set_wf a b h)

/-- A clearing keeps the canonical form. -/
theorem Cells.clear_wf (m : Cells) (a n : Nat) (h : Memory.wf m = true) : Memory.wf (Cells.clear m a n) = true :=
  (Sparse.filter_wf _ h).1

theorem Cells.get_write_out : ∀ (m : Cells) (a : Nat) (bs : List Byte) (b : Nat), b < a ∨ a + bs.length ≤ b →
    Sparse.get b (Cells.write m a bs) = Sparse.get b m
  | _, _, [], _, _ => rfl
  | m, a, x :: bs, b, h => by
    simp only [List.length_cons] at h
    rw [Cells.write, Cells.get_write_out _ (a + 1) bs b (by omega), Sparse.get_set_other (by omega)]

/-- What a written range reads: the bytes written. -/
theorem Cells.read_write_same : ∀ (m : Cells) (a : Nat) (bs : List Byte),
    Cells.read (Cells.write m a bs) a bs.length = bs
  | _, _, [] => rfl
  | m, a, x :: bs => by
    simp only [List.length_cons, Cells.read, Cells.write]
    rw [Cells.get_write_out _ (a + 1) bs a (by omega), Sparse.get_set_same a x,
      Cells.read_write_same _ (a + 1) bs]

theorem Cells.read_length : ∀ (m : Cells) (a n : Nat), (Cells.read m a n).length = n
  | _, _, 0 => rfl
  | m, a, n + 1 => by simp [Cells.read, Cells.read_length m (a + 1) n]

/-- A range that a write does not meet reads as before. -/
theorem Cells.read_write_out : ∀ (m : Cells) (a : Nat) (bs : List Byte) (b n : Nat), b + n ≤ a ∨ a + bs.length ≤ b →
    Cells.read (Cells.write m a bs) b n = Cells.read m b n
  | _, _, _, _, 0, _ => rfl
  | m, a, bs, b, n + 1, h => by
    simp only [Cells.read]
    rw [Cells.get_write_out m a bs b (by omega), Cells.read_write_out m a bs (b + 1) n (by omega)]

end Sys2Proof.Machine
end

