-- ==== Sys2Proof/Laws/State.lean ====
section
/-!
SUPPORT. The fields of the module, of a partition and of a context after each shared update, and how a command acts.
-/

namespace Sys2Proof.Machine

/-! ### How a command acts -/

theorem State.act_on {s : State} (h : s.mod.power.pgOut = true) (f : Mod → Mod) :
    s.act f = .next { s with mod := f s.mod } := by
  simp [State.act, h]

theorem State.act_off {s : State} (h : s.mod.power.pgOut = false) (f : Mod → Mod) : s.act f = .next s := by
  simp [State.act, h]

theorem State.actWrite_ok {s : State} {data : List Byte} (h0 : 0 < data.length) (h1 : data.length ≤ 512) (f : Mod → Mod) :
    s.actWrite data f = s.act f := by
  simp [State.actWrite, h0, h1]

/-- Whatever every element's step keeps, the whole pass keeps. -/
theorem Mod.forAll_keeps {α : Type} {P : Mod → Prop} {f : Mod → α → Mod} (h : ∀ m x, P m → P (f m x)) :
    ∀ (xs : List α) (m : Mod), P m → P (m.forAll f xs)
  | [], _, hm => hm
  | x :: xs, m, hm => Mod.forAll_keeps h xs (f m x) (h m x hm)

@[simp] theorem Mod.forAll_nil {α : Type} (m : Mod) (f : Mod → α → Mod) : m.forAll f [] = m := rfl
@[simp] theorem Mod.forAll_cons {α : Type} (m : Mod) (f : Mod → α → Mod) (x : α) (xs : List α) :
    m.forAll f (x :: xs) = (f m x).forAll f xs := rfl

/-! ### Partitions -/

@[simp] theorem Mod.part_modPart (m : Mod) (k : Nat) (f : Partition → Partition) : (m.modPart k f).part k = f (m.part k) := by
  simp [Mod.part, Mod.modPart]

theorem Mod.part_modPart_other (m : Mod) {j k : Nat} (h : j ≠ k) (f : Partition → Partition) :
    (m.modPart k f).part j = m.part j := by
  simp [Mod.part, Mod.modPart, Table.get_modify_other _ h]

@[simp] theorem Mod.modCtx_eq (m : Mod) (k c : Nat) (f : Context → Context) :
    m.modCtx k c f = m.modPart k fun p => p.modCtx c f := rfl

@[simp] theorem Partition.ctx_modCtx (p : Partition) (c : Nat) (f : Context → Context) : (p.modCtx c f).ctx c = f (p.ctx c) := by
  simp [Partition.ctx, Partition.modCtx]

theorem Partition.ctx_modCtx_other (p : Partition) {c d : Nat} (h : d ≠ c) (f : Context → Context) :
    (p.modCtx c f).ctx d = p.ctx d := by
  simp [Partition.ctx, Partition.modCtx, Table.get_modify_other _ h]

@[simp] theorem Context.queue_modQueue (x : Context) (q : Nat) (f : Queue → Queue) :
    (x.modQueue q f).queue q = f (x.queue q) := by
  simp [Context.queue, Context.modQueue]

@[simp] theorem Partition.truss_modTruss (p : Partition) (t : Nat) (f : Truss → Truss) :
    (p.modTruss t f).truss t = f (p.truss t) := by
  simp [Partition.truss, Partition.modTruss]

@[simp] theorem Partition.chan_modChan (p : Partition) (c : Nat) (f : Channel → Channel) :
    (p.modChan c f).chan c = f (p.chan c) := by
  simp [Partition.chan, Partition.modChan]

@[simp] theorem Partition.reg_setReg (p : Partition) (off : Nat) (v : Word) : (p.setReg off v).reg off = v := by
  simp [Partition.reg, Partition.setReg]

theorem Partition.reg_setReg_other (p : Partition) {off o : Nat} (h : o ≠ off) (v : Word) :
    (p.setReg off v).reg o = p.reg o := by
  simp [Partition.reg, Partition.setReg, Table.get_set_other _ h]

@[simp] theorem Mod.chipReg_setChip (m : Mod) (off : Nat) (v : Word) : (m.setChip off v).chipReg off = v := by
  simp [Mod.chipReg, Mod.setChip]

theorem Mod.chipReg_setChip_other (m : Mod) {off o : Nat} (h : o ≠ off) (v : Word) :
    (m.setChip off v).chipReg o = m.chipReg o := by
  simp [Mod.chipReg, Mod.setChip, Table.get_set_other _ h]

@[simp] theorem Mod.link_modLink (m : Mod) (n : Nat) (f : Link → Link) : (m.modLink n f).link n = f (m.link n) := by
  simp [Mod.link, Mod.modLink]

@[simp] theorem Mod.keySlot_modKey (m : Mod) (i : Nat) (f : KeySlot → KeySlot) : (m.modKey i f).keySlot i = f (m.keySlot i) := by
  simp [Mod.keySlot, Mod.modKey]

/-! ### One lemma per field and update -/


@[simp] theorem Mod.out_modPart (m : Mod) (k : Nat) (f : Partition → Partition) : (m.modPart k f).out = m.out := rfl
@[simp] theorem Mod.fresh_modPart (m : Mod) (k : Nat) (f : Partition → Partition) : (m.modPart k f).fresh = m.fresh := rfl
@[simp] theorem Mod.read_modPart (m : Mod) (k : Nat) (f : Partition → Partition) : (m.modPart k f).read = m.read := rfl
@[simp] theorem Mod.power_modPart (m : Mod) (k : Nat) (f : Partition → Partition) : (m.modPart k f).power = m.power := rfl
@[simp] theorem Mod.devtime_modPart (m : Mod) (k : Nat) (f : Partition → Partition) : (m.modPart k f).devtime = m.devtime := rfl
@[simp] theorem Mod.time_modPart (m : Mod) (k : Nat) (f : Partition → Partition) : (m.modPart k f).time = m.time := rfl
@[simp] theorem Mod.boot_modPart (m : Mod) (k : Nat) (f : Partition → Partition) : (m.modPart k f).boot = m.boot := rfl
@[simp] theorem Mod.fwLoad_modPart (m : Mod) (k : Nat) (f : Partition → Partition) : (m.modPart k f).fwLoad = m.fwLoad := rfl
@[simp] theorem Mod.fw_modPart (m : Mod) (k : Nat) (f : Partition → Partition) : (m.modPart k f).fw = m.fw := rfl
@[simp] theorem Mod.pcie_modPart (m : Mod) (k : Nat) (f : Partition → Partition) : (m.modPart k f).pcie = m.pcie := rfl
@[simp] theorem Mod.chip_modPart (m : Mod) (k : Nat) (f : Partition → Partition) : (m.modPart k f).chip = m.chip := rfl
@[simp] theorem Mod.shadows_modPart (m : Mod) (k : Nat) (f : Partition → Partition) : (m.modPart k f).shadows = m.shadows := rfl
@[simp] theorem Mod.staged_modPart (m : Mod) (k : Nat) (f : Partition → Partition) : (m.modPart k f).staged = m.staged := rfl
@[simp] theorem Mod.mbx_modPart (m : Mod) (k : Nat) (f : Partition → Partition) : (m.modPart k f).mbx = m.mbx := rfl
@[simp] theorem Mod.mgmtBusy_modPart (m : Mod) (k : Nat) (f : Partition → Partition) : (m.modPart k f).mgmtBusy = m.mgmtBusy := rfl
@[simp] theorem Mod.reqSerial_modPart (m : Mod) (k : Nat) (f : Partition → Partition) : (m.modPart k f).reqSerial = m.reqSerial := rfl
@[simp] theorem Mod.arrived_modPart (m : Mod) (k : Nat) (f : Partition → Partition) : (m.modPart k f).arrived = m.arrived := rfl
@[simp] theorem Mod.taken_modPart (m : Mod) (k : Nat) (f : Partition → Partition) : (m.modPart k f).taken = m.taken := rfl
@[simp] theorem Mod.acting_modPart (m : Mod) (k : Nat) (f : Partition → Partition) : (m.modPart k f).acting = m.acting := rfl
@[simp] theorem Mod.supersede_modPart (m : Mod) (k : Nat) (f : Partition → Partition) : (m.modPart k f).supersede = m.supersede := rfl
@[simp] theorem Mod.keys_modPart (m : Mod) (k : Nat) (f : Partition → Partition) : (m.modPart k f).keys = m.keys := rfl
@[simp] theorem Mod.pke_modPart (m : Mod) (k : Nat) (f : Partition → Partition) : (m.modPart k f).pke = m.pke := rfl
@[simp] theorem Mod.wrapped_modPart (m : Mod) (k : Nat) (f : Partition → Partition) : (m.modPart k f).wrapped = m.wrapped := rfl
@[simp] theorem Mod.kaScalar_modPart (m : Mod) (k : Nat) (f : Partition → Partition) : (m.modPart k f).kaScalar = m.kaScalar := rfl
@[simp] theorem Mod.spdm_modPart (m : Mod) (k : Nat) (f : Partition → Partition) : (m.modPart k f).spdm = m.spdm := rfl
@[simp] theorem Mod.links_modPart (m : Mod) (k : Nat) (f : Partition → Partition) : (m.modPart k f).links = m.links := rfl
@[simp] theorem Mod.jobs_modPart (m : Mod) (k : Nat) (f : Partition → Partition) : (m.modPart k f).jobs = m.jobs := rfl
@[simp] theorem Mod.paths_modPart (m : Mod) (k : Nat) (f : Partition → Partition) : (m.modPart k f).paths = m.paths := rfl
@[simp] theorem Mod.binds_modPart (m : Mod) (k : Nat) (f : Partition → Partition) : (m.modPart k f).binds = m.binds := rfl
@[simp] theorem Mod.gov_modPart (m : Mod) (k : Nat) (f : Partition → Partition) : (m.modPart k f).gov = m.gov := rfl
@[simp] theorem Mod.modRecords_modPart (m : Mod) (k : Nat) (f : Partition → Partition) : (m.modPart k f).modRecords = m.modRecords := rfl
@[simp] theorem Mod.fabric_modPart (m : Mod) (k : Nat) (f : Partition → Partition) : (m.modPart k f).fabric = m.fabric := rfl
@[simp] theorem Mod.beats_modPart (m : Mod) (k : Nat) (f : Partition → Partition) : (m.modPart k f).beats = m.beats := rfl
@[simp] theorem Mod.holders_modPart (m : Mod) (k : Nat) (f : Partition → Partition) : (m.modPart k f).holders = m.holders := rfl
@[simp] theorem Mod.ports_modPart (m : Mod) (k : Nat) (f : Partition → Partition) : (m.modPart k f).ports = m.ports := rfl
@[simp] theorem Mod.resvSerial_modPart (m : Mod) (k : Nat) (f : Partition → Partition) : (m.modPart k f).resvSerial = m.resvSerial := rfl

@[simp] theorem Mod.fresh_send (m : Mod) (x : Sent) : (m.send x).fresh = m.fresh := rfl
@[simp] theorem Mod.read_send (m : Mod) (x : Sent) : (m.send x).read = m.read := rfl
@[simp] theorem Mod.power_send (m : Mod) (x : Sent) : (m.send x).power = m.power := rfl
@[simp] theorem Mod.devtime_send (m : Mod) (x : Sent) : (m.send x).devtime = m.devtime := rfl
@[simp] theorem Mod.time_send (m : Mod) (x : Sent) : (m.send x).time = m.time := rfl
@[simp] theorem Mod.boot_send (m : Mod) (x : Sent) : (m.send x).boot = m.boot := rfl
@[simp] theorem Mod.fwLoad_send (m : Mod) (x : Sent) : (m.send x).fwLoad = m.fwLoad := rfl
@[simp] theorem Mod.fw_send (m : Mod) (x : Sent) : (m.send x).fw = m.fw := rfl
@[simp] theorem Mod.pcie_send (m : Mod) (x : Sent) : (m.send x).pcie = m.pcie := rfl
@[simp] theorem Mod.chip_send (m : Mod) (x : Sent) : (m.send x).chip = m.chip := rfl
@[simp] theorem Mod.shadows_send (m : Mod) (x : Sent) : (m.send x).shadows = m.shadows := rfl
@[simp] theorem Mod.staged_send (m : Mod) (x : Sent) : (m.send x).staged = m.staged := rfl
@[simp] theorem Mod.mbx_send (m : Mod) (x : Sent) : (m.send x).mbx = m.mbx := rfl
@[simp] theorem Mod.mgmtBusy_send (m : Mod) (x : Sent) : (m.send x).mgmtBusy = m.mgmtBusy := rfl
@[simp] theorem Mod.reqSerial_send (m : Mod) (x : Sent) : (m.send x).reqSerial = m.reqSerial := rfl
@[simp] theorem Mod.arrived_send (m : Mod) (x : Sent) : (m.send x).arrived = m.arrived := rfl
@[simp] theorem Mod.taken_send (m : Mod) (x : Sent) : (m.send x).taken = m.taken := rfl
@[simp] theorem Mod.acting_send (m : Mod) (x : Sent) : (m.send x).acting = m.acting := rfl
@[simp] theorem Mod.supersede_send (m : Mod) (x : Sent) : (m.send x).supersede = m.supersede := rfl
@[simp] theorem Mod.parts_send (m : Mod) (x : Sent) : (m.send x).parts = m.parts := rfl
@[simp] theorem Mod.keys_send (m : Mod) (x : Sent) : (m.send x).keys = m.keys := rfl
@[simp] theorem Mod.pke_send (m : Mod) (x : Sent) : (m.send x).pke = m.pke := rfl
@[simp] theorem Mod.wrapped_send (m : Mod) (x : Sent) : (m.send x).wrapped = m.wrapped := rfl
@[simp] theorem Mod.kaScalar_send (m : Mod) (x : Sent) : (m.send x).kaScalar = m.kaScalar := rfl
@[simp] theorem Mod.spdm_send (m : Mod) (x : Sent) : (m.send x).spdm = m.spdm := rfl
@[simp] theorem Mod.links_send (m : Mod) (x : Sent) : (m.send x).links = m.links := rfl
@[simp] theorem Mod.jobs_send (m : Mod) (x : Sent) : (m.send x).jobs = m.jobs := rfl
@[simp] theorem Mod.paths_send (m : Mod) (x : Sent) : (m.send x).paths = m.paths := rfl
@[simp] theorem Mod.binds_send (m : Mod) (x : Sent) : (m.send x).binds = m.binds := rfl
@[simp] theorem Mod.gov_send (m : Mod) (x : Sent) : (m.send x).gov = m.gov := rfl
@[simp] theorem Mod.modRecords_send (m : Mod) (x : Sent) : (m.send x).modRecords = m.modRecords := rfl
@[simp] theorem Mod.fabric_send (m : Mod) (x : Sent) : (m.send x).fabric = m.fabric := rfl
@[simp] theorem Mod.beats_send (m : Mod) (x : Sent) : (m.send x).beats = m.beats := rfl
@[simp] theorem Mod.holders_send (m : Mod) (x : Sent) : (m.send x).holders = m.holders := rfl
@[simp] theorem Mod.ports_send (m : Mod) (x : Sent) : (m.send x).ports = m.ports := rfl
@[simp] theorem Mod.resvSerial_send (m : Mod) (x : Sent) : (m.send x).resvSerial = m.resvSerial := rfl

@[simp] theorem Mod.out_setChip (m : Mod) (off : Nat) (v : Word) : (m.setChip off v).out = m.out := rfl
@[simp] theorem Mod.fresh_setChip (m : Mod) (off : Nat) (v : Word) : (m.setChip off v).fresh = m.fresh := rfl
@[simp] theorem Mod.read_setChip (m : Mod) (off : Nat) (v : Word) : (m.setChip off v).read = m.read := rfl
@[simp] theorem Mod.power_setChip (m : Mod) (off : Nat) (v : Word) : (m.setChip off v).power = m.power := rfl
@[simp] theorem Mod.devtime_setChip (m : Mod) (off : Nat) (v : Word) : (m.setChip off v).devtime = m.devtime := rfl
@[simp] theorem Mod.time_setChip (m : Mod) (off : Nat) (v : Word) : (m.setChip off v).time = m.time := rfl
@[simp] theorem Mod.boot_setChip (m : Mod) (off : Nat) (v : Word) : (m.setChip off v).boot = m.boot := rfl
@[simp] theorem Mod.fwLoad_setChip (m : Mod) (off : Nat) (v : Word) : (m.setChip off v).fwLoad = m.fwLoad := rfl
@[simp] theorem Mod.fw_setChip (m : Mod) (off : Nat) (v : Word) : (m.setChip off v).fw = m.fw := rfl
@[simp] theorem Mod.pcie_setChip (m : Mod) (off : Nat) (v : Word) : (m.setChip off v).pcie = m.pcie := rfl
@[simp] theorem Mod.shadows_setChip (m : Mod) (off : Nat) (v : Word) : (m.setChip off v).shadows = m.shadows := rfl
@[simp] theorem Mod.staged_setChip (m : Mod) (off : Nat) (v : Word) : (m.setChip off v).staged = m.staged := rfl
@[simp] theorem Mod.mbx_setChip (m : Mod) (off : Nat) (v : Word) : (m.setChip off v).mbx = m.mbx := rfl
@[simp] theorem Mod.mgmtBusy_setChip (m : Mod) (off : Nat) (v : Word) : (m.setChip off v).mgmtBusy = m.mgmtBusy := rfl
@[simp] theorem Mod.reqSerial_setChip (m : Mod) (off : Nat) (v : Word) : (m.setChip off v).reqSerial = m.reqSerial := rfl
@[simp] theorem Mod.arrived_setChip (m : Mod) (off : Nat) (v : Word) : (m.setChip off v).arrived = m.arrived := rfl
@[simp] theorem Mod.taken_setChip (m : Mod) (off : Nat) (v : Word) : (m.setChip off v).taken = m.taken := rfl
@[simp] theorem Mod.acting_setChip (m : Mod) (off : Nat) (v : Word) : (m.setChip off v).acting = m.acting := rfl
@[simp] theorem Mod.supersede_setChip (m : Mod) (off : Nat) (v : Word) : (m.setChip off v).supersede = m.supersede := rfl
@[simp] theorem Mod.parts_setChip (m : Mod) (off : Nat) (v : Word) : (m.setChip off v).parts = m.parts := rfl
@[simp] theorem Mod.keys_setChip (m : Mod) (off : Nat) (v : Word) : (m.setChip off v).keys = m.keys := rfl
@[simp] theorem Mod.pke_setChip (m : Mod) (off : Nat) (v : Word) : (m.setChip off v).pke = m.pke := rfl
@[simp] theorem Mod.wrapped_setChip (m : Mod) (off : Nat) (v : Word) : (m.setChip off v).wrapped = m.wrapped := rfl
@[simp] theorem Mod.kaScalar_setChip (m : Mod) (off : Nat) (v : Word) : (m.setChip off v).kaScalar = m.kaScalar := rfl
@[simp] theorem Mod.spdm_setChip (m : Mod) (off : Nat) (v : Word) : (m.setChip off v).spdm = m.spdm := rfl
@[simp] theorem Mod.links_setChip (m : Mod) (off : Nat) (v : Word) : (m.setChip off v).links = m.links := rfl
@[simp] theorem Mod.jobs_setChip (m : Mod) (off : Nat) (v : Word) : (m.setChip off v).jobs = m.jobs := rfl
@[simp] theorem Mod.paths_setChip (m : Mod) (off : Nat) (v : Word) : (m.setChip off v).paths = m.paths := rfl
@[simp] theorem Mod.binds_setChip (m : Mod) (off : Nat) (v : Word) : (m.setChip off v).binds = m.binds := rfl
@[simp] theorem Mod.gov_setChip (m : Mod) (off : Nat) (v : Word) : (m.setChip off v).gov = m.gov := rfl
@[simp] theorem Mod.modRecords_setChip (m : Mod) (off : Nat) (v : Word) : (m.setChip off v).modRecords = m.modRecords := rfl
@[simp] theorem Mod.fabric_setChip (m : Mod) (off : Nat) (v : Word) : (m.setChip off v).fabric = m.fabric := rfl
@[simp] theorem Mod.beats_setChip (m : Mod) (off : Nat) (v : Word) : (m.setChip off v).beats = m.beats := rfl
@[simp] theorem Mod.holders_setChip (m : Mod) (off : Nat) (v : Word) : (m.setChip off v).holders = m.holders := rfl
@[simp] theorem Mod.ports_setChip (m : Mod) (off : Nat) (v : Word) : (m.setChip off v).ports = m.ports := rfl
@[simp] theorem Mod.resvSerial_setChip (m : Mod) (off : Nat) (v : Word) : (m.setChip off v).resvSerial = m.resvSerial := rfl

@[simp] theorem Mod.out_setChipFld (m : Mod) (off hi lo v : Nat) : (m.setChipFld off hi lo v).out = m.out := rfl
@[simp] theorem Mod.fresh_setChipFld (m : Mod) (off hi lo v : Nat) : (m.setChipFld off hi lo v).fresh = m.fresh := rfl
@[simp] theorem Mod.read_setChipFld (m : Mod) (off hi lo v : Nat) : (m.setChipFld off hi lo v).read = m.read := rfl
@[simp] theorem Mod.power_setChipFld (m : Mod) (off hi lo v : Nat) : (m.setChipFld off hi lo v).power = m.power := rfl
@[simp] theorem Mod.devtime_setChipFld (m : Mod) (off hi lo v : Nat) : (m.setChipFld off hi lo v).devtime = m.devtime := rfl
@[simp] theorem Mod.time_setChipFld (m : Mod) (off hi lo v : Nat) : (m.setChipFld off hi lo v).time = m.time := rfl
@[simp] theorem Mod.boot_setChipFld (m : Mod) (off hi lo v : Nat) : (m.setChipFld off hi lo v).boot = m.boot := rfl
@[simp] theorem Mod.fwLoad_setChipFld (m : Mod) (off hi lo v : Nat) : (m.setChipFld off hi lo v).fwLoad = m.fwLoad := rfl
@[simp] theorem Mod.fw_setChipFld (m : Mod) (off hi lo v : Nat) : (m.setChipFld off hi lo v).fw = m.fw := rfl
@[simp] theorem Mod.pcie_setChipFld (m : Mod) (off hi lo v : Nat) : (m.setChipFld off hi lo v).pcie = m.pcie := rfl
@[simp] theorem Mod.shadows_setChipFld (m : Mod) (off hi lo v : Nat) : (m.setChipFld off hi lo v).shadows = m.shadows := rfl
@[simp] theorem Mod.staged_setChipFld (m : Mod) (off hi lo v : Nat) : (m.setChipFld off hi lo v).staged = m.staged := rfl
@[simp] theorem Mod.mbx_setChipFld (m : Mod) (off hi lo v : Nat) : (m.setChipFld off hi lo v).mbx = m.mbx := rfl
@[simp] theorem Mod.mgmtBusy_setChipFld (m : Mod) (off hi lo v : Nat) : (m.setChipFld off hi lo v).mgmtBusy = m.mgmtBusy := rfl
@[simp] theorem Mod.reqSerial_setChipFld (m : Mod) (off hi lo v : Nat) : (m.setChipFld off hi lo v).reqSerial = m.reqSerial := rfl
@[simp] theorem Mod.arrived_setChipFld (m : Mod) (off hi lo v : Nat) : (m.setChipFld off hi lo v).arrived = m.arrived := rfl
@[simp] theorem Mod.taken_setChipFld (m : Mod) (off hi lo v : Nat) : (m.setChipFld off hi lo v).taken = m.taken := rfl
@[simp] theorem Mod.acting_setChipFld (m : Mod) (off hi lo v : Nat) : (m.setChipFld off hi lo v).acting = m.acting := rfl
@[simp] theorem Mod.supersede_setChipFld (m : Mod) (off hi lo v : Nat) : (m.setChipFld off hi lo v).supersede = m.supersede := rfl
@[simp] theorem Mod.parts_setChipFld (m : Mod) (off hi lo v : Nat) : (m.setChipFld off hi lo v).parts = m.parts := rfl
@[simp] theorem Mod.keys_setChipFld (m : Mod) (off hi lo v : Nat) : (m.setChipFld off hi lo v).keys = m.keys := rfl
@[simp] theorem Mod.pke_setChipFld (m : Mod) (off hi lo v : Nat) : (m.setChipFld off hi lo v).pke = m.pke := rfl
@[simp] theorem Mod.wrapped_setChipFld (m : Mod) (off hi lo v : Nat) : (m.setChipFld off hi lo v).wrapped = m.wrapped := rfl
@[simp] theorem Mod.kaScalar_setChipFld (m : Mod) (off hi lo v : Nat) : (m.setChipFld off hi lo v).kaScalar = m.kaScalar := rfl
@[simp] theorem Mod.spdm_setChipFld (m : Mod) (off hi lo v : Nat) : (m.setChipFld off hi lo v).spdm = m.spdm := rfl
@[simp] theorem Mod.links_setChipFld (m : Mod) (off hi lo v : Nat) : (m.setChipFld off hi lo v).links = m.links := rfl
@[simp] theorem Mod.jobs_setChipFld (m : Mod) (off hi lo v : Nat) : (m.setChipFld off hi lo v).jobs = m.jobs := rfl
@[simp] theorem Mod.paths_setChipFld (m : Mod) (off hi lo v : Nat) : (m.setChipFld off hi lo v).paths = m.paths := rfl
@[simp] theorem Mod.binds_setChipFld (m : Mod) (off hi lo v : Nat) : (m.setChipFld off hi lo v).binds = m.binds := rfl
@[simp] theorem Mod.gov_setChipFld (m : Mod) (off hi lo v : Nat) : (m.setChipFld off hi lo v).gov = m.gov := rfl
@[simp] theorem Mod.modRecords_setChipFld (m : Mod) (off hi lo v : Nat) : (m.setChipFld off hi lo v).modRecords = m.modRecords := rfl
@[simp] theorem Mod.fabric_setChipFld (m : Mod) (off hi lo v : Nat) : (m.setChipFld off hi lo v).fabric = m.fabric := rfl
@[simp] theorem Mod.beats_setChipFld (m : Mod) (off hi lo v : Nat) : (m.setChipFld off hi lo v).beats = m.beats := rfl
@[simp] theorem Mod.holders_setChipFld (m : Mod) (off hi lo v : Nat) : (m.setChipFld off hi lo v).holders = m.holders := rfl
@[simp] theorem Mod.ports_setChipFld (m : Mod) (off hi lo v : Nat) : (m.setChipFld off hi lo v).ports = m.ports := rfl
@[simp] theorem Mod.resvSerial_setChipFld (m : Mod) (off hi lo v : Nat) : (m.setChipFld off hi lo v).resvSerial = m.resvSerial := rfl

@[simp] theorem Mod.out_chipFlag (m : Mod) (off i : Nat) : (m.chipFlag off i).out = m.out := rfl
@[simp] theorem Mod.fresh_chipFlag (m : Mod) (off i : Nat) : (m.chipFlag off i).fresh = m.fresh := rfl
@[simp] theorem Mod.read_chipFlag (m : Mod) (off i : Nat) : (m.chipFlag off i).read = m.read := rfl
@[simp] theorem Mod.power_chipFlag (m : Mod) (off i : Nat) : (m.chipFlag off i).power = m.power := rfl
@[simp] theorem Mod.devtime_chipFlag (m : Mod) (off i : Nat) : (m.chipFlag off i).devtime = m.devtime := rfl
@[simp] theorem Mod.time_chipFlag (m : Mod) (off i : Nat) : (m.chipFlag off i).time = m.time := rfl
@[simp] theorem Mod.boot_chipFlag (m : Mod) (off i : Nat) : (m.chipFlag off i).boot = m.boot := rfl
@[simp] theorem Mod.fwLoad_chipFlag (m : Mod) (off i : Nat) : (m.chipFlag off i).fwLoad = m.fwLoad := rfl
@[simp] theorem Mod.fw_chipFlag (m : Mod) (off i : Nat) : (m.chipFlag off i).fw = m.fw := rfl
@[simp] theorem Mod.pcie_chipFlag (m : Mod) (off i : Nat) : (m.chipFlag off i).pcie = m.pcie := rfl
@[simp] theorem Mod.shadows_chipFlag (m : Mod) (off i : Nat) : (m.chipFlag off i).shadows = m.shadows := rfl
@[simp] theorem Mod.staged_chipFlag (m : Mod) (off i : Nat) : (m.chipFlag off i).staged = m.staged := rfl
@[simp] theorem Mod.mbx_chipFlag (m : Mod) (off i : Nat) : (m.chipFlag off i).mbx = m.mbx := rfl
@[simp] theorem Mod.mgmtBusy_chipFlag (m : Mod) (off i : Nat) : (m.chipFlag off i).mgmtBusy = m.mgmtBusy := rfl
@[simp] theorem Mod.reqSerial_chipFlag (m : Mod) (off i : Nat) : (m.chipFlag off i).reqSerial = m.reqSerial := rfl
@[simp] theorem Mod.arrived_chipFlag (m : Mod) (off i : Nat) : (m.chipFlag off i).arrived = m.arrived := rfl
@[simp] theorem Mod.taken_chipFlag (m : Mod) (off i : Nat) : (m.chipFlag off i).taken = m.taken := rfl
@[simp] theorem Mod.acting_chipFlag (m : Mod) (off i : Nat) : (m.chipFlag off i).acting = m.acting := rfl
@[simp] theorem Mod.supersede_chipFlag (m : Mod) (off i : Nat) : (m.chipFlag off i).supersede = m.supersede := rfl
@[simp] theorem Mod.parts_chipFlag (m : Mod) (off i : Nat) : (m.chipFlag off i).parts = m.parts := rfl
@[simp] theorem Mod.keys_chipFlag (m : Mod) (off i : Nat) : (m.chipFlag off i).keys = m.keys := rfl
@[simp] theorem Mod.pke_chipFlag (m : Mod) (off i : Nat) : (m.chipFlag off i).pke = m.pke := rfl
@[simp] theorem Mod.wrapped_chipFlag (m : Mod) (off i : Nat) : (m.chipFlag off i).wrapped = m.wrapped := rfl
@[simp] theorem Mod.kaScalar_chipFlag (m : Mod) (off i : Nat) : (m.chipFlag off i).kaScalar = m.kaScalar := rfl
@[simp] theorem Mod.spdm_chipFlag (m : Mod) (off i : Nat) : (m.chipFlag off i).spdm = m.spdm := rfl
@[simp] theorem Mod.links_chipFlag (m : Mod) (off i : Nat) : (m.chipFlag off i).links = m.links := rfl
@[simp] theorem Mod.jobs_chipFlag (m : Mod) (off i : Nat) : (m.chipFlag off i).jobs = m.jobs := rfl
@[simp] theorem Mod.paths_chipFlag (m : Mod) (off i : Nat) : (m.chipFlag off i).paths = m.paths := rfl
@[simp] theorem Mod.binds_chipFlag (m : Mod) (off i : Nat) : (m.chipFlag off i).binds = m.binds := rfl
@[simp] theorem Mod.gov_chipFlag (m : Mod) (off i : Nat) : (m.chipFlag off i).gov = m.gov := rfl
@[simp] theorem Mod.modRecords_chipFlag (m : Mod) (off i : Nat) : (m.chipFlag off i).modRecords = m.modRecords := rfl
@[simp] theorem Mod.fabric_chipFlag (m : Mod) (off i : Nat) : (m.chipFlag off i).fabric = m.fabric := rfl
@[simp] theorem Mod.beats_chipFlag (m : Mod) (off i : Nat) : (m.chipFlag off i).beats = m.beats := rfl
@[simp] theorem Mod.holders_chipFlag (m : Mod) (off i : Nat) : (m.chipFlag off i).holders = m.holders := rfl
@[simp] theorem Mod.ports_chipFlag (m : Mod) (off i : Nat) : (m.chipFlag off i).ports = m.ports := rfl
@[simp] theorem Mod.resvSerial_chipFlag (m : Mod) (off i : Nat) : (m.chipFlag off i).resvSerial = m.resvSerial := rfl

@[simp] theorem Mod.out_chipCount (m : Mod) (off hi lo n : Nat) : (m.chipCount off hi lo n).out = m.out := rfl
@[simp] theorem Mod.fresh_chipCount (m : Mod) (off hi lo n : Nat) : (m.chipCount off hi lo n).fresh = m.fresh := rfl
@[simp] theorem Mod.read_chipCount (m : Mod) (off hi lo n : Nat) : (m.chipCount off hi lo n).read = m.read := rfl
@[simp] theorem Mod.power_chipCount (m : Mod) (off hi lo n : Nat) : (m.chipCount off hi lo n).power = m.power := rfl
@[simp] theorem Mod.devtime_chipCount (m : Mod) (off hi lo n : Nat) : (m.chipCount off hi lo n).devtime = m.devtime := rfl
@[simp] theorem Mod.time_chipCount (m : Mod) (off hi lo n : Nat) : (m.chipCount off hi lo n).time = m.time := rfl
@[simp] theorem Mod.boot_chipCount (m : Mod) (off hi lo n : Nat) : (m.chipCount off hi lo n).boot = m.boot := rfl
@[simp] theorem Mod.fwLoad_chipCount (m : Mod) (off hi lo n : Nat) : (m.chipCount off hi lo n).fwLoad = m.fwLoad := rfl
@[simp] theorem Mod.fw_chipCount (m : Mod) (off hi lo n : Nat) : (m.chipCount off hi lo n).fw = m.fw := rfl
@[simp] theorem Mod.pcie_chipCount (m : Mod) (off hi lo n : Nat) : (m.chipCount off hi lo n).pcie = m.pcie := rfl
@[simp] theorem Mod.shadows_chipCount (m : Mod) (off hi lo n : Nat) : (m.chipCount off hi lo n).shadows = m.shadows := rfl
@[simp] theorem Mod.staged_chipCount (m : Mod) (off hi lo n : Nat) : (m.chipCount off hi lo n).staged = m.staged := rfl
@[simp] theorem Mod.mbx_chipCount (m : Mod) (off hi lo n : Nat) : (m.chipCount off hi lo n).mbx = m.mbx := rfl
@[simp] theorem Mod.mgmtBusy_chipCount (m : Mod) (off hi lo n : Nat) : (m.chipCount off hi lo n).mgmtBusy = m.mgmtBusy := rfl
@[simp] theorem Mod.reqSerial_chipCount (m : Mod) (off hi lo n : Nat) : (m.chipCount off hi lo n).reqSerial = m.reqSerial := rfl
@[simp] theorem Mod.arrived_chipCount (m : Mod) (off hi lo n : Nat) : (m.chipCount off hi lo n).arrived = m.arrived := rfl
@[simp] theorem Mod.taken_chipCount (m : Mod) (off hi lo n : Nat) : (m.chipCount off hi lo n).taken = m.taken := rfl
@[simp] theorem Mod.acting_chipCount (m : Mod) (off hi lo n : Nat) : (m.chipCount off hi lo n).acting = m.acting := rfl
@[simp] theorem Mod.supersede_chipCount (m : Mod) (off hi lo n : Nat) : (m.chipCount off hi lo n).supersede = m.supersede := rfl
@[simp] theorem Mod.parts_chipCount (m : Mod) (off hi lo n : Nat) : (m.chipCount off hi lo n).parts = m.parts := rfl
@[simp] theorem Mod.keys_chipCount (m : Mod) (off hi lo n : Nat) : (m.chipCount off hi lo n).keys = m.keys := rfl
@[simp] theorem Mod.pke_chipCount (m : Mod) (off hi lo n : Nat) : (m.chipCount off hi lo n).pke = m.pke := rfl
@[simp] theorem Mod.wrapped_chipCount (m : Mod) (off hi lo n : Nat) : (m.chipCount off hi lo n).wrapped = m.wrapped := rfl
@[simp] theorem Mod.kaScalar_chipCount (m : Mod) (off hi lo n : Nat) : (m.chipCount off hi lo n).kaScalar = m.kaScalar := rfl
@[simp] theorem Mod.spdm_chipCount (m : Mod) (off hi lo n : Nat) : (m.chipCount off hi lo n).spdm = m.spdm := rfl
@[simp] theorem Mod.links_chipCount (m : Mod) (off hi lo n : Nat) : (m.chipCount off hi lo n).links = m.links := rfl
@[simp] theorem Mod.jobs_chipCount (m : Mod) (off hi lo n : Nat) : (m.chipCount off hi lo n).jobs = m.jobs := rfl
@[simp] theorem Mod.paths_chipCount (m : Mod) (off hi lo n : Nat) : (m.chipCount off hi lo n).paths = m.paths := rfl
@[simp] theorem Mod.binds_chipCount (m : Mod) (off hi lo n : Nat) : (m.chipCount off hi lo n).binds = m.binds := rfl
@[simp] theorem Mod.gov_chipCount (m : Mod) (off hi lo n : Nat) : (m.chipCount off hi lo n).gov = m.gov := rfl
@[simp] theorem Mod.modRecords_chipCount (m : Mod) (off hi lo n : Nat) : (m.chipCount off hi lo n).modRecords = m.modRecords := rfl
@[simp] theorem Mod.fabric_chipCount (m : Mod) (off hi lo n : Nat) : (m.chipCount off hi lo n).fabric = m.fabric := rfl
@[simp] theorem Mod.beats_chipCount (m : Mod) (off hi lo n : Nat) : (m.chipCount off hi lo n).beats = m.beats := rfl
@[simp] theorem Mod.holders_chipCount (m : Mod) (off hi lo n : Nat) : (m.chipCount off hi lo n).holders = m.holders := rfl
@[simp] theorem Mod.ports_chipCount (m : Mod) (off hi lo n : Nat) : (m.chipCount off hi lo n).ports = m.ports := rfl
@[simp] theorem Mod.resvSerial_chipCount (m : Mod) (off hi lo n : Nat) : (m.chipCount off hi lo n).resvSerial = m.resvSerial := rfl

@[simp] theorem Mod.out_modLink (m : Mod) (n : Nat) (f : Link → Link) : (m.modLink n f).out = m.out := rfl
@[simp] theorem Mod.fresh_modLink (m : Mod) (n : Nat) (f : Link → Link) : (m.modLink n f).fresh = m.fresh := rfl
@[simp] theorem Mod.read_modLink (m : Mod) (n : Nat) (f : Link → Link) : (m.modLink n f).read = m.read := rfl
@[simp] theorem Mod.power_modLink (m : Mod) (n : Nat) (f : Link → Link) : (m.modLink n f).power = m.power := rfl
@[simp] theorem Mod.devtime_modLink (m : Mod) (n : Nat) (f : Link → Link) : (m.modLink n f).devtime = m.devtime := rfl
@[simp] theorem Mod.time_modLink (m : Mod) (n : Nat) (f : Link → Link) : (m.modLink n f).time = m.time := rfl
@[simp] theorem Mod.boot_modLink (m : Mod) (n : Nat) (f : Link → Link) : (m.modLink n f).boot = m.boot := rfl
@[simp] theorem Mod.fwLoad_modLink (m : Mod) (n : Nat) (f : Link → Link) : (m.modLink n f).fwLoad = m.fwLoad := rfl
@[simp] theorem Mod.fw_modLink (m : Mod) (n : Nat) (f : Link → Link) : (m.modLink n f).fw = m.fw := rfl
@[simp] theorem Mod.pcie_modLink (m : Mod) (n : Nat) (f : Link → Link) : (m.modLink n f).pcie = m.pcie := rfl
@[simp] theorem Mod.chip_modLink (m : Mod) (n : Nat) (f : Link → Link) : (m.modLink n f).chip = m.chip := rfl
@[simp] theorem Mod.shadows_modLink (m : Mod) (n : Nat) (f : Link → Link) : (m.modLink n f).shadows = m.shadows := rfl
@[simp] theorem Mod.staged_modLink (m : Mod) (n : Nat) (f : Link → Link) : (m.modLink n f).staged = m.staged := rfl
@[simp] theorem Mod.mbx_modLink (m : Mod) (n : Nat) (f : Link → Link) : (m.modLink n f).mbx = m.mbx := rfl
@[simp] theorem Mod.mgmtBusy_modLink (m : Mod) (n : Nat) (f : Link → Link) : (m.modLink n f).mgmtBusy = m.mgmtBusy := rfl
@[simp] theorem Mod.reqSerial_modLink (m : Mod) (n : Nat) (f : Link → Link) : (m.modLink n f).reqSerial = m.reqSerial := rfl
@[simp] theorem Mod.arrived_modLink (m : Mod) (n : Nat) (f : Link → Link) : (m.modLink n f).arrived = m.arrived := rfl
@[simp] theorem Mod.taken_modLink (m : Mod) (n : Nat) (f : Link → Link) : (m.modLink n f).taken = m.taken := rfl
@[simp] theorem Mod.acting_modLink (m : Mod) (n : Nat) (f : Link → Link) : (m.modLink n f).acting = m.acting := rfl
@[simp] theorem Mod.supersede_modLink (m : Mod) (n : Nat) (f : Link → Link) : (m.modLink n f).supersede = m.supersede := rfl
@[simp] theorem Mod.parts_modLink (m : Mod) (n : Nat) (f : Link → Link) : (m.modLink n f).parts = m.parts := rfl
@[simp] theorem Mod.keys_modLink (m : Mod) (n : Nat) (f : Link → Link) : (m.modLink n f).keys = m.keys := rfl
@[simp] theorem Mod.pke_modLink (m : Mod) (n : Nat) (f : Link → Link) : (m.modLink n f).pke = m.pke := rfl
@[simp] theorem Mod.wrapped_modLink (m : Mod) (n : Nat) (f : Link → Link) : (m.modLink n f).wrapped = m.wrapped := rfl
@[simp] theorem Mod.kaScalar_modLink (m : Mod) (n : Nat) (f : Link → Link) : (m.modLink n f).kaScalar = m.kaScalar := rfl
@[simp] theorem Mod.spdm_modLink (m : Mod) (n : Nat) (f : Link → Link) : (m.modLink n f).spdm = m.spdm := rfl
@[simp] theorem Mod.jobs_modLink (m : Mod) (n : Nat) (f : Link → Link) : (m.modLink n f).jobs = m.jobs := rfl
@[simp] theorem Mod.paths_modLink (m : Mod) (n : Nat) (f : Link → Link) : (m.modLink n f).paths = m.paths := rfl
@[simp] theorem Mod.binds_modLink (m : Mod) (n : Nat) (f : Link → Link) : (m.modLink n f).binds = m.binds := rfl
@[simp] theorem Mod.gov_modLink (m : Mod) (n : Nat) (f : Link → Link) : (m.modLink n f).gov = m.gov := rfl
@[simp] theorem Mod.modRecords_modLink (m : Mod) (n : Nat) (f : Link → Link) : (m.modLink n f).modRecords = m.modRecords := rfl
@[simp] theorem Mod.fabric_modLink (m : Mod) (n : Nat) (f : Link → Link) : (m.modLink n f).fabric = m.fabric := rfl
@[simp] theorem Mod.beats_modLink (m : Mod) (n : Nat) (f : Link → Link) : (m.modLink n f).beats = m.beats := rfl
@[simp] theorem Mod.holders_modLink (m : Mod) (n : Nat) (f : Link → Link) : (m.modLink n f).holders = m.holders := rfl
@[simp] theorem Mod.ports_modLink (m : Mod) (n : Nat) (f : Link → Link) : (m.modLink n f).ports = m.ports := rfl
@[simp] theorem Mod.resvSerial_modLink (m : Mod) (n : Nat) (f : Link → Link) : (m.modLink n f).resvSerial = m.resvSerial := rfl

@[simp] theorem Mod.out_modKey (m : Mod) (i : Nat) (f : KeySlot → KeySlot) : (m.modKey i f).out = m.out := rfl
@[simp] theorem Mod.fresh_modKey (m : Mod) (i : Nat) (f : KeySlot → KeySlot) : (m.modKey i f).fresh = m.fresh := rfl
@[simp] theorem Mod.read_modKey (m : Mod) (i : Nat) (f : KeySlot → KeySlot) : (m.modKey i f).read = m.read := rfl
@[simp] theorem Mod.power_modKey (m : Mod) (i : Nat) (f : KeySlot → KeySlot) : (m.modKey i f).power = m.power := rfl
@[simp] theorem Mod.devtime_modKey (m : Mod) (i : Nat) (f : KeySlot → KeySlot) : (m.modKey i f).devtime = m.devtime := rfl
@[simp] theorem Mod.time_modKey (m : Mod) (i : Nat) (f : KeySlot → KeySlot) : (m.modKey i f).time = m.time := rfl
@[simp] theorem Mod.boot_modKey (m : Mod) (i : Nat) (f : KeySlot → KeySlot) : (m.modKey i f).boot = m.boot := rfl
@[simp] theorem Mod.fwLoad_modKey (m : Mod) (i : Nat) (f : KeySlot → KeySlot) : (m.modKey i f).fwLoad = m.fwLoad := rfl
@[simp] theorem Mod.fw_modKey (m : Mod) (i : Nat) (f : KeySlot → KeySlot) : (m.modKey i f).fw = m.fw := rfl
@[simp] theorem Mod.pcie_modKey (m : Mod) (i : Nat) (f : KeySlot → KeySlot) : (m.modKey i f).pcie = m.pcie := rfl
@[simp] theorem Mod.chip_modKey (m : Mod) (i : Nat) (f : KeySlot → KeySlot) : (m.modKey i f).chip = m.chip := rfl
@[simp] theorem Mod.shadows_modKey (m : Mod) (i : Nat) (f : KeySlot → KeySlot) : (m.modKey i f).shadows = m.shadows := rfl
@[simp] theorem Mod.staged_modKey (m : Mod) (i : Nat) (f : KeySlot → KeySlot) : (m.modKey i f).staged = m.staged := rfl
@[simp] theorem Mod.mbx_modKey (m : Mod) (i : Nat) (f : KeySlot → KeySlot) : (m.modKey i f).mbx = m.mbx := rfl
@[simp] theorem Mod.mgmtBusy_modKey (m : Mod) (i : Nat) (f : KeySlot → KeySlot) : (m.modKey i f).mgmtBusy = m.mgmtBusy := rfl
@[simp] theorem Mod.reqSerial_modKey (m : Mod) (i : Nat) (f : KeySlot → KeySlot) : (m.modKey i f).reqSerial = m.reqSerial := rfl
@[simp] theorem Mod.arrived_modKey (m : Mod) (i : Nat) (f : KeySlot → KeySlot) : (m.modKey i f).arrived = m.arrived := rfl
@[simp] theorem Mod.taken_modKey (m : Mod) (i : Nat) (f : KeySlot → KeySlot) : (m.modKey i f).taken = m.taken := rfl
@[simp] theorem Mod.acting_modKey (m : Mod) (i : Nat) (f : KeySlot → KeySlot) : (m.modKey i f).acting = m.acting := rfl
@[simp] theorem Mod.supersede_modKey (m : Mod) (i : Nat) (f : KeySlot → KeySlot) : (m.modKey i f).supersede = m.supersede := rfl
@[simp] theorem Mod.parts_modKey (m : Mod) (i : Nat) (f : KeySlot → KeySlot) : (m.modKey i f).parts = m.parts := rfl
@[simp] theorem Mod.pke_modKey (m : Mod) (i : Nat) (f : KeySlot → KeySlot) : (m.modKey i f).pke = m.pke := rfl
@[simp] theorem Mod.wrapped_modKey (m : Mod) (i : Nat) (f : KeySlot → KeySlot) : (m.modKey i f).wrapped = m.wrapped := rfl
@[simp] theorem Mod.kaScalar_modKey (m : Mod) (i : Nat) (f : KeySlot → KeySlot) : (m.modKey i f).kaScalar = m.kaScalar := rfl
@[simp] theorem Mod.spdm_modKey (m : Mod) (i : Nat) (f : KeySlot → KeySlot) : (m.modKey i f).spdm = m.spdm := rfl
@[simp] theorem Mod.links_modKey (m : Mod) (i : Nat) (f : KeySlot → KeySlot) : (m.modKey i f).links = m.links := rfl
@[simp] theorem Mod.jobs_modKey (m : Mod) (i : Nat) (f : KeySlot → KeySlot) : (m.modKey i f).jobs = m.jobs := rfl
@[simp] theorem Mod.paths_modKey (m : Mod) (i : Nat) (f : KeySlot → KeySlot) : (m.modKey i f).paths = m.paths := rfl
@[simp] theorem Mod.binds_modKey (m : Mod) (i : Nat) (f : KeySlot → KeySlot) : (m.modKey i f).binds = m.binds := rfl
@[simp] theorem Mod.gov_modKey (m : Mod) (i : Nat) (f : KeySlot → KeySlot) : (m.modKey i f).gov = m.gov := rfl
@[simp] theorem Mod.modRecords_modKey (m : Mod) (i : Nat) (f : KeySlot → KeySlot) : (m.modKey i f).modRecords = m.modRecords := rfl
@[simp] theorem Mod.fabric_modKey (m : Mod) (i : Nat) (f : KeySlot → KeySlot) : (m.modKey i f).fabric = m.fabric := rfl
@[simp] theorem Mod.beats_modKey (m : Mod) (i : Nat) (f : KeySlot → KeySlot) : (m.modKey i f).beats = m.beats := rfl
@[simp] theorem Mod.holders_modKey (m : Mod) (i : Nat) (f : KeySlot → KeySlot) : (m.modKey i f).holders = m.holders := rfl
@[simp] theorem Mod.ports_modKey (m : Mod) (i : Nat) (f : KeySlot → KeySlot) : (m.modKey i f).ports = m.ports := rfl
@[simp] theorem Mod.resvSerial_modKey (m : Mod) (i : Nat) (f : KeySlot → KeySlot) : (m.modKey i f).resvSerial = m.resvSerial := rfl

@[simp] theorem Mod.out_send (m : Mod) (x : Sent) : (m.send x).out = m.out ++ [x] := rfl

@[simp] theorem Mod.out_draw (m : Mod) : m.draw.2.out = m.out := rfl
@[simp] theorem Mod.read_draw (m : Mod) : m.draw.2.read = m.read := rfl
@[simp] theorem Mod.power_draw (m : Mod) : m.draw.2.power = m.power := rfl
@[simp] theorem Mod.devtime_draw (m : Mod) : m.draw.2.devtime = m.devtime := rfl
@[simp] theorem Mod.time_draw (m : Mod) : m.draw.2.time = m.time := rfl
@[simp] theorem Mod.boot_draw (m : Mod) : m.draw.2.boot = m.boot := rfl
@[simp] theorem Mod.fwLoad_draw (m : Mod) : m.draw.2.fwLoad = m.fwLoad := rfl
@[simp] theorem Mod.fw_draw (m : Mod) : m.draw.2.fw = m.fw := rfl
@[simp] theorem Mod.pcie_draw (m : Mod) : m.draw.2.pcie = m.pcie := rfl
@[simp] theorem Mod.chip_draw (m : Mod) : m.draw.2.chip = m.chip := rfl
@[simp] theorem Mod.shadows_draw (m : Mod) : m.draw.2.shadows = m.shadows := rfl
@[simp] theorem Mod.staged_draw (m : Mod) : m.draw.2.staged = m.staged := rfl
@[simp] theorem Mod.mbx_draw (m : Mod) : m.draw.2.mbx = m.mbx := rfl
@[simp] theorem Mod.mgmtBusy_draw (m : Mod) : m.draw.2.mgmtBusy = m.mgmtBusy := rfl
@[simp] theorem Mod.reqSerial_draw (m : Mod) : m.draw.2.reqSerial = m.reqSerial := rfl
@[simp] theorem Mod.arrived_draw (m : Mod) : m.draw.2.arrived = m.arrived := rfl
@[simp] theorem Mod.taken_draw (m : Mod) : m.draw.2.taken = m.taken := rfl
@[simp] theorem Mod.acting_draw (m : Mod) : m.draw.2.acting = m.acting := rfl
@[simp] theorem Mod.supersede_draw (m : Mod) : m.draw.2.supersede = m.supersede := rfl
@[simp] theorem Mod.parts_draw (m : Mod) : m.draw.2.parts = m.parts := rfl
@[simp] theorem Mod.keys_draw (m : Mod) : m.draw.2.keys = m.keys := rfl
@[simp] theorem Mod.pke_draw (m : Mod) : m.draw.2.pke = m.pke := rfl
@[simp] theorem Mod.wrapped_draw (m : Mod) : m.draw.2.wrapped = m.wrapped := rfl
@[simp] theorem Mod.kaScalar_draw (m : Mod) : m.draw.2.kaScalar = m.kaScalar := rfl
@[simp] theorem Mod.spdm_draw (m : Mod) : m.draw.2.spdm = m.spdm := rfl
@[simp] theorem Mod.links_draw (m : Mod) : m.draw.2.links = m.links := rfl
@[simp] theorem Mod.jobs_draw (m : Mod) : m.draw.2.jobs = m.jobs := rfl
@[simp] theorem Mod.paths_draw (m : Mod) : m.draw.2.paths = m.paths := rfl
@[simp] theorem Mod.binds_draw (m : Mod) : m.draw.2.binds = m.binds := rfl
@[simp] theorem Mod.gov_draw (m : Mod) : m.draw.2.gov = m.gov := rfl
@[simp] theorem Mod.modRecords_draw (m : Mod) : m.draw.2.modRecords = m.modRecords := rfl
@[simp] theorem Mod.fabric_draw (m : Mod) : m.draw.2.fabric = m.fabric := rfl
@[simp] theorem Mod.beats_draw (m : Mod) : m.draw.2.beats = m.beats := rfl
@[simp] theorem Mod.holders_draw (m : Mod) : m.draw.2.holders = m.holders := rfl
@[simp] theorem Mod.ports_draw (m : Mod) : m.draw.2.ports = m.ports := rfl
@[simp] theorem Mod.resvSerial_draw (m : Mod) : m.draw.2.resvSerial = m.resvSerial := rfl
@[simp] theorem Mod.fresh_draw (m : Mod) : m.draw.2.fresh = m.fresh + 1 := rfl
@[simp] theorem Mod.draw_fst (m : Mod) : m.draw.1 = Config.free m.fresh := rfl

/-! ### Parts of a partition after an update -/

@[simp] theorem Partition.created_setReg (p : Partition) (off : Nat) (v : Word) : (p.setReg off v).created = p.created := rfl
@[simp] theorem Partition.tenant_setReg (p : Partition) (off : Nat) (v : Word) : (p.setReg off v).tenant = p.tenant := rfl
@[simp] theorem Partition.ctxs_setReg (p : Partition) (off : Nat) (v : Word) : (p.setReg off v).ctxs = p.ctxs := rfl
@[simp] theorem Partition.events_setReg (p : Partition) (off : Nat) (v : Word) : (p.setReg off v).events = p.events := rfl
@[simp] theorem Partition.evCopy_setReg (p : Partition) (off : Nat) (v : Word) : (p.setReg off v).evCopy = p.evCopy := rfl
@[simp] theorem Partition.resvs_setReg (p : Partition) (off : Nat) (v : Word) : (p.setReg off v).resvs = p.resvs := rfl
@[simp] theorem Partition.notices_setReg (p : Partition) (off : Nat) (v : Word) : (p.setReg off v).notices = p.notices := rfl
@[simp] theorem Partition.apQueue_setReg (p : Partition) (off : Nat) (v : Word) : (p.setReg off v).apQueue = p.apQueue := rfl
@[simp] theorem Partition.noticeRing_setReg (p : Partition) (off : Nat) (v : Word) : (p.setReg off v).noticeRing = p.noticeRing := rfl
@[simp] theorem Partition.trusses_setReg (p : Partition) (off : Nat) (v : Word) : (p.setReg off v).trusses = p.trusses := rfl
@[simp] theorem Partition.chans_setReg (p : Partition) (off : Nat) (v : Word) : (p.setReg off v).chans = p.chans := rfl
@[simp] theorem Partition.descWin_setReg (p : Partition) (off : Nat) (v : Word) : (p.setReg off v).descWin = p.descWin := rfl
@[simp] theorem Partition.gather_setReg (p : Partition) (off : Nat) (v : Word) : (p.setReg off v).gather = p.gather := rfl
@[simp] theorem Partition.hold_setReg (p : Partition) (off : Nat) (v : Word) : (p.setReg off v).hold = p.hold := rfl
@[simp] theorem Partition.lastCtx_setReg (p : Partition) (off : Nat) (v : Word) : (p.setReg off v).lastCtx = p.lastCtx := rfl
@[simp] theorem Partition.landSerial_setReg (p : Partition) (off : Nat) (v : Word) : (p.setReg off v).landSerial = p.landSerial := rfl
@[simp] theorem Partition.near_setReg (p : Partition) (off : Nat) (v : Word) : (p.setReg off v).near = p.near := rfl
@[simp] theorem Partition.ext_setReg (p : Partition) (off : Nat) (v : Word) : (p.setReg off v).ext = p.ext := rfl
@[simp] theorem Partition.nearPoison_setReg (p : Partition) (off : Nat) (v : Word) : (p.setReg off v).nearPoison = p.nearPoison := rfl
@[simp] theorem Partition.extPoison_setReg (p : Partition) (off : Nat) (v : Word) : (p.setReg off v).extPoison = p.extPoison := rfl
@[simp] theorem Partition.extKey_setReg (p : Partition) (off : Nat) (v : Word) : (p.setReg off v).extKey = p.extKey := rfl
@[simp] theorem Partition.cmpTables_setReg (p : Partition) (off : Nat) (v : Word) : (p.setReg off v).cmpTables = p.cmpTables := rfl
@[simp] theorem Partition.reservedKey_setReg (p : Partition) (off : Nat) (v : Word) : (p.setReg off v).reservedKey = p.reservedKey := rfl
@[simp] theorem Partition.shards_setReg (p : Partition) (off : Nat) (v : Word) : (p.setReg off v).shards = p.shards := rfl
@[simp] theorem Partition.scrub_setReg (p : Partition) (off : Nat) (v : Word) : (p.setReg off v).scrub = p.scrub := rfl
@[simp] theorem Partition.resetting_setReg (p : Partition) (off : Nat) (v : Word) : (p.setReg off v).resetting = p.resetting := rfl
@[simp] theorem Partition.records_setReg (p : Partition) (off : Nat) (v : Word) : (p.setReg off v).records = p.records := rfl
@[simp] theorem Partition.recordFacts_setReg (p : Partition) (off : Nat) (v : Word) : (p.setReg off v).recordFacts = p.recordFacts := rfl
@[simp] theorem Partition.recordCount_setReg (p : Partition) (off : Nat) (v : Word) : (p.setReg off v).recordCount = p.recordCount := rfl
@[simp] theorem Partition.resetNotice_setReg (p : Partition) (off : Nat) (v : Word) : (p.setReg off v).resetNotice = p.resetNotice := rfl
@[simp] theorem Partition.memObj_setReg (p : Partition) (off : Nat) (v : Word) : (p.setReg off v).memObj = p.memObj := rfl
@[simp] theorem Partition.mirrorWait_setReg (p : Partition) (off : Nat) (v : Word) : (p.setReg off v).mirrorWait = p.mirrorWait := rfl

@[simp] theorem Partition.created_setFld (p : Partition) (off hi lo v : Nat) : (p.setFld off hi lo v).created = p.created := rfl
@[simp] theorem Partition.tenant_setFld (p : Partition) (off hi lo v : Nat) : (p.setFld off hi lo v).tenant = p.tenant := rfl
@[simp] theorem Partition.ctxs_setFld (p : Partition) (off hi lo v : Nat) : (p.setFld off hi lo v).ctxs = p.ctxs := rfl
@[simp] theorem Partition.events_setFld (p : Partition) (off hi lo v : Nat) : (p.setFld off hi lo v).events = p.events := rfl
@[simp] theorem Partition.evCopy_setFld (p : Partition) (off hi lo v : Nat) : (p.setFld off hi lo v).evCopy = p.evCopy := rfl
@[simp] theorem Partition.resvs_setFld (p : Partition) (off hi lo v : Nat) : (p.setFld off hi lo v).resvs = p.resvs := rfl
@[simp] theorem Partition.notices_setFld (p : Partition) (off hi lo v : Nat) : (p.setFld off hi lo v).notices = p.notices := rfl
@[simp] theorem Partition.apQueue_setFld (p : Partition) (off hi lo v : Nat) : (p.setFld off hi lo v).apQueue = p.apQueue := rfl
@[simp] theorem Partition.noticeRing_setFld (p : Partition) (off hi lo v : Nat) : (p.setFld off hi lo v).noticeRing = p.noticeRing := rfl
@[simp] theorem Partition.trusses_setFld (p : Partition) (off hi lo v : Nat) : (p.setFld off hi lo v).trusses = p.trusses := rfl
@[simp] theorem Partition.chans_setFld (p : Partition) (off hi lo v : Nat) : (p.setFld off hi lo v).chans = p.chans := rfl
@[simp] theorem Partition.descWin_setFld (p : Partition) (off hi lo v : Nat) : (p.setFld off hi lo v).descWin = p.descWin := rfl
@[simp] theorem Partition.gather_setFld (p : Partition) (off hi lo v : Nat) : (p.setFld off hi lo v).gather = p.gather := rfl
@[simp] theorem Partition.hold_setFld (p : Partition) (off hi lo v : Nat) : (p.setFld off hi lo v).hold = p.hold := rfl
@[simp] theorem Partition.lastCtx_setFld (p : Partition) (off hi lo v : Nat) : (p.setFld off hi lo v).lastCtx = p.lastCtx := rfl
@[simp] theorem Partition.landSerial_setFld (p : Partition) (off hi lo v : Nat) : (p.setFld off hi lo v).landSerial = p.landSerial := rfl
@[simp] theorem Partition.near_setFld (p : Partition) (off hi lo v : Nat) : (p.setFld off hi lo v).near = p.near := rfl
@[simp] theorem Partition.ext_setFld (p : Partition) (off hi lo v : Nat) : (p.setFld off hi lo v).ext = p.ext := rfl
@[simp] theorem Partition.nearPoison_setFld (p : Partition) (off hi lo v : Nat) : (p.setFld off hi lo v).nearPoison = p.nearPoison := rfl
@[simp] theorem Partition.extPoison_setFld (p : Partition) (off hi lo v : Nat) : (p.setFld off hi lo v).extPoison = p.extPoison := rfl
@[simp] theorem Partition.extKey_setFld (p : Partition) (off hi lo v : Nat) : (p.setFld off hi lo v).extKey = p.extKey := rfl
@[simp] theorem Partition.cmpTables_setFld (p : Partition) (off hi lo v : Nat) : (p.setFld off hi lo v).cmpTables = p.cmpTables := rfl
@[simp] theorem Partition.reservedKey_setFld (p : Partition) (off hi lo v : Nat) : (p.setFld off hi lo v).reservedKey = p.reservedKey := rfl
@[simp] theorem Partition.shards_setFld (p : Partition) (off hi lo v : Nat) : (p.setFld off hi lo v).shards = p.shards := rfl
@[simp] theorem Partition.scrub_setFld (p : Partition) (off hi lo v : Nat) : (p.setFld off hi lo v).scrub = p.scrub := rfl
@[simp] theorem Partition.resetting_setFld (p : Partition) (off hi lo v : Nat) : (p.setFld off hi lo v).resetting = p.resetting := rfl
@[simp] theorem Partition.records_setFld (p : Partition) (off hi lo v : Nat) : (p.setFld off hi lo v).records = p.records := rfl
@[simp] theorem Partition.recordFacts_setFld (p : Partition) (off hi lo v : Nat) : (p.setFld off hi lo v).recordFacts = p.recordFacts := rfl
@[simp] theorem Partition.recordCount_setFld (p : Partition) (off hi lo v : Nat) : (p.setFld off hi lo v).recordCount = p.recordCount := rfl
@[simp] theorem Partition.resetNotice_setFld (p : Partition) (off hi lo v : Nat) : (p.setFld off hi lo v).resetNotice = p.resetNotice := rfl
@[simp] theorem Partition.memObj_setFld (p : Partition) (off hi lo v : Nat) : (p.setFld off hi lo v).memObj = p.memObj := rfl
@[simp] theorem Partition.mirrorWait_setFld (p : Partition) (off hi lo v : Nat) : (p.setFld off hi lo v).mirrorWait = p.mirrorWait := rfl

@[simp] theorem Partition.created_flag (p : Partition) (off i : Nat) : (p.flag off i).created = p.created := rfl
@[simp] theorem Partition.tenant_flag (p : Partition) (off i : Nat) : (p.flag off i).tenant = p.tenant := rfl
@[simp] theorem Partition.ctxs_flag (p : Partition) (off i : Nat) : (p.flag off i).ctxs = p.ctxs := rfl
@[simp] theorem Partition.events_flag (p : Partition) (off i : Nat) : (p.flag off i).events = p.events := rfl
@[simp] theorem Partition.evCopy_flag (p : Partition) (off i : Nat) : (p.flag off i).evCopy = p.evCopy := rfl
@[simp] theorem Partition.resvs_flag (p : Partition) (off i : Nat) : (p.flag off i).resvs = p.resvs := rfl
@[simp] theorem Partition.notices_flag (p : Partition) (off i : Nat) : (p.flag off i).notices = p.notices := rfl
@[simp] theorem Partition.apQueue_flag (p : Partition) (off i : Nat) : (p.flag off i).apQueue = p.apQueue := rfl
@[simp] theorem Partition.noticeRing_flag (p : Partition) (off i : Nat) : (p.flag off i).noticeRing = p.noticeRing := rfl
@[simp] theorem Partition.trusses_flag (p : Partition) (off i : Nat) : (p.flag off i).trusses = p.trusses := rfl
@[simp] theorem Partition.chans_flag (p : Partition) (off i : Nat) : (p.flag off i).chans = p.chans := rfl
@[simp] theorem Partition.descWin_flag (p : Partition) (off i : Nat) : (p.flag off i).descWin = p.descWin := rfl
@[simp] theorem Partition.gather_flag (p : Partition) (off i : Nat) : (p.flag off i).gather = p.gather := rfl
@[simp] theorem Partition.hold_flag (p : Partition) (off i : Nat) : (p.flag off i).hold = p.hold := rfl
@[simp] theorem Partition.lastCtx_flag (p : Partition) (off i : Nat) : (p.flag off i).lastCtx = p.lastCtx := rfl
@[simp] theorem Partition.landSerial_flag (p : Partition) (off i : Nat) : (p.flag off i).landSerial = p.landSerial := rfl
@[simp] theorem Partition.near_flag (p : Partition) (off i : Nat) : (p.flag off i).near = p.near := rfl
@[simp] theorem Partition.ext_flag (p : Partition) (off i : Nat) : (p.flag off i).ext = p.ext := rfl
@[simp] theorem Partition.nearPoison_flag (p : Partition) (off i : Nat) : (p.flag off i).nearPoison = p.nearPoison := rfl
@[simp] theorem Partition.extPoison_flag (p : Partition) (off i : Nat) : (p.flag off i).extPoison = p.extPoison := rfl
@[simp] theorem Partition.extKey_flag (p : Partition) (off i : Nat) : (p.flag off i).extKey = p.extKey := rfl
@[simp] theorem Partition.cmpTables_flag (p : Partition) (off i : Nat) : (p.flag off i).cmpTables = p.cmpTables := rfl
@[simp] theorem Partition.reservedKey_flag (p : Partition) (off i : Nat) : (p.flag off i).reservedKey = p.reservedKey := rfl
@[simp] theorem Partition.shards_flag (p : Partition) (off i : Nat) : (p.flag off i).shards = p.shards := rfl
@[simp] theorem Partition.scrub_flag (p : Partition) (off i : Nat) : (p.flag off i).scrub = p.scrub := rfl
@[simp] theorem Partition.resetting_flag (p : Partition) (off i : Nat) : (p.flag off i).resetting = p.resetting := rfl
@[simp] theorem Partition.records_flag (p : Partition) (off i : Nat) : (p.flag off i).records = p.records := rfl
@[simp] theorem Partition.recordFacts_flag (p : Partition) (off i : Nat) : (p.flag off i).recordFacts = p.recordFacts := rfl
@[simp] theorem Partition.recordCount_flag (p : Partition) (off i : Nat) : (p.flag off i).recordCount = p.recordCount := rfl
@[simp] theorem Partition.resetNotice_flag (p : Partition) (off i : Nat) : (p.flag off i).resetNotice = p.resetNotice := rfl
@[simp] theorem Partition.memObj_flag (p : Partition) (off i : Nat) : (p.flag off i).memObj = p.memObj := rfl
@[simp] theorem Partition.mirrorWait_flag (p : Partition) (off i : Nat) : (p.flag off i).mirrorWait = p.mirrorWait := rfl

@[simp] theorem Partition.created_count (p : Partition) (off hi lo n : Nat) : (p.count off hi lo n).created = p.created := rfl
@[simp] theorem Partition.tenant_count (p : Partition) (off hi lo n : Nat) : (p.count off hi lo n).tenant = p.tenant := rfl
@[simp] theorem Partition.ctxs_count (p : Partition) (off hi lo n : Nat) : (p.count off hi lo n).ctxs = p.ctxs := rfl
@[simp] theorem Partition.events_count (p : Partition) (off hi lo n : Nat) : (p.count off hi lo n).events = p.events := rfl
@[simp] theorem Partition.evCopy_count (p : Partition) (off hi lo n : Nat) : (p.count off hi lo n).evCopy = p.evCopy := rfl
@[simp] theorem Partition.resvs_count (p : Partition) (off hi lo n : Nat) : (p.count off hi lo n).resvs = p.resvs := rfl
@[simp] theorem Partition.notices_count (p : Partition) (off hi lo n : Nat) : (p.count off hi lo n).notices = p.notices := rfl
@[simp] theorem Partition.apQueue_count (p : Partition) (off hi lo n : Nat) : (p.count off hi lo n).apQueue = p.apQueue := rfl
@[simp] theorem Partition.noticeRing_count (p : Partition) (off hi lo n : Nat) : (p.count off hi lo n).noticeRing = p.noticeRing := rfl
@[simp] theorem Partition.trusses_count (p : Partition) (off hi lo n : Nat) : (p.count off hi lo n).trusses = p.trusses := rfl
@[simp] theorem Partition.chans_count (p : Partition) (off hi lo n : Nat) : (p.count off hi lo n).chans = p.chans := rfl
@[simp] theorem Partition.descWin_count (p : Partition) (off hi lo n : Nat) : (p.count off hi lo n).descWin = p.descWin := rfl
@[simp] theorem Partition.gather_count (p : Partition) (off hi lo n : Nat) : (p.count off hi lo n).gather = p.gather := rfl
@[simp] theorem Partition.hold_count (p : Partition) (off hi lo n : Nat) : (p.count off hi lo n).hold = p.hold := rfl
@[simp] theorem Partition.lastCtx_count (p : Partition) (off hi lo n : Nat) : (p.count off hi lo n).lastCtx = p.lastCtx := rfl
@[simp] theorem Partition.landSerial_count (p : Partition) (off hi lo n : Nat) : (p.count off hi lo n).landSerial = p.landSerial := rfl
@[simp] theorem Partition.near_count (p : Partition) (off hi lo n : Nat) : (p.count off hi lo n).near = p.near := rfl
@[simp] theorem Partition.ext_count (p : Partition) (off hi lo n : Nat) : (p.count off hi lo n).ext = p.ext := rfl
@[simp] theorem Partition.nearPoison_count (p : Partition) (off hi lo n : Nat) : (p.count off hi lo n).nearPoison = p.nearPoison := rfl
@[simp] theorem Partition.extPoison_count (p : Partition) (off hi lo n : Nat) : (p.count off hi lo n).extPoison = p.extPoison := rfl
@[simp] theorem Partition.extKey_count (p : Partition) (off hi lo n : Nat) : (p.count off hi lo n).extKey = p.extKey := rfl
@[simp] theorem Partition.cmpTables_count (p : Partition) (off hi lo n : Nat) : (p.count off hi lo n).cmpTables = p.cmpTables := rfl
@[simp] theorem Partition.reservedKey_count (p : Partition) (off hi lo n : Nat) : (p.count off hi lo n).reservedKey = p.reservedKey := rfl
@[simp] theorem Partition.shards_count (p : Partition) (off hi lo n : Nat) : (p.count off hi lo n).shards = p.shards := rfl
@[simp] theorem Partition.scrub_count (p : Partition) (off hi lo n : Nat) : (p.count off hi lo n).scrub = p.scrub := rfl
@[simp] theorem Partition.resetting_count (p : Partition) (off hi lo n : Nat) : (p.count off hi lo n).resetting = p.resetting := rfl
@[simp] theorem Partition.records_count (p : Partition) (off hi lo n : Nat) : (p.count off hi lo n).records = p.records := rfl
@[simp] theorem Partition.recordFacts_count (p : Partition) (off hi lo n : Nat) : (p.count off hi lo n).recordFacts = p.recordFacts := rfl
@[simp] theorem Partition.recordCount_count (p : Partition) (off hi lo n : Nat) : (p.count off hi lo n).recordCount = p.recordCount := rfl
@[simp] theorem Partition.resetNotice_count (p : Partition) (off hi lo n : Nat) : (p.count off hi lo n).resetNotice = p.resetNotice := rfl
@[simp] theorem Partition.memObj_count (p : Partition) (off hi lo n : Nat) : (p.count off hi lo n).memObj = p.memObj := rfl
@[simp] theorem Partition.mirrorWait_count (p : Partition) (off hi lo n : Nat) : (p.count off hi lo n).mirrorWait = p.mirrorWait := rfl

@[simp] theorem Partition.created_modCtx (p : Partition) (c : Nat) (f : Context → Context) : (p.modCtx c f).created = p.created := rfl
@[simp] theorem Partition.tenant_modCtx (p : Partition) (c : Nat) (f : Context → Context) : (p.modCtx c f).tenant = p.tenant := rfl
@[simp] theorem Partition.regs_modCtx (p : Partition) (c : Nat) (f : Context → Context) : (p.modCtx c f).regs = p.regs := rfl
@[simp] theorem Partition.events_modCtx (p : Partition) (c : Nat) (f : Context → Context) : (p.modCtx c f).events = p.events := rfl
@[simp] theorem Partition.evCopy_modCtx (p : Partition) (c : Nat) (f : Context → Context) : (p.modCtx c f).evCopy = p.evCopy := rfl
@[simp] theorem Partition.resvs_modCtx (p : Partition) (c : Nat) (f : Context → Context) : (p.modCtx c f).resvs = p.resvs := rfl
@[simp] theorem Partition.notices_modCtx (p : Partition) (c : Nat) (f : Context → Context) : (p.modCtx c f).notices = p.notices := rfl
@[simp] theorem Partition.apQueue_modCtx (p : Partition) (c : Nat) (f : Context → Context) : (p.modCtx c f).apQueue = p.apQueue := rfl
@[simp] theorem Partition.noticeRing_modCtx (p : Partition) (c : Nat) (f : Context → Context) : (p.modCtx c f).noticeRing = p.noticeRing := rfl
@[simp] theorem Partition.trusses_modCtx (p : Partition) (c : Nat) (f : Context → Context) : (p.modCtx c f).trusses = p.trusses := rfl
@[simp] theorem Partition.chans_modCtx (p : Partition) (c : Nat) (f : Context → Context) : (p.modCtx c f).chans = p.chans := rfl
@[simp] theorem Partition.descWin_modCtx (p : Partition) (c : Nat) (f : Context → Context) : (p.modCtx c f).descWin = p.descWin := rfl
@[simp] theorem Partition.gather_modCtx (p : Partition) (c : Nat) (f : Context → Context) : (p.modCtx c f).gather = p.gather := rfl
@[simp] theorem Partition.hold_modCtx (p : Partition) (c : Nat) (f : Context → Context) : (p.modCtx c f).hold = p.hold := rfl
@[simp] theorem Partition.lastCtx_modCtx (p : Partition) (c : Nat) (f : Context → Context) : (p.modCtx c f).lastCtx = p.lastCtx := rfl
@[simp] theorem Partition.landSerial_modCtx (p : Partition) (c : Nat) (f : Context → Context) : (p.modCtx c f).landSerial = p.landSerial := rfl
@[simp] theorem Partition.near_modCtx (p : Partition) (c : Nat) (f : Context → Context) : (p.modCtx c f).near = p.near := rfl
@[simp] theorem Partition.ext_modCtx (p : Partition) (c : Nat) (f : Context → Context) : (p.modCtx c f).ext = p.ext := rfl
@[simp] theorem Partition.nearPoison_modCtx (p : Partition) (c : Nat) (f : Context → Context) : (p.modCtx c f).nearPoison = p.nearPoison := rfl
@[simp] theorem Partition.extPoison_modCtx (p : Partition) (c : Nat) (f : Context → Context) : (p.modCtx c f).extPoison = p.extPoison := rfl
@[simp] theorem Partition.extKey_modCtx (p : Partition) (c : Nat) (f : Context → Context) : (p.modCtx c f).extKey = p.extKey := rfl
@[simp] theorem Partition.cmpTables_modCtx (p : Partition) (c : Nat) (f : Context → Context) : (p.modCtx c f).cmpTables = p.cmpTables := rfl
@[simp] theorem Partition.reservedKey_modCtx (p : Partition) (c : Nat) (f : Context → Context) : (p.modCtx c f).reservedKey = p.reservedKey := rfl
@[simp] theorem Partition.shards_modCtx (p : Partition) (c : Nat) (f : Context → Context) : (p.modCtx c f).shards = p.shards := rfl
@[simp] theorem Partition.scrub_modCtx (p : Partition) (c : Nat) (f : Context → Context) : (p.modCtx c f).scrub = p.scrub := rfl
@[simp] theorem Partition.resetting_modCtx (p : Partition) (c : Nat) (f : Context → Context) : (p.modCtx c f).resetting = p.resetting := rfl
@[simp] theorem Partition.records_modCtx (p : Partition) (c : Nat) (f : Context → Context) : (p.modCtx c f).records = p.records := rfl
@[simp] theorem Partition.recordFacts_modCtx (p : Partition) (c : Nat) (f : Context → Context) : (p.modCtx c f).recordFacts = p.recordFacts := rfl
@[simp] theorem Partition.recordCount_modCtx (p : Partition) (c : Nat) (f : Context → Context) : (p.modCtx c f).recordCount = p.recordCount := rfl
@[simp] theorem Partition.resetNotice_modCtx (p : Partition) (c : Nat) (f : Context → Context) : (p.modCtx c f).resetNotice = p.resetNotice := rfl
@[simp] theorem Partition.memObj_modCtx (p : Partition) (c : Nat) (f : Context → Context) : (p.modCtx c f).memObj = p.memObj := rfl
@[simp] theorem Partition.mirrorWait_modCtx (p : Partition) (c : Nat) (f : Context → Context) : (p.modCtx c f).mirrorWait = p.mirrorWait := rfl

@[simp] theorem Partition.created_modTruss (p : Partition) (t : Nat) (f : Truss → Truss) : (p.modTruss t f).created = p.created := rfl
@[simp] theorem Partition.tenant_modTruss (p : Partition) (t : Nat) (f : Truss → Truss) : (p.modTruss t f).tenant = p.tenant := rfl
@[simp] theorem Partition.regs_modTruss (p : Partition) (t : Nat) (f : Truss → Truss) : (p.modTruss t f).regs = p.regs := rfl
@[simp] theorem Partition.ctxs_modTruss (p : Partition) (t : Nat) (f : Truss → Truss) : (p.modTruss t f).ctxs = p.ctxs := rfl
@[simp] theorem Partition.events_modTruss (p : Partition) (t : Nat) (f : Truss → Truss) : (p.modTruss t f).events = p.events := rfl
@[simp] theorem Partition.evCopy_modTruss (p : Partition) (t : Nat) (f : Truss → Truss) : (p.modTruss t f).evCopy = p.evCopy := rfl
@[simp] theorem Partition.resvs_modTruss (p : Partition) (t : Nat) (f : Truss → Truss) : (p.modTruss t f).resvs = p.resvs := rfl
@[simp] theorem Partition.notices_modTruss (p : Partition) (t : Nat) (f : Truss → Truss) : (p.modTruss t f).notices = p.notices := rfl
@[simp] theorem Partition.apQueue_modTruss (p : Partition) (t : Nat) (f : Truss → Truss) : (p.modTruss t f).apQueue = p.apQueue := rfl
@[simp] theorem Partition.noticeRing_modTruss (p : Partition) (t : Nat) (f : Truss → Truss) : (p.modTruss t f).noticeRing = p.noticeRing := rfl
@[simp] theorem Partition.chans_modTruss (p : Partition) (t : Nat) (f : Truss → Truss) : (p.modTruss t f).chans = p.chans := rfl
@[simp] theorem Partition.descWin_modTruss (p : Partition) (t : Nat) (f : Truss → Truss) : (p.modTruss t f).descWin = p.descWin := rfl
@[simp] theorem Partition.gather_modTruss (p : Partition) (t : Nat) (f : Truss → Truss) : (p.modTruss t f).gather = p.gather := rfl
@[simp] theorem Partition.hold_modTruss (p : Partition) (t : Nat) (f : Truss → Truss) : (p.modTruss t f).hold = p.hold := rfl
@[simp] theorem Partition.lastCtx_modTruss (p : Partition) (t : Nat) (f : Truss → Truss) : (p.modTruss t f).lastCtx = p.lastCtx := rfl
@[simp] theorem Partition.landSerial_modTruss (p : Partition) (t : Nat) (f : Truss → Truss) : (p.modTruss t f).landSerial = p.landSerial := rfl
@[simp] theorem Partition.near_modTruss (p : Partition) (t : Nat) (f : Truss → Truss) : (p.modTruss t f).near = p.near := rfl
@[simp] theorem Partition.ext_modTruss (p : Partition) (t : Nat) (f : Truss → Truss) : (p.modTruss t f).ext = p.ext := rfl
@[simp] theorem Partition.nearPoison_modTruss (p : Partition) (t : Nat) (f : Truss → Truss) : (p.modTruss t f).nearPoison = p.nearPoison := rfl
@[simp] theorem Partition.extPoison_modTruss (p : Partition) (t : Nat) (f : Truss → Truss) : (p.modTruss t f).extPoison = p.extPoison := rfl
@[simp] theorem Partition.extKey_modTruss (p : Partition) (t : Nat) (f : Truss → Truss) : (p.modTruss t f).extKey = p.extKey := rfl
@[simp] theorem Partition.cmpTables_modTruss (p : Partition) (t : Nat) (f : Truss → Truss) : (p.modTruss t f).cmpTables = p.cmpTables := rfl
@[simp] theorem Partition.reservedKey_modTruss (p : Partition) (t : Nat) (f : Truss → Truss) : (p.modTruss t f).reservedKey = p.reservedKey := rfl
@[simp] theorem Partition.shards_modTruss (p : Partition) (t : Nat) (f : Truss → Truss) : (p.modTruss t f).shards = p.shards := rfl
@[simp] theorem Partition.scrub_modTruss (p : Partition) (t : Nat) (f : Truss → Truss) : (p.modTruss t f).scrub = p.scrub := rfl
@[simp] theorem Partition.resetting_modTruss (p : Partition) (t : Nat) (f : Truss → Truss) : (p.modTruss t f).resetting = p.resetting := rfl
@[simp] theorem Partition.records_modTruss (p : Partition) (t : Nat) (f : Truss → Truss) : (p.modTruss t f).records = p.records := rfl
@[simp] theorem Partition.recordFacts_modTruss (p : Partition) (t : Nat) (f : Truss → Truss) : (p.modTruss t f).recordFacts = p.recordFacts := rfl
@[simp] theorem Partition.recordCount_modTruss (p : Partition) (t : Nat) (f : Truss → Truss) : (p.modTruss t f).recordCount = p.recordCount := rfl
@[simp] theorem Partition.resetNotice_modTruss (p : Partition) (t : Nat) (f : Truss → Truss) : (p.modTruss t f).resetNotice = p.resetNotice := rfl
@[simp] theorem Partition.memObj_modTruss (p : Partition) (t : Nat) (f : Truss → Truss) : (p.modTruss t f).memObj = p.memObj := rfl
@[simp] theorem Partition.mirrorWait_modTruss (p : Partition) (t : Nat) (f : Truss → Truss) : (p.modTruss t f).mirrorWait = p.mirrorWait := rfl

@[simp] theorem Partition.created_modChan (p : Partition) (ch : Nat) (f : Channel → Channel) : (p.modChan ch f).created = p.created := rfl
@[simp] theorem Partition.tenant_modChan (p : Partition) (ch : Nat) (f : Channel → Channel) : (p.modChan ch f).tenant = p.tenant := rfl
@[simp] theorem Partition.regs_modChan (p : Partition) (ch : Nat) (f : Channel → Channel) : (p.modChan ch f).regs = p.regs := rfl
@[simp] theorem Partition.ctxs_modChan (p : Partition) (ch : Nat) (f : Channel → Channel) : (p.modChan ch f).ctxs = p.ctxs := rfl
@[simp] theorem Partition.events_modChan (p : Partition) (ch : Nat) (f : Channel → Channel) : (p.modChan ch f).events = p.events := rfl
@[simp] theorem Partition.evCopy_modChan (p : Partition) (ch : Nat) (f : Channel → Channel) : (p.modChan ch f).evCopy = p.evCopy := rfl
@[simp] theorem Partition.resvs_modChan (p : Partition) (ch : Nat) (f : Channel → Channel) : (p.modChan ch f).resvs = p.resvs := rfl
@[simp] theorem Partition.notices_modChan (p : Partition) (ch : Nat) (f : Channel → Channel) : (p.modChan ch f).notices = p.notices := rfl
@[simp] theorem Partition.apQueue_modChan (p : Partition) (ch : Nat) (f : Channel → Channel) : (p.modChan ch f).apQueue = p.apQueue := rfl
@[simp] theorem Partition.noticeRing_modChan (p : Partition) (ch : Nat) (f : Channel → Channel) : (p.modChan ch f).noticeRing = p.noticeRing := rfl
@[simp] theorem Partition.trusses_modChan (p : Partition) (ch : Nat) (f : Channel → Channel) : (p.modChan ch f).trusses = p.trusses := rfl
@[simp] theorem Partition.descWin_modChan (p : Partition) (ch : Nat) (f : Channel → Channel) : (p.modChan ch f).descWin = p.descWin := rfl
@[simp] theorem Partition.gather_modChan (p : Partition) (ch : Nat) (f : Channel → Channel) : (p.modChan ch f).gather = p.gather := rfl
@[simp] theorem Partition.hold_modChan (p : Partition) (ch : Nat) (f : Channel → Channel) : (p.modChan ch f).hold = p.hold := rfl
@[simp] theorem Partition.lastCtx_modChan (p : Partition) (ch : Nat) (f : Channel → Channel) : (p.modChan ch f).lastCtx = p.lastCtx := rfl
@[simp] theorem Partition.landSerial_modChan (p : Partition) (ch : Nat) (f : Channel → Channel) : (p.modChan ch f).landSerial = p.landSerial := rfl
@[simp] theorem Partition.near_modChan (p : Partition) (ch : Nat) (f : Channel → Channel) : (p.modChan ch f).near = p.near := rfl
@[simp] theorem Partition.ext_modChan (p : Partition) (ch : Nat) (f : Channel → Channel) : (p.modChan ch f).ext = p.ext := rfl
@[simp] theorem Partition.nearPoison_modChan (p : Partition) (ch : Nat) (f : Channel → Channel) : (p.modChan ch f).nearPoison = p.nearPoison := rfl
@[simp] theorem Partition.extPoison_modChan (p : Partition) (ch : Nat) (f : Channel → Channel) : (p.modChan ch f).extPoison = p.extPoison := rfl
@[simp] theorem Partition.extKey_modChan (p : Partition) (ch : Nat) (f : Channel → Channel) : (p.modChan ch f).extKey = p.extKey := rfl
@[simp] theorem Partition.cmpTables_modChan (p : Partition) (ch : Nat) (f : Channel → Channel) : (p.modChan ch f).cmpTables = p.cmpTables := rfl
@[simp] theorem Partition.reservedKey_modChan (p : Partition) (ch : Nat) (f : Channel → Channel) : (p.modChan ch f).reservedKey = p.reservedKey := rfl
@[simp] theorem Partition.shards_modChan (p : Partition) (ch : Nat) (f : Channel → Channel) : (p.modChan ch f).shards = p.shards := rfl
@[simp] theorem Partition.scrub_modChan (p : Partition) (ch : Nat) (f : Channel → Channel) : (p.modChan ch f).scrub = p.scrub := rfl
@[simp] theorem Partition.resetting_modChan (p : Partition) (ch : Nat) (f : Channel → Channel) : (p.modChan ch f).resetting = p.resetting := rfl
@[simp] theorem Partition.records_modChan (p : Partition) (ch : Nat) (f : Channel → Channel) : (p.modChan ch f).records = p.records := rfl
@[simp] theorem Partition.recordFacts_modChan (p : Partition) (ch : Nat) (f : Channel → Channel) : (p.modChan ch f).recordFacts = p.recordFacts := rfl
@[simp] theorem Partition.recordCount_modChan (p : Partition) (ch : Nat) (f : Channel → Channel) : (p.modChan ch f).recordCount = p.recordCount := rfl
@[simp] theorem Partition.resetNotice_modChan (p : Partition) (ch : Nat) (f : Channel → Channel) : (p.modChan ch f).resetNotice = p.resetNotice := rfl
@[simp] theorem Partition.memObj_modChan (p : Partition) (ch : Nat) (f : Channel → Channel) : (p.modChan ch f).memObj = p.memObj := rfl
@[simp] theorem Partition.mirrorWait_modChan (p : Partition) (ch : Nat) (f : Channel → Channel) : (p.modChan ch f).mirrorWait = p.mirrorWait := rfl

end Sys2Proof.Machine
end

