-- ==== Sys2Proof/Laws/Memory.lean ====
section
/-!
SUPPORT. The operations over scratchpads and memory: each keeps the canonical form, and what a range reads after a write.
-/

namespace Sys2Proof.Machine

/-! ### Scratchpads -/

/-- The three stores of a truss in canonical form. -/
def Truss.wf (t : Truss) : Prop := Memory.wf t.ws = true ∧ Memory.wf t.as = true ∧ Memory.wf t.ps = true

theorem Truss.reset_wf : Truss.reset.wf := ⟨rfl, rfl, rfl⟩

theorem Truss.cells_wf {t : Truss} (h : t.wf) (st : Nat) : Memory.wf (t.cells st) = true := by
  unfold Truss.cells
  split
  · exact h.1
  · split
    · exact h.2.1
    · exact h.2.2

theorem Truss.setStore_wf {t : Truss} (h : t.wf) (st : Nat) {c : Cells} (hc : Memory.wf c = true) (bad : List Nat) :
    (t.setStore st c bad).wf := by
  unfold Truss.setStore
  split
  · exact ⟨hc, h.2.1, h.2.2⟩
  · split
    · exact ⟨h.1, hc, h.2.2⟩
    · exact ⟨h.1, h.2.1, hc⟩

@[simp] theorem Truss.cells_setStore (t : Truss) (st : Nat) (c : Cells) (bad : List Nat) :
    (t.setStore st c bad).cells st = c := by
  unfold Truss.setStore Truss.cells
  split
  · simp
  · split <;> simp_all

@[simp] theorem Truss.bad_setStore (t : Truss) (st : Nat) (c : Cells) (bad : List Nat) :
    (t.setStore st c bad).bad st = bad := by
  unfold Truss.setStore Truss.bad
  split
  · simp
  · split <;> simp_all

theorem writeSkip_wf : ∀ (blocked : List Nat) {m : Cells} (a : Nat) (bs : List Byte), Memory.wf m = true →
    Memory.wf (writeSkip blocked m a bs) = true
  | _, _, _, [], h => h
  | blocked, m, a, b :: bs, h => by
    unfold writeSkip
    apply writeSkip_wf
    split
    · exact h
    · exact Sparse.set_wf a b h

/-- A write to a store keeps the canonical form. -/
theorem Truss.write_wf {t : Truss} (h : t.wf) (st a : Nat) (bs : List Byte) : (t.write st a bs).wf := by
  unfold Truss.write
  apply Truss.setStore_wf h
  split
  · exact Cells.write_wf a bs (Truss.cells_wf h st)
  · exact writeSkip_wf _ a bs (Truss.cells_wf h st)

/-- A word going bad keeps the canonical form. -/
theorem Truss.spoil_wf {t : Truss} (h : t.wf) (st w : Nat) : (t.spoil st w).wf := by
  unfold Truss.spoil
  split
  · exact h
  · exact Truss.setStore_wf h st (Truss.cells_wf h st) _

/-! ### Memory -/

/-- The byte memories of a partition in canonical form. -/
def Partition.memWf (p : Partition) : Prop := Memory.wf p.near = true ∧ Memory.wf p.ext = true

theorem Partition.reset_memWf : Partition.reset.memWf := ⟨rfl, rfl⟩

/-- Putting bytes into memory keeps the canonical form. -/
theorem Partition.putBytes_memWf {p : Partition} (h : p.memWf) (k key loc : Nat) (bs : List Byte) :
    (p.putBytes k key loc bs).memWf := by
  unfold Partition.putBytes
  simp only
  split
  · split
    · exact ⟨h.1, Cells.write_wf _ _ h.2⟩
    · exact ⟨h.1, Cells.write_wf _ _ (Cells.write_wf _ _ h.2)⟩
  · exact ⟨Cells.write_wf _ _ h.1, h.2⟩

theorem Partition.setPoison_memWf {p : Partition} (h : p.memWf) (g : Nat) (b : Bool) : (p.setPoison g b).memWf := by
  unfold Partition.setPoison
  simp only
  split <;> exact h

theorem foldl_set_wf (f : Host.Cell → Nat) : ∀ (bs : Cells) {m : Cells}, Memory.wf m = true →
    Memory.wf (bs.foldl (fun (a : Cells) (c : Host.Cell) => Sparse.set (f c) c.2 a) m) = true
  | [], _, h => h
  | c :: bs, _, h => foldl_set_wf f bs (Sparse.set_wf (f c) c.2 h)

/-- Copying a fault record into memory keeps the canonical form. -/
theorem Partition.putRange_memWf {p : Partition} (h : p.memWf) (key dst n : Nat) (bs : Cells) :
    (p.putRange key dst n bs).memWf := by
  unfold Partition.putRange
  simp only
  split
  · exact ⟨h.1, foldl_set_wf _ bs (Cells.clear_wf _ _ _ h.2)⟩
  · exact ⟨foldl_set_wf _ bs (Cells.clear_wf _ _ _ h.1), h.2⟩

end Sys2Proof.Machine
end

