-- ==== Sys2Proof/Certificates/Slice0/Obligations.lean ====
section
/-!
DEFINITION. The statements about the block, for the provers: what each command does, what it leaves, and what every step
keeps.
-/

namespace Sys2Proof.Claims
open Sys2Proof.Machine

/-! ### Vocabulary -/

/-- A command answers the next state in which the module is `m` and the queue stands. -/
def Gives (c : Instr) (s : State) (m : Mod) : Prop := exec c s = .next { s with mod := m }

/-- The module has power (19 R423). -/
def On (s : State) : Prop := s.mod.power.pgOut = true

/-- The module has power and its PCIe link is up (02 R62). -/
def Linked (s : State) : Prop := On s ∧ s.mod.pcieUp = true

/-- The module has power and Molique runs (02 R62). -/
def Live (s : State) : Prop := On s ∧ s.mod.running = true

/-- The module has power and has not halted (02 R62, 18 R416). -/
def Alive (s : State) : Prop := On s ∧ s.mod.boot.stage ≠ 0xF

/-- The module once the first taken request has left the queue of those that wait for their turn. -/
def turned (s : State) (rest : List Request) : Mod := { s.mod with taken := rest }

/-- The turn of request `r` has come, no partition it acts on is missing or under reset (02 R59, 17 R373, 18 R405), and it
supersedes none of those behind it (02 R60). -/
def Turn (s : State) (r : Request) (rest : List Request) : Prop :=
  On s ∧ s.mod.taken = r :: rest ∧ (turned s rest).orphan r = false ∧ (turned s rest).resetBlocks r = false ∧
    ∀ h ∈ rest, supersedes r h = none

/-- The request of the mailbox that a row acts on: its issuer, opcode and sub-operation; a sub-operation that the spec does not
give is refused by the first row of its opcode (assumption 20). -/
def mailboxRow : Instr → Request → Bool
  | .identGet f, r => r.fn == f && r.opcode == 0x01
  | .healthGet f, r => r.fn == f && r.opcode == 0x02
  | .fwLoad, r => r.fn == .pf && r.opcode == 0x03
  | .fwLoadChunk, r => r.fn == .mgmt && r.opcode == 0x03
  | .partCreate f, r => r.fn == f && r.opcode == 0x10 && pcOp r.payload != 2
  | .partDelete f, r => r.fn == f && r.opcode == 0x10 && pcOp r.payload == 2
  | .partReset f, r => r.fn == f && r.opcode == 0x11
  | .ctxCreate f, r => r.fn == f && r.opcode == 0x12
  | .frameLoad f _, r => r.fn == f && r.opcode == 0x20
  | .resvOpen f, r => r.fn == f && r.opcode == 0x21
  | .resvClose f, r => r.fn == f && r.opcode == 0x22
  | .keyLoadPlain f, r => r.fn == f && r.opcode == 0x30 && !([2, 3, 4, 5].contains (klOp r.payload))
  | .keyLoadWrapped f, r => r.fn == f && r.opcode == 0x30 && klOp r.payload == 2
  | .keyLoadGenerate f, r => r.fn == f && r.opcode == 0x30 && klOp r.payload == 3
  | .keyBindMem f, r => r.fn == f && r.opcode == 0x30 && klOp r.payload == 4
  | .keyUnbindMem f, r => r.fn == f && r.opcode == 0x30 && klOp r.payload == 5
  | .keyErase f, r => r.fn == f && r.opcode == 0x31 && !bit (fld r.payload 2 1) 0
  | .keyEraseNow f, r => r.fn == f && r.opcode == 0x31 && bit (fld r.payload 2 1) 0
  | .shardFetch f, r => r.fn == f && r.opcode == 0x40 && shOp r.payload != 2 && shOp r.payload != 3
  | .shardCopy f, r => r.fn == f && r.opcode == 0x40 && shOp r.payload == 2
  | .shardDetach f, r => r.fn == f && r.opcode == 0x40 && shOp r.payload == 3
  | .linkGrant f, r => r.fn == f && r.opcode == 0x50 && fld r.payload 0 1 != 2
  | .linkRelease f, r => r.fn == f && r.opcode == 0x50 && fld r.payload 0 1 == 2
  | .sisterBind f, r => r.fn == f && r.opcode == 0x51 && fld r.payload 0 1 != 2 && fld r.payload 0 1 != 3
  | .sisterUnbind f, r => r.fn == f && r.opcode == 0x51 && fld r.payload 0 1 == 2
  | .sisterTakeover f, r => r.fn == f && r.opcode == 0x51 && fld r.payload 0 1 == 3
  | .faultReadPartition f _, r => r.fn == f && r.opcode == 0x60 && frKind r.payload != 2 && frKind r.payload != 3
  | .faultReadModule f, r => r.fn == f && r.opcode == 0x60 && frKind r.payload == 2
  | .faultReadSupersedeLog f, r => r.fn == f && r.opcode == 0x60 && frKind r.payload == 3
  | .attestGet f, r => r.fn == f && r.opcode == 0x70
  | .pwrSet f, r => r.fn == f && r.opcode == 0x80
  | _, _ => false

/-- No key slot is being erased (17 R376). -/
def NoErase (s : State) : Prop := ∀ e ∈ s.mod.keys, e.2.state ≠ .erasing

/-- A function's write reaches a register of a partition that exists and is not under reset (20 R450, R451). -/
def Writes (s : State) (f : Fn) (k : Nat) : Prop := Linked s ∧ s.mod.writable f k = true

/-- A node instance runs, with its run, its frame's image and its member, and no Shutdown stands (04 R100, 19 R432). -/
def Runs (s : State) (k c node member : Nat) (u : Run) (img : List Byte) (mb : Member) : Prop :=
  On s ∧ s.mod.shutStands = false ∧ s.mod.nodeAt k c node member = some (u, img, mb)

/-- A speculation node of an operation that may act. -/
def Acts (s : State) (k c node member op : Nat) (u : Run) (img : List Byte) (mb : Member) : Prop :=
  Runs s k c node member u img mb ∧ nodeUnit img node = 6 ∧ specOp (nodeBody img node) = op ∧
    (s.mod.part k).hasDesc c node member = false ∧ (s.mod.part k).mirrorWait = []

/-- The channel of a node's priority is in service (10 R239). -/
def ChannelOn (s : State) (k node : Nat) (img : List Byte) : Prop :=
  getB ((s.mod.part k).reg (offChCtrl (nodePrio img node % 16))) 0 = false

/-- Descriptors stand behind those of a channel in their order; memory, scratchpads and other partitions are as before. -/
def Pushed (s : State) (m : Mod) (k ch : Nat) (ds : List Desc) : Prop :=
  ((m.part k).chan ch).queue ++ ((m.part k).chan ch).waiting =
      ((s.mod.part k).chan ch).queue ++ ((s.mod.part k).chan ch).waiting ++ ds ∧
    (m.part k).near = (s.mod.part k).near ∧ (m.part k).ext = (s.mod.part k).ext ∧
    (m.part k).trusses = (s.mod.part k).trusses ∧ ∀ j, j ≠ k → m.part j = s.mod.part j

/-- The head of a channel is a walker's or a lane's descriptor that serves a node instance, and its next unit, at offset
`at'`, may move. -/
def LaneUnit (s : State) (k ch c node member at' : Nat) (d : Desc) (u : Run) (img : List Byte) (mb : Member) : Prop :=
  On s ∧ ((s.mod.part k).chan ch).queue.head? = some d ∧ s.mod.unitMoves k ch = true ∧ d.owner = .node c node member ∧
    s.mod.descNode k d = some (u, img, node, member, mb) ∧ ((s.mod.part k).chan ch).written = at' ∧
    s.mod.sidesOk k ch d at' = true

/-- After a function-level reset, partition `k` is under reset: one that began now names the cause FLR and the issuer `d`, one
that stood was joined (18 R401). -/
def resetBegun (s : State) (m : Mod) (k d : Nat) : Prop :=
  (∀ z, (s.mod.part k).resetting = some z → (m.part k).resetting = some { z with joined := true }) ∧
    ((s.mod.part k).resetting = none → ∃ z, (m.part k).resetting = some z ∧ z.phase = 1 ∧ z.cause = 3 ∧ z.cdetail = d ∧
      z.t0 = s.mod.devtime ∧ z.joined = false)

/-- The bytes that a command carries as one PCIe write. -/
def hostBytes : Instr → Option (List Byte)
  | .launchRecord _ _ _ _ d => some d
  | .dmaDescHostPush _ _ _ d => some d
  | .hostApertureWrite _ _ d _ => some d
  | .bar2Write _ _ d _ => some d
  | .eventHostWrite _ _ _ d => some d
  | .registerWrite _ _ _ (.write d) => some d
  | _ => none

/-- Whether a command is one of the two that the power pin gives a module without power. -/
def powerPin : Instr → Bool
  | .powerEnable _ _ _ => true
  | .powerDisable _ => true
  | _ => false

/-- The modes and bounds that no step leaves: a boot stage of 02 R62, at most 64 VFs (02 R43), a thermal level of 19 R430, a
cap of 19 R425, 100 power samples, 16 module records (18 R408), 256 entries of the supersede log (02 R61). -/
def ModInv (m : Mod) : Prop :=
  (m.boot.stage ≤ 8 ∨ m.boot.stage = 15) ∧ m.pcie.numVfs ≤ 64 ∧ m.gov.level ≤ 3 ∧ (1000 ≤ m.gov.cap ∧ m.gov.cap ≤ 3300) ∧
    m.gov.samples.length ≤ 100 ∧ m.modRecords.length ≤ 16 ∧ m.supersede.length ≤ 256

/-- The registers of a partition that the host stores and clears by plain rules. -/
def plainRegs : List Nat :=
  [offBar2Sel, offShardScrub, offWdogCfg, offPfSel, offQnt, offNmEcc, offXmEcc, offCmpStatus, offShardStatus, offDmaErr,
    offKvStatus, offSpecStatus, offKsStatus, offSpEcc, offWdogStatus, offEvtStatus]

end Sys2Proof.Claims

open Sys2Proof Sys2Proof.Machine Sys2Proof.Claims

/-! ### The queue, power and the whole machine -/

/-- A step of a queue with a command in front runs that command on the module with the queue's rest. -/
def Obligations.StepRunsFrontCommand : Prop :=
  ∀ (c : Instr) (rest : List Instr) (m : Mod),
    step { pending := c :: rest, mod := m } = exec c { pending := rest, mod := m }

/-- On an empty queue one nanosecond passes in a powered module that slews by less than one (assumption 3: the model's
tick); nothing else moves. -/
def Obligations.IdleStepCountsTime : Prop :=
  ∀ m : Mod, m.power.pgOut = true → -1000 < m.time.subPs → m.time.subPs < 1000 →
    step { pending := [], mod := m } = .next { pending := [], mod := { m with devtime := m.devtime + 1 } }

/-- Every command answers a next state with the queue as it stood; only a write of no byte, or of more than the 512 of
Max Payload Size, is no PCIe write and faults. Where the spec leaves its form open this is the model's choice
(assumptions 2 and 5). -/
def Obligations.CommandsNeverStop : Prop :=
  ∀ (c : Instr) (s : State),
    match hostBytes c with
    | none => ∃ m, Gives c s m
    | some d => if 0 < d.length ∧ d.length ≤ 512 then ∃ m, Gives c s m else exec c s = .fault .illFormedWrite

/-- Without power no command but those of the power pin changes anything. Where the spec leaves its form open this is
the model's choice (assumption 2). -/
def Obligations.NothingActsWithoutPower : Prop :=
  ∀ (c : Instr) (s : State), s.mod.power.pgOut = false → powerPin c = false →
    (∀ d, hostBytes c = some d → 0 < d.length ∧ d.length ≤ 512) → Gives c s s.mod

/-- The reset state meets the invariant. -/
def Obligations.ResetMeetsInvariant : Prop :=
 ModInv State.reset.mod

/-- Every step from a state that meets the invariant leads to one that meets it. -/
def Obligations.StepsKeepInvariant : Prop :=
  ∀ s t : State, ModInv s.mod → step s = .next t → ModInv t.mod

/-- The values of 02 R69 after reset: registers at their reset values, the cap, and nothing created. -/
def Obligations.ResetValues : Prop :=
  let m := State.reset.mod
  State.reset.pending = [] ∧ m.gov.cap = 3200 ∧ m.devtime = 0 ∧ m.boot.stage = 0 ∧
    (∀ k, m.exists? k = false ∧ (m.part k).ctxs = [] ∧ (m.part k).resvs = [] ∧ (m.part k).shards = []) ∧
    (∀ i, (m.keySlot i).state = .free) ∧ m.paths = [] ∧ m.jobs = [] ∧ m.binds = [] ∧
    (∀ off, m.chipReg off = chipRegReset off) ∧ (∀ k off, (m.part k).reg off = partRegReset off)

/-- POWER_ENABLE, POWER_DISABLE and the three input protections: what each leads to. PERST: every register at its
reset value and nothing created; power, and what the sensors read, stand. -/
def Obligations.PowerCommands : Prop :=
  (∀ (s : State) (rise : Bool) (mv low : Nat), s.mod.power.pgOut = false →
    (s.mod.power.latched = false ∨ (rise = true ∧ 10000000 ≤ low)) → (s.mod.power.pwrEn = true ∨ rise = true) →
    42000 ≤ mv → mv ≤ 56000 →
    ∃ m, Gives (.powerEnable rise mv low) s m ∧ m.power.pgOut = true ∧ m.power.latched = false ∧ m.devtime = 0 ∧
      m.boot = Boot.reset ∧ m.parts = [] ∧ m.keys = [] ∧ m.chip = [] ∧ m.gov.readings.vin = mv ∧
      m.out = s.mod.out ++ [.pin "PG_OUT" true]) ∧
  (∀ (c : Instr) (s : State) (en latch : Bool), On s →
    ((∃ rf, c = .powerDisable rf ∧ en = rf ∧ latch = false) ∨
      (∃ mv, c = .inputOvervoltage mv ∧ 56000 < mv ∧ en = s.mod.power.pwrEn ∧ latch = true) ∨
      (∃ mv, c = .inputUndervoltageTimeout mv ∧ mv < 42000 ∧ en = s.mod.power.pwrEn ∧ latch = true) ∨
      (∃ a, c = .inputOvercurrentTimeout a ∧ 75 < a ∧ en = s.mod.power.pwrEn ∧ latch = true)) →
    ∃ m, Gives c s m ∧ m.power = { pwrEn := en, pgOut := false, thermtripN := true, latched := latch } ∧ m.parts = [] ∧
      m.keys = [] ∧ m.chip = [] ∧ m.mbx = [] ∧ m.out = s.mod.out ++ [.pin "PG_OUT" false]) ∧
  (∀ s : State, On s →
    ∃ m, Gives .perst s m ∧ m.power = { s.mod.power with thermtripN := true } ∧ m.fresh = s.mod.fresh ∧
      m.out = (if s.mod.power.thermtripN = true then s.mod.out else s.mod.out ++ [.pin "THERMTRIP_N" true]) ∧
      m.gov = { Governor.reset with readings := s.mod.gov.readings } ∧
      m.boot = { Boot.reset with paused := overTestLimit s.mod.gov.readings } ∧
      { m with out := [], fresh := 0, power := Mod.reset.power, gov := Governor.reset, boot := Boot.reset } = Mod.reset)

/-! ### Boot and image load -/

/-- A boot stage ends, a fatal fault halts the boot ROM, and the self-test limits pause and resume it. An image load:
accepted from the PF, its chunks from management, its time limit, and the end of authentication. -/
def Obligations.BootAndImages : Prop :=
  (∀ (s : State) (failed : List Nat), On s → s.mod.boot.stage < 6 → ¬ (s.mod.boot.stage = 5 ∧ s.mod.boot.paused = true) →
    ∃ m, Gives (.bootStageComplete failed) s m ∧ m.boot.stage = s.mod.boot.stage + 1 ∧
      m.boot.failCnt = min (s.mod.boot.failCnt +
        (dedup (failed.filter fun i => decide (i < stageItems s.mod.boot.stage))).length) 0xFFFF ∧
      (s.mod.boot.stage = 2 → m.boot.nearTrained = true) ∧ (s.mod.boot.stage = 3 → m.boot.extTrained = true)) ∧
  (∀ s : State, On s → s.mod.boot.stage < 8 → ∃ m, Gives .bootFatalFault s m ∧ m.boot.stage = 15) ∧
  (∀ (s : State) (t : Int), On s → 360 < t → ∃ m, Gives (.inletAboveSelfTestLimit t) s m ∧ m.boot.paused = true) ∧
  (∀ (s : State) (d t : Int), On s → d < 760 → t ≤ 360 →
    ∃ m, Gives (.selfTestLimitsRestored d t) s m ∧ m.boot.paused = false) ∧
  (∀ (s : State) (r : Request) (rest : List Request), Turn s r rest → r.fn = .pf → r.opcode = 0x03 →
    s.mod.running = false → s.mod.fwLoad = none → imageLenOk (fld r.payload 8 4) = true → fld r.payload 12 4 = 0 →
    let l : FwLoad := { source := .pf, length := fld r.payload 8 4, addr := fld r.payload 0 8, bytes := [], auth := false,
                        verdict := none }
    Gives .fwLoad s ((({ turned s rest with fwLoad := some l }).hold r).fwReadNext l)) ∧
  (∀ (s : State) (r : Request) (rest : List Request), Turn s r rest → r.fn = .mgmt → r.opcode = 0x03 →
    s.mod.running = false → s.mod.fwLoad = none → fld r.payload 0 4 = 0 → imageLenOk (fld r.payload 4 4) = true →
    (r.payload.drop 8).length < fld r.payload 4 4 →
    Gives .fwLoadChunk s (({ turned s rest with
      fwLoad := some { source := .mgmt, length := fld r.payload 4 4, addr := 0, bytes := r.payload.drop 8, auth := false,
                       verdict := none } }).respond r stOk 0)) ∧
  (∀ (s : State) (r : Request) (rest : List Request) (l : FwLoad), Turn s r rest → r.fn = .mgmt → r.opcode = 0x03 →
    s.mod.running = false → s.mod.fwLoad = some l → l.source = .mgmt → l.auth = false → imageLenOk l.length = true →
    fld r.payload 4 4 = l.length → fld r.payload 0 4 = l.bytes.length → 0 < l.bytes.length →
    l.bytes.length + (r.payload.drop 8).length ≤ l.length →
    ∃ m l', Gives .fwLoadChunk s m ∧ m.fwLoad = some l' ∧ l'.bytes = l.bytes ++ r.payload.drop 8 ∧ l'.length = l.length ∧
      (l'.auth = true ↔ l'.bytes.length = l.length) ∧ (l'.auth = true → m.boot.stage = 7 ∧ m.acting = s.mod.acting ++ [r]) ∧
      (l'.auth = false → m.boot = s.mod.boot ∧ m.acting = s.mod.acting)) ∧
  (∀ (s : State) (l : FwLoad), On s → s.mod.fwLoad = some l → l.source = .mgmt → l.auth = false →
    Gives .fwLoadChunkTimeout s { s.mod with fwLoad := none }) ∧
  (∀ (s : State) (l : FwLoad), On s → s.mod.fwLoad = some l → l.auth = true →
    ((imageBad l.bytes).isSome = true ∨ l.verdict.isSome = true) →
    ∃ m, Gives .fwAuthDone s m ∧ m.fwLoad = none ∧
      (imageBad l.bytes = none → l.verdict = some 0 → m.boot.stage = 8 ∧ m.fw = some (imageOf l.bytes)) ∧
      (∀ d, imageBad l.bytes = some d → m.boot.stage = 6 ∧ m.boot.authLast = d ∧ m.fw = s.mod.fw) ∧
      (∀ w, imageBad l.bytes = none → l.verdict = some (w + 1) → m.boot.stage = 6 ∧ m.boot.authLast = 5 ∧ m.fw = s.mod.fw))

/-! ### PCIe -/

/-- NumVFs and VF Enable. VF_FLR, PF_FLR and VF_ENABLE_CLEAR: the mailbox is at reset and its requests are gone, a reset of
every partition named begins or is joined, and no reset of another begins (02 R46, 18 R401). Before boot stage 0x1 ends
each of the five answers Configuration Request Retry Status (02 R63). -/
def Obligations.FunctionsComeAndGo : Prop :=
  (∀ (s : State) (n : Nat), Linked s → s.mod.pcie.vfEnable = false → 1 ≤ n → n ≤ 64 →
    Gives (.numvfsWrite n) s { s.mod with pcie := { s.mod.pcie with numVfs := n } }) ∧
  (∀ s : State, Linked s → Gives .vfEnableSet s { s.mod with pcie := { s.mod.pcie with vfEnable := true } }) ∧
  (∀ (s : State) (k : Fin 64), Linked s → s.mod.vfExists k.val = true →
    ∃ m, Gives (.vfFlr k) s m ∧ m.mailbox k.val = Mailbox.reset ∧ (∀ r ∈ m.arrived ++ m.taken ++ m.acting, r.fn ≠ .vf k) ∧
      (∀ i, i ≠ k.val → m.mailbox i = s.mod.mailbox i) ∧ m.pcie.numVfs = s.mod.pcie.numVfs ∧ m.pcie.vfEnable = true ∧
      (s.mod.exists? k.val = true → resetBegun s m k.val k.val) ∧
      (s.mod.exists? k.val = false → (m.part k.val).resetting = (s.mod.part k.val).resetting) ∧
      ∀ j, j ≠ k.val → (m.part j).resetting = (s.mod.part j).resetting) ∧
  (∀ s : State, Linked s →
    ∃ m, Gives .pfFlr s m ∧ m.mailbox 64 = Mailbox.reset ∧ (∀ k, k < 64 → s.mod.vfExists k = true → m.mailbox k = Mailbox.reset) ∧
      m.pcie.vfEnable = false ∧
      (∀ k, k < 64 → s.mod.exists? k = true → resetBegun s m k 0xFFFF) ∧
      ∀ k, s.mod.exists? k = false → (m.part k).resetting = (s.mod.part k).resetting) ∧
  (∀ s : State, Linked s → s.mod.pcie.vfEnable = true →
    ∃ m, Gives .vfEnableClear s m ∧ (∀ k, k < 64 → s.mod.vfExists k = true → m.mailbox k = Mailbox.reset) ∧
      m.mailbox 64 = s.mod.mailbox 64 ∧ m.pcie.vfEnable = false ∧
      (∀ k, k < 64 → k < s.mod.pcie.numVfs → s.mod.exists? k = true → resetBegun s m k 0xFFFF) ∧
      ∀ k, (s.mod.exists? k = false ∨ s.mod.pcie.numVfs ≤ k) → (m.part k).resetting = (s.mod.part k).resetting) ∧
  (∀ (s : State) (c : Instr), On s → s.mod.boot.stage < 2 →
    (c = .pfFlr ∨ c = .vfEnableClear ∨ c = .vfEnableSet ∨ (∃ k, c = .vfFlr k) ∨ (∃ n, c = .numvfsWrite n)) →
    Gives c s (s.mod.send .configRetry))

/-- A read request completes with its data, its timer expires, and its tag leaves quarantine. ARB_HOLD_CUTOFF sets the
arbiter's bit and counts, where the holder of the arbiter still has to send. -/
def Obligations.DeviceReadsAndArbiters : Prop :=
  (∀ (s : State) (tag : BitVec 14) (q : ReadReq) (data : List Byte), Linked s →
    (s.mod.pcie.reads.find? fun x => x.tag == tag.toNat) = some q → q.len ≤ (q.got ++ data).length →
    Gives (.pcieCompletionRx tag .success data) s ((s.mod.dropRead tag.toNat).readDone q ((q.got ++ data).take q.len))) ∧
  (∀ (s : State) (tag : BitVec 14) (q : ReadReq) (data : List Byte), Linked s →
    (s.mod.pcie.reads.find? fun x => x.tag == tag.toNat) = some q → (q.got ++ data).length < q.len →
    Gives (.pcieCompletionRx tag .success data) s { s.mod with pcie := { s.mod.pcie with
      reads := s.mod.pcie.reads.map fun x => if x.tag = tag.toNat then { x with got := q.got ++ data } else x } }) ∧
  (∀ (s : State) (tag : BitVec 14) (st : CplStatus) (q : ReadReq) (data : List Byte), Linked s → st ≠ .success →
    (s.mod.pcie.reads.find? fun x => x.tag == tag.toNat) = some q →
    Gives (.pcieCompletionRx tag st data) s ((s.mod.dropRead tag.toNat).readFailed q false)) ∧
  (∀ (s : State) (tag : BitVec 14) (q : ReadReq), Linked s →
    (s.mod.pcie.reads.find? fun x => x.tag == tag.toNat) = some q →
    let m := (s.mod.dropRead tag.toNat).send (.aer "Completion Timeout" tag.toNat)
    Gives (.completionTimeout tag) s
      ({ m with pcie := { m.pcie with quarantined := m.pcie.quarantined ++ [tag.toNat] } }.readFailed q true)) ∧
  (∀ (s : State) (tag : BitVec 14), On s →
    ∃ m, Gives (.pcieTagQuarantineEnd tag) s m ∧ tag.toNat ∉ m.pcie.quarantined ∧
      (∀ x, x ≠ tag.toNat → (x ∈ m.pcie.quarantined ↔ x ∈ s.mod.pcie.quarantined)) ∧
      { m with pcie := s.mod.pcie } = s.mod) ∧
  (∀ (s : State) (a : Arbiter) (b : Nat), Alive s → arbBit a = some b →
    (∀ x y : Fin 4, a = .fabric x y → ∃ h, Table.find (4 * x.val + y.val) s.mod.holders = some h ∧
      s.mod.asksPath (4 * x.val + y.val) h.1 h.2 = true) →
    (∀ p : Fin 8, a = .port p → ∃ k, (s.mod.port p.val).holder = some k ∧
      ((s.mod.port p.val).waiting.any fun f => f.part == k) = true) →
    ∃ m, Gives (.arbHoldCutoff a) s m ∧ getB (m.chipReg offArbHold) b = true ∧
      (∀ i, i < 32 → i ≠ b → getB (m.chipReg offArbHold) i = getB (s.mod.chipReg offArbHold) i) ∧
      getF (m.chipReg offArbHoldCnt) 31 0 = min (getF (s.mod.chipReg offArbHoldCnt) 31 0 + 1) (2 ^ 32 - 1) ∧
      m.parts = s.mod.parts ∧ (∀ x y : Fin 4, a = .fabric x y → Table.find (4 * x.val + y.val) m.holders = none))

/-- A completion whose tag nothing holds is discarded: `SEEN`, or `MULTI` if `SEEN` was already 1, its tag in `TAG`,
and nothing else of the module moves. -/
def Obligations.LateCompletions : Prop :=
  ∀ (s : State) (tag : BitVec 14) (st : CplStatus) (data : List Byte), Linked s →
    (s.mod.pcie.reads.find? fun x => x.tag == tag.toNat) = none →
    ∃ m, Gives (.pcieCompletionRx tag st data) s m ∧ m.out = s.mod.out ++ [.aer "Unexpected Completion" tag.toNat] ∧
      getB (m.chipReg offLateCpl) 31 = true ∧
      getB (m.chipReg offLateCpl) 30 = (getB (s.mod.chipReg offLateCpl) 31 || getB (s.mod.chipReg offLateCpl) 30) ∧
      getF (m.chipReg offLateCpl) 13 0 = tag.toNat ∧ (∀ off, off ≠ offLateCpl → m.chipReg off = s.mod.chipReg off) ∧
      { m with out := s.mod.out, chip := s.mod.chip } = s.mod

/-- A new device read takes a tag that neither an outstanding request nor the quarantine holds. -/
def Obligations.TagsAreFresh : Prop :=
  ∀ (m : Mod) (fn : Fn) (dest : ReadUse) (addr len : Nat), m.pcie.reads.length < 768 →
    m.pcie.reads.length + m.pcie.quarantined.length < 16384 →
    ∃ tag, tag < 16384 ∧ tag ∉ m.pcie.reads.map (·.tag) ∧ tag ∉ m.pcie.quarantined ∧
      (m.issueRead fn dest addr len).pcie.reads =
        m.pcie.reads ++ [{ tag := tag, fn := fn, serves := dest, addr := addr, len := len, got := [] }]

/-! ### The mailbox -/

/-- A command belongs to the message time of DEVTIME in which its GO is accepted, or in which its last packet arrives:
the interval from m x 16,384 ns up to (m + 1) x 16,384 ns. -/
def Obligations.MessageTimes : Prop :=
  (∀ (m : Mod) (t : Nat), m.mtime = t ↔ t * 16384 ≤ m.devtime.toNat ∧ m.devtime.toNat < (t + 1) * 16384) ∧
  (∀ (s : State) (f : Fn), Linked s → s.mod.hasMailbox f = true → (s.mod.mailbox (fnIdx f)).cur = none →
    ∃ m r, Gives (.mbxGo f) s m ∧ m.arrived = s.mod.arrived ++ [r] ∧ r.fn = f ∧ r.mtime = s.mod.mtime ∧
      r = requestOf s.mod.reqSerial f s.mod.mtime (Cells.read (s.mod.mailbox (fnIdx f)).reqBuf 0 4096) ∧
      (m.mailbox (fnIdx f)).cur = some r.id ∧ (m.mailbox (fnIdx f)).done = false) ∧
  (∀ (s : State) (msg : SidebandMsg), On s → 1 ≤ s.mod.boot.stage → s.mod.boot.stage ≤ 8 → forMailbox msg = true →
    16 ≤ msg.body.length → s.mod.mgmtBusy = none →
    ∃ m r, Gives (.mctpMessageRx msg) s m ∧ m.arrived = s.mod.arrived ++ [r] ∧ r.fn = .mgmt ∧ r.mtime = s.mod.mtime ∧
      r = requestOf s.mod.reqSerial .mgmt s.mod.mtime msg.body ∧ m.mgmtBusy = some r.id)

/-- A take-up takes every request of the oldest past message time and of no other: management requests first, then host
requests, each in order of arrival, behind those that already wait for their turn; one that its header refuses is
answered. Before a message time is past none of its requests is taken up. -/
def Obligations.TakeUpOrder : Prop :=
  (∀ s : State, On s → (∀ r ∈ s.mod.arrived, s.mod.mtime ≤ r.mtime) → Gives .messageTimeTakeup s s.mod) ∧
  (∀ (s : State) (t : Nat), On s → (∃ r ∈ s.mod.arrived, r.mtime = t) → t < s.mod.mtime →
    (∀ r ∈ s.mod.arrived, t ≤ r.mtime) →
    let ms := s.mod.arrived.filter fun r => r.mtime == t && r.fn == .mgmt
    let hs := s.mod.arrived.filter fun r => r.mtime == t && r.fn != .mgmt
    ∃ m, Gives .messageTimeTakeup s m ∧ m.arrived = s.mod.arrived.filter (fun r => r.mtime != t) ∧
      m.taken = s.mod.taken ++ (ms ++ hs).filter (fun r => (s.mod.headerCheck r).isNone) ∧
      (∀ r ∈ hs, (s.mod.headerCheck r).isSome = true → (s.mod.mailbox (fnIdx r.fn)).cur = some r.id →
        (m.mailbox (fnIdx r.fn)).cur = none ∧ (m.mailbox (fnIdx r.fn)).done = true) ∧
      (∀ r ∈ ms, (s.mod.headerCheck r).isSome = true → s.mod.mgmtBusy = some r.id → m.mgmtBusy = none) ∧
      m.parts = s.mod.parts ∧ m.keys = s.mod.keys ∧ m.supersede = s.mod.supersede)

/-- A response to a function's standing request: in the response buffer, DONE 1, BUSY 0, the low half of its SEQ, and
vector 0 where enabled; nothing of any partition moves. A response to the management sideband goes out as a message. A
request whose mailbox waits for another, or for none, is answered to no one. A GO while a request stands sets OVERRUN and
changes nothing else. -/
def Obligations.Responses : Prop :=
  (∀ (m : Mod) (r : Request) (st d : Nat) (pl : List Byte), r.fn ≠ .mgmt → (m.mailbox (fnIdx r.fn)).cur = some r.id →
    let m' := m.respond r st d pl
    let b := m'.mailbox (fnIdx r.fn)
    let v := Table.get Msix.reset (fnIdx r.fn * 32) m.pcie.msix
    b.respBuf.take (responseBytes r st d pl).length = responseBytes r st d pl ∧ b.cur = none ∧ b.done = true ∧
      b.seqLo = BitVec.ofNat 16 r.seq ∧ b.irq = true ∧ m'.parts = m.parts ∧ m'.keys = m.keys ∧
      (∀ i, i ≠ fnIdx r.fn → m'.mailbox i = m.mailbox i) ∧
      ((m.mailbox (fnIdx r.fn)).irqEn = false → m'.out = m.out ∧ m'.pcie = m.pcie) ∧
      ((m.mailbox (fnIdx r.fn)).irqEn = true → (∀ k, r.fn = .vf k → m.vfExists k.val = true) →
        (v.masked = false → m'.out = m.out ++ [.msix r.fn 0] ∧ m'.pcie = m.pcie) ∧
          (v.masked = true → m'.out = m.out ∧
            Table.get Msix.reset (fnIdx r.fn * 32) m'.pcie.msix = { v with pend := true }))) ∧
  (∀ (m : Mod) (r : Request) (st d : Nat) (pl : List Byte), r.fn = .mgmt →
    m.respond r st d pl = if m.mgmtBusy = some r.id then
      ({ m with mgmtBusy := none }).send (.mctp (responseBytes r st d pl)) else m) ∧
  (∀ (m : Mod) (r : Request) (st d : Nat) (pl : List Byte), r.fn ≠ .mgmt → (m.mailbox (fnIdx r.fn)).cur ≠ some r.id →
    m.respond r st d pl = m) ∧
  (∀ (s : State) (f : Fn), Linked s → s.mod.hasMailbox f = true → (s.mod.mailbox (fnIdx f)).cur.isSome = true →
    Gives (.mbxGo f) s { s.mod with
      mbx := Table.set (fnIdx f) { s.mod.mailbox (fnIdx f) with overrun := true } s.mod.mbx })

/-- IDENT_GET and HEALTH_GET answer the issuer with the fields of 02 R56 and change nothing else. ATTEST_GET latches the
signing slot and gives the report to the public-key engine, whose end answers (R394). FAULT_READ: a partition record is
copied to DST and its first 64 bytes answer; the module records and the supersede log answer with their entries, and
change nothing else. -/
def Obligations.Reports : Prop :=
  (∀ (s : State) (r : Request) (rest : List Request), Turn s r rest → r.opcode = 0x01 →
    let pl := s.mod.identity r.fn
    Gives (.identGet r.fn) s ((turned s rest).respond r stOk 0 pl) ∧ pl.length = 64 ∧ slice pl 0 8 = orderCode ∧
      slice pl 16 16 = slice Config.serial 0 16 ∧ fld pl 32 4 = Config.siliconRev.toNat ∧
      fld pl 36 4 = Config.bootRomVer.toNat ∧ fld pl 48 4 = s.mod.boot.stage % 2 ^ 32 ∧ fld pl 52 4 = fnCode r.fn) ∧
  (∀ (s : State) (r : Request) (rest : List Request), Turn s r rest → r.opcode = 0x02 →
    let pl := s.mod.health r.fn
    Gives (.healthGet r.fn) s ((turned s rest).respond r stOk 0 pl) ∧ pl.length = 32 ∧
      (∀ n, n < 128 → (∀ k, r.fn = .vf k → n / 2 = k.val) →
        bit (fld pl 0 16) n = (s.mod.part (n / 2)).inService (n % 2)) ∧
      (∀ n k, n < 128 → r.fn = .vf k → n / 2 ≠ k.val → bit (fld pl 0 16) n = false) ∧
      bit (fld pl 16 4) 0 = s.mod.boot.nearTrained ∧ bit (fld pl 16 4) 1 = s.mod.boot.extTrained ∧
      fld pl 20 4 = s.mod.linksUp % 2 ^ 32) ∧
  (∀ (s : State) (r : Request) (rest : List Request) (key : Option (Nat × Nat)), Turn s r rest → r.opcode = 0x70 →
    allZero (slice r.payload 34 6) = true → s.mod.signSlot r = .inl key →
    ∃ m, Gives (.attestGet r.fn) s m ∧
      m.pke = s.mod.pke ++ [.attest r (s.mod.reportBody r (key.map s.mod.slotScalar)) key none] ∧
      m.acting = s.mod.acting ++ [r] ∧ m.parts = s.mod.parts ∧ m.mbx = s.mod.mbx ∧
      (∀ v, key = some v → (v.2, .attest (fnIdx r.fn)) ∈ (m.keySlot v.1).users) ∧
      (∀ i, (m.keySlot i).state = (s.mod.keySlot i).state ∧ (m.keySlot i).current = (s.mod.keySlot i).current)) ∧
  (∀ (s : State) (r : Request) (rest : List Request) (st d : Nat), Turn s r rest → r.opcode = 0x70 →
    allZero (slice r.payload 34 6) = true → s.mod.signSlot r = .inr (st, d) →
    Gives (.attestGet r.fn) s ((turned s rest).respond r st d)) ∧
  (∀ (s : State) (r : Request) (rest : List Request) (e : Ecc), Turn s r rest → r.opcode = 0x60 → frKind r.payload = 1 →
    faultReadFields r.payload = none → s.mod.faultReadBad r = none →
    let k := frPart r.payload
    let slot := (s.mod.part k).recordSlot (frIndex r.payload)
    let sc := (turned s rest).recordScan k slot e
    let body := (sc.2.part k).recordWhole slot
    (sc.1 ≠ [] → Gives (.faultReadPartition r.fn e) s (sc.2.respond r stIntegrity 2)) ∧
    (sc.1 = [] → sc.2.keyless k (frDst r.payload) = false →
      Gives (.faultReadPartition r.fn e) s
        ((sc.2.modPart k fun p => p.putRange (sc.2.memKey k) (frDst r.payload) 0x100000 body).respond r stOk 0
          (Cells.read body 0 64))) ∧
    (sc.1 = [] → sc.2.keyless k (frDst r.payload) = true →
      Gives (.faultReadPartition r.fn e) s (sc.2.respond r stOk 0 (Cells.read body 0 64))) ∧
    (e = .clean → sc.1 = [] → sc.2 = turned s rest)) ∧
  (∀ (p : Partition) (key dst n : Nat) (bs : Cells), isExt dst = false → Memory.wf bs = true → (∀ c ∈ bs, c.1 < n) →
    (∀ i, i < n → Sparse.get (dst + i) (p.putRange key dst n bs).near = Sparse.get i bs) ∧
      (∀ a, (a < dst ∨ dst + n ≤ a) → Sparse.get a (p.putRange key dst n bs).near = Sparse.get a p.near) ∧
      (p.putRange key dst n bs).ext = p.ext ∧ (p.putRange key dst n bs).regs = p.regs) ∧
  (∀ (s : State) (r : Request) (rest : List Request) (c : Instr) (xs : List (List Byte)) (most : Nat), Turn s r rest →
    r.opcode = 0x60 → (∀ k, r.fn ≠ .vf k) → faultReadFields r.payload = none →
    ((c = .faultReadModule r.fn ∧ frKind r.payload = 2 ∧ xs = s.mod.modRecords ∧ most = 1) ∨
      (c = .faultReadSupersedeLog r.fn ∧ frKind r.payload = 3 ∧ xs = s.mod.supersede.reverse ∧ most = 127)) →
    (frIndex r.payload < xs.length → Gives c s
      ((turned s rest).respond r stOk 0 ((xs.drop (frIndex r.payload)).take most).flatten)) ∧
    (xs.length ≤ frIndex r.payload → Gives c s ((turned s rest).respond r stBadField 2))) ∧
  (∀ (s : State) (r : Request) (rest : List Request) (c : Instr) (k : Fin 64), Turn s r rest → r.opcode = 0x60 →
    r.fn = .vf k → faultReadFields r.payload = none →
    ((c = .faultReadModule r.fn ∧ frKind r.payload = 2) ∨ (c = .faultReadSupersedeLog r.fn ∧ frKind r.payload = 3)) →
    Gives c s ((turned s rest).respond r stNotPermitted 1))

/-- A request whose turn comes while a partition it acts on is under reset is refused with DETAIL 0x11, and one of a
VF whose partition does not exist with DETAIL 0x10; neither has any other effect. A mailbox row acts on the first request
that waits, and on no other. A host request that a management request of its message time contradicts is answered
ST_SUPERSEDED once that has acted, has no effect, and is logged (02 R60, R61). -/
def Obligations.BlockedRequests : Prop :=
  (∀ (s : State) (r : Request) (rest : List Request) (c : Instr), On s → NoErase s → s.mod.taken = r :: rest →
    (∀ h ∈ rest, supersedes r h = none) → mailboxRow c r = true →
    (s.mod.orphan r = true → Gives c s ((turned s rest).respond r stNotPermitted 0x10)) ∧
    (s.mod.orphan r = false → s.mod.resetBlocks r = true → Gives c s ((turned s rest).respond r stNotPermitted 0x11))) ∧
  (∀ (s : State) (c : Instr), On s → NoErase s → (∃ r, mailboxRow c r = true) →
    (∀ r, s.mod.taken.head? = some r → mailboxRow c r = false) → Gives c s s.mod) ∧
  (∀ (s : State) (r h : Request) (c : Instr) (o : Nat), On s → s.mod.taken = [r, h] → mailboxRow c r = true →
    supersedes r h = some o → s.mod.orphan h = false → s.mod.acting = [] → s.mod.binds = [] →
    (s.mod.mailbox (fnIdx h.fn)).cur = some h.id →
    ∃ m entry, Gives c s m ∧ m.taken = [] ∧ (m.mailbox (fnIdx h.fn)).cur = none ∧
      fld (m.mailbox (fnIdx h.fn)).respBuf 12 2 = stSuperseded ∧
      m.supersede = (s.mod.supersede ++ [entry]).drop (s.mod.supersede.length + 1 - 256) ∧
      fld entry 0 8 = s.mod.devtime.toNat ∧ fld entry 12 2 = r.opcode ∧ fld entry 14 2 = h.opcode % 65536)

/-! ### Partitions, contexts, frames, reservations -/

/-- CREATE and DELETE. A created partition has its tenant, a fresh key for the reserved region and every other piece of
state as at reset, but its external memory and what FLT_TRUSS tells of its trusses; so every event is 0 and every register
but FLT_TRUSS holds its reset value. A deleted partition does not exist and holds nothing but these; with the last
partition of its tenant, the key slots of the tenant are free. Other partitions stand. -/
def Obligations.PartitionsComeAndGo : Prop :=
  (∀ (s : State) (r : Request) (rest : List Request), Turn s r rest → r.opcode = 0x10 → pcOp r.payload = 1 →
    s.mod.partBad r = none →
    let old := s.mod.part (pcPart r.payload)
    ∃ m, Gives (.partCreate r.fn) s m ∧
      (let p := m.part (pcPart r.payload)
       { p with regs := [], ext := [], extKey := [], extPoison := [], reservedKey := 0 } =
         { Partition.reset with created := true, tenant := BitVec.ofNat 16 (pcTenant r.payload) } ∧
       p.reservedKey ≠ 0 ∧ p.ext = old.ext ∧ p.extKey = old.extKey ∧ p.extPoison = old.extPoison ∧
       (∀ e, p.event e = 0) ∧ (∀ off, off ≠ offTruss → p.reg off = partRegReset off) ∧ p.reg offTruss = old.reg offTruss) ∧
      (∀ j, j ≠ pcPart r.payload → m.part j = s.mod.part j) ∧ m.keys = s.mod.keys ∧ m.jobs = s.mod.jobs) ∧
  (∀ (s : State) (r : Request) (rest : List Request), Turn s r rest → r.opcode = 0x10 → pcOp r.payload = 2 →
    s.mod.partBad r = none →
    let k := pcPart r.payload
    let t := (s.mod.part k).tenant
    ((∃ j, j < 64 ∧ j ≠ k ∧ s.mod.exists? j = true ∧ (s.mod.part j).tenant = t) →
      ∃ m, Gives (.partDelete r.fn) s m ∧
        { m.part k with regs := [], ext := [], extKey := [], extPoison := [] } = Partition.reset ∧
        (m.part k).ext = (s.mod.part k).ext ∧ (m.part k).extKey = (s.mod.part k).extKey ∧
        (∀ off, off ≠ offTruss → (m.part k).reg off = partRegReset off) ∧
        (m.part k).reg offTruss = (s.mod.part k).reg offTruss ∧
        (∀ j, j ≠ k → m.part j = s.mod.part j) ∧
        (∀ i, (m.keySlot i).state = (s.mod.keySlot i).state ∧ (m.keySlot i).current = (s.mod.keySlot i).current)) ∧
    ((∀ j, j < 64 → j ≠ k → s.mod.exists? j = true → (s.mod.part j).tenant ≠ t) →
      (∀ e ∈ s.mod.keys, e.2.users = []) → s.mod.binds = [] →
      ∃ m, Gives (.partDelete r.fn) s m ∧ (∀ j, m.exists? j = (s.mod.exists? j && j != k)) ∧
        (∀ i, (m.keySlot i).state = .free ∨ (m.keySlot i).tenant ≠ t) ∧
        (∀ i, (∀ e ∈ s.mod.keys, e.1 = i → e.2.tenant ≠ t) → m.keySlot i = s.mod.keySlot i)))

/-- A partition is in fence mode after its creation and after its reset, and in event mode once the host writes ARM, which
changes nothing else. -/
def Obligations.FenceAndEventMode : Prop :=
  (∀ (s : State) (r : Request) (rest : List Request), Turn s r rest → r.opcode = 0x10 → pcOp r.payload = 1 →
    s.mod.partBad r = none →
    ∃ m, Gives (.partCreate r.fn) s m ∧ getB ((m.part (pcPart r.payload)).reg offEvtCtrl) 0 = false) ∧
  (∀ (s : State) (k : Fin 64) (z : ResetState), Live s → (s.mod.part k.val).resetting = some z → z.phase = 6 →
    ∃ m, Gives (.resetRestore k) s m ∧ getB ((m.part k.val).reg offEvtCtrl) 0 = false) ∧
  (∀ (s : State) (f : Fn) (k : Fin 64), Writes s f k.val →
    ∃ m, Gives (.evtCtrlArm f k) s m ∧ getB ((m.part k.val).reg offEvtCtrl) 0 = true ∧
      { m with parts := s.mod.parts } = s.mod ∧ (∀ off, off ≠ offEvtCtrl → (m.part k.val).reg off = (s.mod.part k.val).reg off) ∧
      { m.part k.val with regs := (s.mod.part k.val).regs } = s.mod.part k.val ∧
      ∀ j, j ≠ k.val → m.part j = s.mod.part j)

/-- CTX_CREATE: the context is new, with FTZ as asked and no handle of before issued again, its doorbell page at its reset
values; others stand. FRAME_LOAD: an image that passes every check is stored under the next handle, in granules of the
context's store that no other frame of it holds and that are no longer poisoned; the context's other frames stand but the
one replaced, and no memory changes where no report is asked for. Where the spec leaves a point open this is the model's
choice (assumptions 36, 49, 51). -/
def Obligations.ContextsAndFrames : Prop :=
  (∀ (s : State) (r : Request) (rest : List Request), Turn s r rest → r.opcode = 0x12 → s.mod.ctxCreateBad r = none →
    let k := fld r.payload 0 2 / 16
    let c := fld r.payload 0 2 % 16
    ∃ m, Gives (.ctxCreate r.fn) s m ∧
      (m.part k).ctx c = { Context.reset with
        created := true, ftz := bit (fld r.payload 2 2) 0, lastHandle := ((s.mod.part k).ctx c).lastHandle } ∧
      (∀ off, 0x10000 + 0x1000 * c ≤ off → off < 0x11000 + 0x1000 * c → (m.part k).reg off = partRegReset off) ∧
      (∀ off, (off < 0x10000 + 0x1000 * c ∨ 0x11000 + 0x1000 * c ≤ off) → (m.part k).reg off = (s.mod.part k).reg off) ∧
      (∀ d, d ≠ c → (m.part k).ctx d = (s.mod.part k).ctx d) ∧ (∀ j, j ≠ k → m.part j = s.mod.part j) ∧
      (m.part k).near = (s.mod.part k).near ∧ (m.part k).events = (s.mod.part k).events) ∧
  (∀ (s : State) (r : Request) (rest : List Request), Turn s r rest → r.opcode = 0x20 → s.mod.frameLoadBad r = none →
    let k := flCtx r.payload / 16
    let c := flCtx r.payload % 16
    let x := (s.mod.part k).ctx c
    let rd := (turned s rest).tenantRead k (flSrc r.payload) (flLen r.payload) .clean
    let kept := Table.erase (flReplace r.payload) x.frames
    rd.1.bad = [] → frameBad rd.1.bytes (flLen r.payload) (flReport r.payload) = none → flReport r.payload = 0 →
    storeFull kept (flLen r.payload) = false →
    ∃ m f, Gives (.frameLoad r.fn .clean) s m ∧
      Table.find (x.lastHandle + 1) ((m.part k).ctx c).frames = some f ∧ f.image = rd.1.bytes ∧
      (∀ g ∈ f.granules, (∀ e ∈ kept, g ∉ e.2.granules) ∧ (m.part k).poisoned (frameGranule c g) = false) ∧
      ((m.part k).ctx c).lastHandle = x.lastHandle + 1 ∧
      (∀ h, h ≠ x.lastHandle + 1 → h ≠ flReplace r.payload →
        Table.find h ((m.part k).ctx c).frames = Table.find h x.frames) ∧
      (flReplace r.payload ≠ x.lastHandle + 1 → Table.find (flReplace r.payload) ((m.part k).ctx c).frames = none) ∧
      (∀ d, d ≠ c → (m.part k).ctx d = (s.mod.part k).ctx d) ∧
      (m.part k).near = (s.mod.part k).near ∧ (m.part k).ext = (s.mod.part k).ext ∧
      (∀ j, j ≠ k → m.part j = s.mod.part j))

/-- RESV_OPEN: a request that passes every check opens a reservation in the lowest free slot, with the next number in the
order of opening. RESV_CLOSE: the reservation no longer counts as open; without ABORT its raises stand, and with no raise of
it left its slot is free at once; with ABORT its running raise is marked to end and its landed raises end with
ST_ABORTED. -/
def Obligations.ReservationsOpenAndClose : Prop :=
  (∀ (s : State) (r : Request) (rest : List Request) (img : List Byte), Turn s r rest → r.opcode = 0x21 →
    s.mod.resvFields r = none → s.mod.resvBars r.payload = none → s.mod.roFrame r.payload = some img →
    let k := roCtx r.payload / 16
    let d := (turned s rest).drawSlots ((s.mod.part k).framePaths k img)
    let v := d.2.newResv r.payload img d.1
    d.2.resvTests k img v.1 v.2 = none →
    let m := d.2.resvStand k v.1
    Gives (.resvOpen r.fn) s (m.respond r stOk 0 v.1.response) ∧
      Table.find (s.mod.part k).freeResv (m.part k).resvs = some v.1 ∧ v.1.serial = s.mod.resvSerial ∧
      m.resvSerial = s.mod.resvSerial + 1 ∧ v.1.closed = false) ∧
  (∀ (s : State) (r : Request) (rest : List Request) (v : Reservation), Turn s r rest → r.opcode = 0x22 →
    fld r.payload 4 4 ≤ 1 → fld r.payload 0 4 < 1024 → r.fn ≠ .mgmt →
    let k := fld r.payload 0 4 / 16
    let i := fld r.payload 0 4 % 16
    (∀ j, r.fn = .vf j → k = j.val) → Table.find i (s.mod.part k).resvs = some v → v.closed = false →
    let m := (turned s rest).modPart k fun p => { p with resvs := Table.set i { v with closed := true } p.resvs }
    let mark (u : Run) : Run := if u.hasQueue v.queueNo then { u with abort := true } else u
    (fld r.payload 4 4 = 0 →
      Gives (.resvClose r.fn) s ((m.releaseResv k v.ctxNo v.queueNo).respond r stOk 0)) ∧
    (fld r.payload 4 4 = 1 →
      Gives (.resvClose r.fn) s ((((m.modCtx k v.ctxNo fun x =>
        { x with run := x.run.map mark, parked := x.parked.map fun e => (e.1, mark e.2) }).endQueue
          k v.ctxNo v.queueNo stAborted 0).releaseResv k v.ctxNo v.queueNo).respond r stOk 0)) ∧
    ((((s.mod.part k).ctx v.ctxNo).queue v.queueNo).landed = [] →
      ((s.mod.part k).ctx v.ctxNo).startedQueue v.queueNo = false →
      (∀ e ∈ (s.mod.part k).resvs, e.2.ctxNo = v.ctxNo → e.2.queueNo = v.queueNo → e.1 = i) →
      Table.find i ((m.releaseResv k v.ctxNo v.queueNo).part k).resvs = none))

/-- The kerf of an admitted reservation is 1,000 ns + W / 64 ns, rounded up, and admission reserves W + K. -/
def Obligations.KerfOfReservation : Prop :=
  ∀ (m : Mod) (pl img : List Byte) (slots : Table Nat),
    let r := (m.newResv pl img slots).1
    let l := m.longestPath (roCtx pl / 16) img { mhz := 1800, hostBw := fld pl 32 4, slots := slots }
    let w := 1200 + fld pl 24 4 + l.1 + m.laneAllowance (roCtx pl / 16) img l.2
    w < 2 ^ 63 → r.w = w ∧ r.kerf = 1000 + (r.w + 63) / 64 ∧ r.load.c = r.w + r.kerf

/-- The energy test: a reservation is refused by it only where the standing draw and the energy of every reservation,
suspended and closed ones too, exceed the cap over 1 ms, and is admitted only where they fit. The time test:
reservations that pass it ask for less than the whole time, and at every deadline of any of them, up to the bound of
the test, the demand and the block term fit. -/
def Obligations.AdmissionTests : Prop :=
  (∀ (m : Mod) (k : Nat) (img : List Byte) (r : Reservation) (b : Nat),
    let need := 620 * 1000 +
      ((m.allResvs.map fun e => e.2.2.energy * ((1000000 + e.2.2.period - 1) / e.2.2.period + 1)).sum +
        r.energy * ((1000000 + r.period - 1) / r.period + 1))
    (m.resvTests k img r b = some (stRefusedBudget, 2) → m.gov.cap * 1000 < need) ∧
    (m.resvTests k img r b = none → need ≤ m.gov.cap * 1000)) ∧
  (∀ (rs : List Load) (b : Nat), timeTest rs b = true → (∀ r ∈ rs, 0 < r.p) →
    (rs.map fun r => r.c * ((rs.map (·.p)).foldl (· * ·) 1 / r.p)).sum < (rs.map (·.p)).foldl (· * ·) 1 ∧
    ∀ r ∈ rs, demandAt rs r.d + b ≤ r.d)

/-! ### Keys -/

/-- The end of a load with a key kind, slot and bytes: what the slot holds, and the answer. A WRAPPED load and a GENERATE
wait at the public-key engine. What a user of the memory key latched stays the version it latched: a load into its slot
gives new uses the new version and keeps the old one as long as it has a user. A row of these opcodes ends with the erases
that can take effect then, and with none in progress there are none. -/
def Obligations.KeyLoads : Prop :=
  (∀ (s : State) (r : Request) (rest : List Request), Turn s r rest → r.opcode = 0x30 → klOp r.payload = 1 →
    s.mod.keyBad r = none →
    let mat := slice r.payload 128 (materialLen (klKind r.payload))
    let m := (turned s rest).keyInstall r mat
    (materialBad (klKind r.payload) mat = false → Gives (.keyLoadPlain r.fn) s
      (m.respond r stOk 0 (m.keyAnswer (klSlot r.payload) (klKind r.payload) (zeros 96))).settleErases) ∧
    (materialBad (klKind r.payload) mat = true → Gives (.keyLoadPlain r.fn) s
      ((turned s rest).respond r stBadField 128).settleErases)) ∧
  (∀ (m : Mod) (r : Request) (mat : List Byte),
    (m.keyInstall r mat).keySlot (klSlot r.payload) =
      (m.keySlot (klSlot r.payload)).install (klKind r.payload) ((m.keyTenant r.fn (fld r.payload 4 2)).getD 0) mat ∧
    (∀ i, i ≠ klSlot r.payload → (m.keyInstall r mat).keySlot i = m.keySlot i) ∧
    { m.keyInstall r mat with keys := m.keys } = m) ∧
  (∀ (s : State) (r : Request) (rest : List Request) (c : Instr), Turn s r rest → r.opcode = 0x30 →
    ((c = .keyLoadWrapped r.fn ∧ klOp r.payload = 2) ∨ (c = .keyLoadGenerate r.fn ∧ klOp r.payload = 3)) →
    s.mod.keyBad r = none →
    let d := (turned s rest).draw
    Gives c s ({ d.2 with pke := s.mod.pke ++ [PkeJob.load r d.1], acting := s.mod.acting ++ [r] }).settleErases) ∧
  (∀ (x : KeySlot) (kind : Nat) (t : BitVec 16) (mat : List Byte), x.current = none →
    x.install kind t mat = { state := .loaded, kind := kind, tenant := t, current := some { ver := 1, material := mat },
                             retiring := none, users := [] }) ∧
  (∀ (x : KeySlot) (kind : Nat) (t : BitVec 16) (mat : List Byte) (c : KeyVer), x.current = some c →
    (x.install kind t mat).current = some { ver := c.ver + 1, material := mat } ∧
      ((x.install kind t mat).retiring = if x.usersOf (some c) = 0 then none else some c) ∧
      (x.install kind t mat).users = x.users) ∧
  (∀ (x : KeySlot) (kind : Nat) (t : BitVec 16) (mat : List Byte) (c : KeyVer), x.current = some c →
    x.usersOf (some c) ≠ 0 → (x.install kind t mat).version c.ver = some c) ∧
  (∀ m : Mod, (∀ e ∈ m.keys, e.2.state = .erasing → e.2.users ≠ [] ∨ m.eraseHeld e.1 = true) → m.settleErases = m)

/-- BIND_MEM and UNBIND_MEM: the partition's bound slot, nothing else of it, and no other partition. Erasing: with NOW
no user is left, and the slot is free unless a request of the same message time that names it still waits; without NOW the
slot waits, unbound and erasing, for its users. An erase that waits takes effect once the slot has no user and no request
holds it, at the end of a key row or of the last use; the last user of a retiring version destroys that version. -/
def Obligations.KeysBindAndErase : Prop :=
  (∀ (s : State) (r : Request) (rest : List Request) (c : Instr) (slot : Nat), Turn s r rest → r.opcode = 0x30 →
    ((c = .keyBindMem r.fn ∧ klOp r.payload = 4 ∧ slot = klSlot r.payload) ∨
      (c = .keyUnbindMem r.fn ∧ klOp r.payload = 5 ∧ slot = 0xFFFF)) →
    s.mod.keyBad r = none →
    ∃ m, Gives c s m ∧ (m.part (klPart r.payload)).memSlot = slot ∧ m.keys = (turned s rest).settleErases.keys ∧
      (∀ off, off ≠ offKsStatus → (m.part (klPart r.payload)).reg off = (s.mod.part (klPart r.payload)).reg off) ∧
      (m.part (klPart r.payload)).ext = (s.mod.part (klPart r.payload)).ext ∧
      (m.part (klPart r.payload)).near = (s.mod.part (klPart r.payload)).near ∧
      (∀ j, j ≠ klPart r.payload → m.part j = s.mod.part j)) ∧
  (∀ (s : State) (r : Request) (rest : List Request), Turn s r rest → r.opcode = 0x31 → bit (fld r.payload 2 1) 0 = true →
    s.mod.eraseBad r = none →
    let slot := keSlot r.payload
    Gives (.keyEraseNow r.fn) s (((turned s rest).hold r).eraseNow slot).settleErases ∧
    ((((turned s rest).hold r).eraseNow slot).settleErases.keySlot slot).users = [] ∧
    ((s.mod.keySlot slot).users = [] → s.mod.binds = [] →
      (∀ q ∈ rest, (q.opcode = 0x30 → klSlot q.payload ≠ slot) ∧ erases slot q = false) →
      (((turned s rest).hold r).eraseNow slot).settleErases.keySlot slot = KeySlot.reset)) ∧
  (∀ (s : State) (r : Request) (rest : List Request), Turn s r rest → r.opcode = 0x31 → bit (fld r.payload 2 1) 0 = false →
    s.mod.eraseBad r = none →
    Gives (.keyErase r.fn) s (((turned s rest).hold r).eraseBegin (keSlot r.payload)).settleErases) ∧
  (∀ (m : Mod) (slot : Nat), m.binds = [] →
    (m.eraseBegin slot).keySlot slot = { m.keySlot slot with state := .erasing } ∧
    (∀ i, i ≠ slot → (m.eraseBegin slot).keySlot i = m.keySlot i) ∧
    (∀ k, k < 64 → (m.part k).created = true → (m.part k).memSlot = slot → ((m.eraseBegin slot).part k).memSlot = 0xFFFF) ∧
    (∀ k, (m.part k).memSlot ≠ slot → (m.eraseBegin slot).part k = m.part k)) ∧
  (∀ (m : Mod) (i : Nat), (m.keySlot i).state = .erasing → (m.keySlot i).users = [] → m.eraseHeld i = false →
    m.settleErases.keySlot i = KeySlot.reset) ∧
  (∀ (m : Mod) (i : Nat), (∀ e ∈ m.keys, e.1 = i → e.2.state ≠ .erasing ∨ e.2.users ≠ []) →
    m.settleErases.keySlot i = m.keySlot i) ∧
  (∀ (s : State) (i : Fin 256), Alive s → (s.mod.keySlot i.val).state = .erasing → (s.mod.keySlot i.val).users = [] →
    s.mod.eraseHeld i.val = false →
    ∃ m, Gives (.keyUserEnd i) s m ∧ m.keySlot i.val = KeySlot.reset ∧ ∀ j, j ≠ i.val → m.keySlot j = s.mod.keySlot j) ∧
  (∀ (s : State) (i : Fin 256) (v : KeyVer), Alive s → (s.mod.keySlot i.val).state = .loaded →
    (s.mod.keySlot i.val).retiring = some v → (s.mod.keySlot i.val).usersOf (some v) = 0 →
    ∃ m, Gives (.keyUserEnd i) s m ∧ m.keySlot i.val = { s.mod.keySlot i.val with retiring := none } ∧
      ∀ j, j ≠ i.val → m.keySlot j = s.mod.keySlot j)

/-- The public-key engine ends the operation at its front, one at a time in the order in which they came: a GENERATE
installs its key and answers; a WRAPPED load's response follows in its time; the signature of a Molique image is judged; an
attestation report takes the identity signature and, with a signing slot, that of the slot behind it, and answers; an SPDM
answer is signed; a KEY_EXCHANGE draws a key, agrees with the requester's point, and is signed. -/
def Obligations.KeyEngine : Prop :=
  (∀ (s : State) (r : Request) (d : Nat) (rest : List PkeJob), Alive s → s.mod.pke = .load r d :: rest →
    klOp r.payload = 3 → ({ s.mod with pke := rest }).keyBad r = none →
    let m := ({ s.mod with pke := rest }).keyInstall r (leBytes 48 (scalarOf d))
    Gives .pkeOperationDone s (m.finish r stOk 0
      (m.keyAnswer (klSlot r.payload) 3 (pointBytes (scalarMul (scalarOf d) curveG))))) ∧
  (∀ (s : State) (r : Request) (d : Nat) (rest : List PkeJob), Alive s → s.mod.pke = .load r d :: rest →
    klOp r.payload = 2 →
    ∃ m w, Gives .pkeOperationDone s m ∧ m.pke = rest ∧ m.wrapped = s.mod.wrapped ++ [w] ∧ w.req = r ∧
      m.acting = s.mod.acting ∧ m.mbx = s.mod.mbx) ∧
  (∀ (s : State) (w : WrappedDone) (rest : List WrappedDone), Live s → s.mod.wrapped = w :: rest →
    Gives .keyLoadWrappedResponse s (({ s.mod with wrapped := rest }).finish w.req w.status w.detail w.payload)) ∧
  (∀ (s : State) (l : FwLoad) (rest : List PkeJob), Alive s → s.mod.pke = .verify :: rest → s.mod.fwLoad = some l →
    ∃ m, Gives .pkeOperationDone s m ∧ m.pke = rest ∧
      m.fwLoad = some { l with verdict := some ((imageVerify l.bytes).getD 0) } ∧
      ∀ w, imageVerify l.bytes = some w → getF (m.chipReg offKsStatus64) 19 16 = w % 16) ∧
  (∀ (s : State) (r : Request) (body : List Byte) (rest : List PkeJob), Alive s → s.mod.pke = .attest r body none none :: rest →
    Gives .pkeOperationDone s (({ s.mod with pke := rest }).finish r stOk 0
      (body ++ signBytes identityScalar (Config.sha384 body) ++ zeros 96))) ∧
  (∀ (s : State) (r : Request) (body : List Byte) (v : Nat × Nat) (rest : List PkeJob), Alive s →
    s.mod.pke = .attest r body (some v) none :: rest →
    Gives .pkeOperationDone s { s.mod with
      pke := rest ++ [PkeJob.attest r body (some v) (some (signBytes identityScalar (Config.sha384 body)))] }) ∧
  (∀ (s : State) (r : Request) (body sig : List Byte) (v : Nat × Nat) (rest : List PkeJob), Alive s →
    s.mod.pke = .attest r body (some v) (some sig) :: rest →
    let scalar := leNat (s.mod.keyBytes v.1 v.2)
    Gives .pkeOperationDone s ((({ s.mod with pke := rest }).keyRelease fun u => u == KeyUse.attest (fnIdx r.fn)).finish r stOk 0
      (body ++ sig ++ signBytes scalar (Config.sha384 body)))) ∧
  (∀ (s : State) (t : SpdmPort) (msg : List Byte) (a : SpdmAnswer) (z : Option Nat) (rest : List PkeJob), Alive s →
    s.mod.pke = .sign t msg a z :: rest →
    let e := Config.spdmDigest a.code ((s.mod.spdmAt t).transcript ++ msg ++ a.contents)
    ∃ m, Gives .pkeOperationDone s m ∧ m.pke = rest ∧
      m.out = s.mod.out ++ [.spdm t (a.signed (signFrom identityScalar e 256 0))] ∧
      (z = none → (m.spdmAt t).session = (s.mod.spdmAt t).session) ∧
      (∀ x, z = some x → (m.spdmAt t).session = 1 ∧ (m.spdmAt t).secret = x) ∧ m.keys = s.mod.keys ∧
      m.parts = s.mod.parts) ∧
  (∀ (s : State) (t : SpdmPort) (msg : List Byte) (d : Nat) (rest : List PkeJob), Alive s →
    s.mod.pke = .share t msg d :: rest →
    Gives .pkeOperationDone s { s.mod with pke := rest ++ [PkeJob.agree t msg (scalarOf d)] }) ∧
  (∀ (s : State) (t : SpdmPort) (msg : List Byte) (d : Nat) (rest : List PkeJob), Alive s →
    s.mod.pke = .agree t msg d :: rest →
    let q := exchangePoint msg
    let reject (w : Nat) : Mod := (({ s.mod with pke := rest }).setChipFld offKsStatus64 19 16 w).send (.spdm t .error)
    (∀ w b, screenPoint q.1 q.2 = some (w, b) → Gives .pkeOperationDone s (reject w)) ∧
    (screenPoint q.1 q.2 = none → scalarMul d (some q) = none → Gives .pkeOperationDone s (reject 6)) ∧
    (∀ z y, screenPoint q.1 q.2 = none → scalarMul d (some q) = some (z, y) →
      Gives .pkeOperationDone s { s.mod with
        pke := rest ++ [PkeJob.sign t msg (.keyExchange (pointBytes (scalarMul d curveG)) (0, 0)) (some z)] }))

/-! ### Shards -/

/-- FETCH, COPY and DETACH as accepted, and the end of a transfer: the shard is attached where what was written has the
digest asked for, else its slot is free. The background scrub: a pass begins with the first attached slot; a hash that finds
another digest or an uncorrectable error makes the shard BAD; LATE reads 1 until a pass ends; it makes no progress while a
guaranteed-class raise has landed and not completed. -/
def Obligations.Shards : Prop :=
  (∀ (s : State) (r : Request) (rest : List Request) (c : Instr), Turn s r rest → r.opcode = 0x40 →
    ((c = .shardFetch r.fn ∧ shOp r.payload = 1) ∨ (c = .shardCopy r.fn ∧ shOp r.payload = 2)) →
    s.mod.shardFields r = none → s.mod.shardBad r = none →
    ∃ m x, Gives c s m ∧ (m.part (shCtx r.payload / 16)).shard (shSlot r.payload) = some x ∧ x.state = .pending ∧
      x.ctx = shCtx r.payload % 16 ∧ x.loc = shLoc r.payload ∧ x.len = shLen r.payload ∧ x.fn = r.fn ∧
      (shOp r.payload = 1 → x.digest = slice r.payload 32 48) ∧
      (∀ y, shOp r.payload = 2 →
        (s.mod.part (shCtx r.payload / 16)).shardOf (shCtx r.payload % 16) (shSrcSlot r.payload) = some y →
        x.digest = y.digest) ∧
      m.acting = s.mod.acting ++ [r] ∧
      (∀ i, i ≠ shSlot r.payload →
        (m.part (shCtx r.payload / 16)).shard i = (s.mod.part (shCtx r.payload / 16)).shard i)) ∧
  (∀ (s : State) (r : Request) (rest : List Request), Turn s r rest → r.opcode = 0x40 → shOp r.payload = 3 →
    s.mod.shardFields r = none → s.mod.shardBad r = none →
    ∃ m, Gives (.shardDetach r.fn) s m ∧ (m.part (shCtx r.payload / 16)).shard (shSlot r.payload) = none ∧
      (m.part (shCtx r.payload / 16)).near = (s.mod.part (shCtx r.payload / 16)).near ∧
      (m.part (shCtx r.payload / 16)).ext = (s.mod.part (shCtx r.payload / 16)).ext) ∧
  (∀ (s : State) (k : Fin 64) (i : Nat) (x : Shard), Live s → (s.mod.part k.val).underReset = false →
    ((s.mod.part k.val).shards.find? fun e => e.2.state == .pending && (e.2.failed.isSome || e.2.arrived)) = some (i, x) →
    ∃ m, Gives (.shardAttachDone k) s m ∧
      (x.failed.isSome = true → (m.part k.val).shard i = none) ∧
      (x.failed = none → slice (Config.sha384 x.hashed) 0 48 = x.digest → (∀ j, x.move = some j → j ≠ i) →
        (m.part k.val).shard i = some { x with state := .attached, move := none, hashed := [] } ∧
        ∀ j, x.move = some j → (m.part k.val).shard j = none) ∧
      (x.failed = none → slice (Config.sha384 x.hashed) 0 48 ≠ x.digest → (m.part k.val).shard i = none)) ∧
  (∀ (s : State) (k : Fin 64), Live s → s.mod.exists? k.val = true → (s.mod.part k.val).underReset = false →
    (s.mod.part k.val).scrub = none → Gives (.shardScrubPassStart k) s (s.mod.scrubFrom k.val 0)) ∧
  (∀ (m : Mod) (k i j : Nat), m.nextScrub k i = some j →
    ((m.scrubFrom k i).part k).scrub = some { slot := some j } ∧ i ≤ j ∧
      ∃ x, (j, x) ∈ (m.part k).shards ∧ x.state = .attached) ∧
  (∀ (m : Mod) (k i : Nat), m.nextScrub k i = none →
    getB (((m.scrubFrom k i).part k).reg offShardScrub) 31 = false ∧ ((m.scrubFrom k i).part k).scrub = none ∧
      ∀ e ∈ (m.part k).shards, i ≤ e.1 → e.2.state ≠ .attached) ∧
  (∀ (s : State) (k : Fin 64) (e : Ecc) (i : Nat) (x : Shard) (key : Nat), Live s → (s.mod.part k.val).underReset = false →
    (s.mod.part k.val).guarPresent = false → (s.mod.part k.val).scrub = some { slot := some i } →
    (s.mod.part k.val).shard i = some x →
    s.mod.keyOf (s.mod.keys.findSome? fun y => (y.2.users.find? fun u => u.2 == .scrub k.val).map fun u => (y.1, u.1)) = key →
    let rd := s.mod.memRead k.val key x.loc x.len e false
    let bad := !rd.1.bad.isEmpty || slice (Config.sha384 rd.1.bytes) 0 48 != x.digest
    let m := rd.2.keyRelease fun u => u == .scrub k.val
    Gives (.shardScrubHashDone k e) s
      ((if bad then m.shardGoesBad k.val i x else m).scrubFrom k.val (i + 1)) ∧
    ((m.shardGoesBad k.val i x).part k.val).shard i = some { x with state := .bad } ∧
    getB (((m.shardGoesBad k.val i x).part k.val).reg offShardStatus) 31 = true) ∧
  (∀ (s : State) (k : Fin 64) (e : Ecc), On s → (s.mod.part k.val).guarPresent = true →
    Gives (.shardScrubHashDone k e) s s.mod) ∧
  (∀ (s : State) (k : Fin 64), Alive s → (s.mod.part k.val).scrub.isSome = true →
    ∃ m, Gives (.scrubLate k) s m ∧ getB ((m.part k.val).reg offShardScrub) 31 = true ∧
      { m with parts := s.mod.parts } = s.mod) ∧
  (∀ (s : State) (k : Fin 64), Alive s → (s.mod.part k.val).scrub = none → Gives (.scrubLate k) s s.mod)

/-! ### Attestation, SPDM, faults, the cap -/

/-- The ten SPDM requests of a port that is open. In its place in the connection and well formed, a request is answered on
its port at once and moves the connection on, or waits at the public-key engine for what its answer needs; out of its place
it is answered with the error response and the connection stands (contents as assumption 15 says). A port that is closed
answers nothing. An IDE key-management message of an established session: keys programmed, then the stream started, then
stopped. -/
def Obligations.SpdmAndIde : Prop :=
  (∀ (s : State) (t : SpdmPort) (msg : List Byte) (c : Instr) (code : Nat) (ready : Bool) (a : SpdmAnswer)
      (next : Spdm → Spdm), On s →
    let x := s.mod.spdmAt t
    ((c = .spdmGetVersion t msg ∧ code = 0x84 ∧ ready = true ∧ a = .version ∧
        next = fun _ => { Spdm.reset with version := true }) ∨
      (c = .spdmGetCapabilities t msg ∧ code = 0xE1 ∧ ready = x.version ∧ a = .capabilities ∧
        next = fun x => { x with caps := true }) ∨
      (c = .spdmNegotiateAlgorithms t msg ∧ code = 0xE3 ∧ ready = (x.version && x.caps) ∧
        a = .algorithms .ecdsaP384 .sha384 .ecdheSecp384r1 .aes256Gcm ∧ next = fun x => { x with algs := true }) ∨
      (c = .spdmGetDigests t msg ∧ code = 0x81 ∧ ready = x.agreed ∧
        a = .digests (slice (Config.sha384 certSlot0) 0 48) ∧ next = id) ∨
      (c = .spdmGetCertificate t msg ∧ code = 0x82 ∧ ready = x.agreed ∧ a = certAnswer msg ∧ next = id) ∨
      (c = .spdmGetMeasurements t msg ∧ code = 0xE0 ∧ ready = x.agreed ∧ a = s.mod.measureAnswer msg ∧
        (bit (fld msg 2 1) 0 = false ∨ ∀ bs, s.mod.measureAnswer msg ≠ .measurements bs none) ∧ next = id) ∨
      (c = .spdmFinish t msg ∧ code = 0xE5 ∧ ready = (x.agreed && x.session == 1) ∧ a = .finished ∧
        next = fun x => { x with session := 2 }) ∨
      (c = .spdmEndSession t msg ∧ code = 0xEC ∧ ready = (x.session == 2) ∧ a = .sessionEnded ∧
        next = fun x => { x with session := 0, secret := 0 })) →
    (s.mod.spdmOpen t = true → ready = true → Config.spdmAccepts code msg = true →
      ∃ m, Gives c s m ∧ m.out = s.mod.out ++ [.spdm t a] ∧ m.parts = s.mod.parts ∧ m.keys = s.mod.keys ∧
        (∃ log, m.spdmAt t = { next x with transcript := (next x).transcript ++ msg ++ log }) ∧
        (∀ u, u ≠ t → m.spdmAt u = s.mod.spdmAt u)) ∧
    (s.mod.spdmOpen t = true → (ready && Config.spdmAccepts code msg) = false → Gives c s (s.mod.send (.spdm t .error))) ∧
    (s.mod.spdmOpen t = false → Gives c s s.mod)) ∧
  (∀ (s : State) (t : SpdmPort) (msg : List Byte) (c : Instr) (code : Nat) (m' : Mod), On s →
    let x := s.mod.spdmAt t
    let d := s.mod.draw
    ((c = .spdmChallenge t msg ∧ code = 0x83 ∧
        m' = if fld msg 2 1 ≠ 0 then s.mod.send (.spdm t .error) else { s.mod with
          pke := s.mod.pke ++ [.sign t msg (.challengeAuth (slice (Config.sha384 certSlot0) 0 48) (0, 0)) none] }) ∨
      (c = .spdmKeyExchange t msg ∧ code = 0xE4 ∧ m' = { d.2 with pke := s.mod.pke ++ [.share t msg d.1] }) ∨
      (c = .spdmGetMeasurements t msg ∧ code = 0xE0 ∧ bit (fld msg 2 1) 0 = true ∧ ∃ bs,
        s.mod.measureAnswer msg = .measurements bs none ∧
        m' = { s.mod with pke := s.mod.pke ++ [.sign t msg (.measurements bs none) none] })) →
    (s.mod.spdmOpen t = true → x.agreed = true → Config.spdmAccepts code msg = true → Gives c s m') ∧
    (s.mod.spdmOpen t = true → (x.agreed && Config.spdmAccepts code msg) = false →
      Gives c s (s.mod.send (.spdm t .error))) ∧
    (s.mod.spdmOpen t = false → Gives c s s.mod)) ∧
  (∀ (s : State) (st : IdeStream) (a : IdeAct), Linked s → (s.mod.spdmAt .doe).session = 2 →
    ∃ m, Gives (.ideKeyManagementMessage st a) s m ∧
      Table.get Ide.reset (ideIdx st) m.pcie.ide = (Table.get Ide.reset (ideIdx st) s.mod.pcie.ide).act a ∧
      (∀ n, n ≠ ideIdx st → Table.get Ide.reset n m.pcie.ide = Table.get Ide.reset n s.mod.pcie.ide) ∧
      { m with pcie := s.mod.pcie } = s.mod) ∧
  (∀ (s : State) (st : IdeStream) (a : IdeAct), Linked s → (s.mod.spdmAt .doe).session ≠ 2 →
    Gives (.ideKeyManagementMessage st a) s s.mod) ∧
  (∀ (x : Ide) (key : List Byte), x.act (.program key) = { x with key := key } ∧
    (x.key ≠ [] → (x.act .start).secure = true) ∧ (x.act .stop).secure = false)

/-! ### The governor and the thermal levels -/

/-- A governor sample is kept with the last 100, and its readings stand; throttling, trip, shutdown and their ends move the
level, and a self-test stands paused while a reading exceeds its limit. PWR_SET: the cap takes the value, within 1,000 to
3,300 W, and reservations are suspended or resumed by it. Where the spec leaves a point open this is the model's choice
(assumption 25). -/
def Obligations.GovernorAndThermal : Prop :=
  (∀ (s : State) (r : Readings), Alive s →
    Gives (.governorSample r) s { s.mod with
      gov := { s.mod.gov with readings := r, seen := true, samples := (r.pin :: s.mod.gov.samples).take 100 }
      boot := { s.mod.boot with paused := overTestLimit r } }) ∧
  (∀ (s : State) (b : Fin 4) (t : Int), Alive s →
    (760 ≤ t → ∃ m, Gives (.thermalThrottle b t) s m ∧ bit m.gov.hot.toNat b.val = true ∧
      m.gov.level = max 1 s.mod.gov.level ∧ (b.val < s.mod.gov.readings.die.length → m.boot.paused = true) ∧
      m.gov.readings.die = s.mod.gov.readings.die.set b.val t ∧ m.parts = s.mod.parts) ∧
    (t < 760 → Gives (.thermalThrottle b t) s s.mod)) ∧
  (∀ (s : State) (b : Fin 4) (t : Int), Alive s →
    (t < 720 → ∃ m, Gives (.throttleClear b t) s m ∧ bit m.gov.hot.toNat b.val = false ∧
      (m.gov.level = if m.gov.hot = 0 ∧ s.mod.gov.level = 1 then 0 else s.mod.gov.level) ∧
      m.gov.readings.die = s.mod.gov.readings.die.set b.val t ∧ m.parts = s.mod.parts) ∧
    (720 ≤ t → Gives (.throttleClear b t) s s.mod)) ∧
  (∀ (s : State) (d t : Int), On s → s.mod.gov.level < 2 → (840 ≤ d ∨ 400 < t) →
    ∃ m, Gives (.thermalTrip d t) s m ∧ m.gov.level = 2 ∧ m.gov.tripSrc = (if 840 ≤ d then 1 else 2) ∧
      m.gov.readings.inlet = t ∧ getB (m.chipReg offPwrTherm) 29 = true) ∧
  (∀ (s : State) (d t : Int), On s → d < 840 → t ≤ 400 → Gives (.thermalTrip d t) s s.mod) ∧
  (∀ s : State, Alive s →
    (s.mod.gov.level < 2 → s.mod.gov.readings.flow < 30 →
      ∃ m, Gives .lowFlowTimeout s m ∧ m.gov.level = 2 ∧ m.gov.tripSrc = 3) ∧
    (30 ≤ s.mod.gov.readings.flow → Gives .lowFlowTimeout s s.mod)) ∧
  (∀ s : State, Alive s →
    (s.mod.gov.level = 2 →
      ∃ m, Gives .tripStandingTimeout s m ∧ m.gov.level = 3 ∧ m.gov.tripSrc = 4 ∧ m.power.thermtripN = false) ∧
    (s.mod.gov.level ≠ 2 → Gives .tripStandingTimeout s s.mod)) ∧
  (∀ (s : State) (d : Int), On s →
    (s.mod.gov.level < 3 → 920 ≤ d →
      ∃ m, Gives (.thermalShutdown d) s m ∧ m.gov.level = 3 ∧ m.gov.tripSrc = 5 ∧ m.power.thermtripN = false ∧
        getB (m.chipReg offPwrTherm) 28 = true) ∧
    (d < 920 → Gives (.thermalShutdown d) s s.mod)) ∧
  (∀ (s : State) (d t : Int) (f : Nat), Alive s →
    (2 ≤ s.mod.gov.level → d < 760 → t ≤ 360 → 40 ≤ f →
      ∃ m, Gives (.tripClear d t f) s m ∧ m.gov.level = b2n (s.mod.gov.hot != 0) ∧ m.power.thermtripN = true) ∧
    ((s.mod.gov.level < 2 ∨ 760 ≤ d ∨ 360 < t ∨ f < 40) → Gives (.tripClear d t f) s s.mod)) ∧
  (∀ (s : State) (r : Request) (rest : List Request), Turn s r rest → r.opcode = 0x80 →
    let w := fld r.payload 0 4
    (1000 ≤ w → w ≤ 3300 → fld r.payload 4 4 = 0 → ∃ m, Gives (.pwrSet r.fn) s m ∧ m.gov.cap = w ∧
      m.gov.level = s.mod.gov.level ∧ (s.mod.allResvs = [] → m.parts = s.mod.parts)) ∧
    ((w < 1000 ∨ 3300 < w) → Gives (.pwrSet r.fn) s ((turned s rest).respond r stBadField 0)) ∧
    (1000 ≤ w → w ≤ 3300 → fld r.payload 4 4 ≠ 0 → Gives (.pwrSet r.fn) s ((turned s rest).respond r stBadField 4)))

/-- The governor limit never exceeds the cap, nor any of the three other terms. -/
def Obligations.LimitIsTheLeastTerm : Prop :=
  ∀ g : Governor, (∀ t ∈ limitTerms g, (g.limit : Int) ≤ max t 0) ∧ ∃ t ∈ limitTerms g, (g.limit : Int) = max t 0

/-! ### Links, time -/

/-- Link port.ll has number 12 p + ll, and its hub is that of bay ll / 3. A link trains with a partner that obeys the port
rule and, where both ends' coordinates are valid, theirs; with another it stays down and reads MISCABLE. A lost lane is
squelched and carries nothing; a lane that is ready stands by; two quiet ends widen the link by its standby lanes; a held
lane is released by the PF. -/
def Obligations.LinksAndLanes : Prop :=
  (∀ p ll : Nat, p < 8 → ll < 12 → portOf (12 * p + ll) = p ∧ bayOfLink (12 * p + ll) = ll / 3 ∧ 12 * p + ll < 96) ∧
  (∀ (s : State) (n : Fin 96) (q : LinkPartner), On s → 4 ≤ s.mod.boot.stage → s.mod.boot.stage ≤ 8 →
    (s.mod.link n.val).partner = none → (s.mod.link n.val).live = 0 →
    (s.mod.portRule n.val q = false →
      ∃ m, Gives (.linkTrain n q) s m ∧ (m.link n.val).live = 0 ∧ (m.link n.val).miscable = true) ∧
    (s.mod.portRule n.val q = true → q.lanes &&& ~~~(s.mod.link n.val).lostLanes ≠ 0 →
      (s.mod.coordsKnown q = true → s.mod.coordRule n.val q = true) →
      ∃ m, Gives (.linkTrain n q) s m ∧ (m.link n.val).partner = some q ∧ (m.link n.val).trained = true ∧
        (m.link n.val).live = q.lanes &&& ~~~(s.mod.link n.val).lostLanes ∧ (m.link n.val).coordOk = s.mod.coordsKnown q ∧
        .linkIdentity n.val Config.serialHash (portOf n.val) (n.val % 12) (s.mod.chipReg offCoord) ∈ m.out) ∧
    (s.mod.portRule n.val q = true → q.lanes &&& ~~~(s.mod.link n.val).lostLanes ≠ 0 → s.mod.coordsKnown q = true →
      s.mod.coordRule n.val q = false →
      ∃ m, Gives (.linkTrain n q) s m ∧ (m.link n.val).live = 0 ∧ (m.link n.val).miscable = true)) ∧
  (∀ (s : State) (n : Fin 96) (i : Fin 4), Alive s → (s.mod.link n.val).partner.isSome = true →
    (bit (s.mod.link n.val).live.toNat i.val = true →
      ∃ m, Gives (.laneLoss n i) s m ∧ (m.link n.val).live = setLane (s.mod.link n.val).live i.val false ∧
        (m.link n.val).widening = false ∧ .squelch n.val i.val ∈ m.out) ∧
    (bit (s.mod.link n.val).live.toNat i.val = false →
      ∃ m, Gives (.laneLoss n i) s m ∧ (m.link n.val).live = (s.mod.link n.val).live ∧
        (m.link n.val).standby = setLane (s.mod.link n.val).standby i.val false)) ∧
  (∀ (s : State) (n : Fin 96) (i : Fin 4), Alive s →
    (s.mod.linkUp n.val = true → bit (s.mod.link n.val).live.toNat i.val = false →
      bit (s.mod.link n.val).lostLanes.toNat i.val = false →
      Gives (.laneStandbyReady n i) s ((s.mod.modLink n.val fun l =>
        { l with standby := setLane l.standby i.val true }).sendLane n.val false false false)) ∧
    (bit (s.mod.link n.val).lostLanes.toNat i.val = true → Gives (.laneStandbyReady n i) s s.mod)) ∧
  (∀ (s : State) (n : Fin 96) (q : LinkPartner), Alive s → (s.mod.link n.val).partner = some q →
    let first := decide (Config.serialHash < q.hash) && (s.mod.link n.val).peerQuiet
    (s.mod.mayWiden n.val = true → ∃ m, Gives (.linkWiden n) s m ∧ (m.link n.val).widening = first ∧
      m.out = s.mod.out ++ [.linkLane n.val (s.mod.link n.val).live (s.mod.link n.val).standby first false true]) ∧
    (s.mod.mayWiden n.val = false → Gives (.linkWiden n) s s.mod)) ∧
  (∀ (s : State) (n : Fin 96) (ok : Bool), Alive s →
    ((s.mod.link n.val).widening = true →
      ∃ m, Gives (.linkWidenDone n ok) s m ∧ (m.link n.val).widening = false ∧ (m.link n.val).standby = 0 ∧
        (m.link n.val).live =
          (if ok then (s.mod.link n.val).live ||| (s.mod.link n.val).standby else (s.mod.link n.val).live)) ∧
    ((s.mod.link n.val).widening = false → Gives (.linkWidenDone n ok) s s.mod)) ∧
  (∀ (s : State) (n : Fin 96) (lv sb : BitVec 4) (w a q : Bool), Alive s →
    (s.mod.linkUp n.val = true → ∃ m, Gives (.laneEntryRx n lv sb w a q) s m ∧ (m.link n.val).peerQuiet = q ∧
      (m.link n.val).widening = ((s.mod.link n.val).widening || (w && s.mod.mayWiden n.val)) ∧
      (w = true → s.mod.mayWiden n.val = true → m.out = s.mod.out ++
        [.linkLane n.val (s.mod.link n.val).live (s.mod.link n.val).standby false true true])) ∧
    (s.mod.linkUp n.val = false → Gives (.laneEntryRx n lv sb w a q) s s.mod)) ∧
  (∀ (s : State) (n : Fin 96), Linked s →
    ∃ m, Gives (.laneHeldRelease .pf n) s m ∧ (m.link n.val).lostLanes = 0 ∧ getB (m.chipReg (offLinkCtrl n.val)) 1 = false) ∧
  (∀ (s : State) (n : Fin 96) (f : Fn), Linked s → f ≠ .pf → Gives (.laneHeldRelease f n) s s.mod)

/-- Replay: an ACK gives up the frames up to its SEQ, and what waits takes the room; a NAK sends the named frames again and
gives up none; the loss of every lane for its time ends the transfers of the link's paths. What arrives on a link: a good
payload frame in order moves the receive sequence on and is acknowledged, one ahead is kept, one delivered before and one
of another kind change nothing, and a bad one is named in a NAK; credit adds up; a message is announced, and a tag is kept,
on the path it names, until the receive it belongs to takes them; a transit connection passes them on. -/
def Obligations.LinkFrames : Prop :=
  (∀ (s : State) (n : Fin 96) (seq : BitVec 16), Alive s → s.mod.linkUp n.val = true →
    let give (l : Link) : Link := { l with replay := l.replay.filter fun e => decide (32768 ≤ (seq - e.1.seq).toNat) }
    Gives (.ackRx n seq) s ((s.mod.modLink n.val give).pump n.val) ∧
    ((s.mod.link n.val).sendQ = [] → (s.mod.port (portOf n.val)).waiting = [] → s.mod.bindOn n.val = none →
      (((s.mod.modLink n.val give).pump n.val).link n.val) = give (s.mod.link n.val))) ∧
  (∀ (s : State) (n : Fin 96) (seqs : List (BitVec 16)), Alive s → s.mod.linkUp n.val = true →
    ∃ m, Gives (.nakRx n seqs) s m ∧ (m.link n.val).replay.map (·.1) = (s.mod.link n.val).replay.map (·.1) ∧
      m.parts = s.mod.parts ∧
      ((s.mod.link n.val).widening = false → ∀ e ∈ (s.mod.link n.val).replay, seqs.contains e.1.seq = true →
        ∃ lane, .linkFrame n.val lane e.1 ∈ m.out)) ∧
  (∀ (s : State) (n : Fin 96), Alive s →
    (s.mod.linkUp n.val = false →
      Gives (.linkDownTimeout n) s (s.mod.endTransfers (fun pid => s.mod.pathDown n.val pid) stTimeout fun _ => n.val)) ∧
    (s.mod.linkUp n.val = true → Gives (.linkDownTimeout n) s s.mod)) ∧
  (∀ (s : State) (n : Fin 96) (lane : Fin 4) (f : LinkFrame), Alive s → (s.mod.link n.val).partner.isSome = true →
    bit (s.mod.link n.val).live.toNat lane.val = true →
    let l := s.mod.link n.val
    (frameGood f = false → Gives (.payloadFrameRx n lane f) s
      (((s.mod.fecCount n.val).send (.linkNak n.val [f.seq.toNat])).laneBad n.val lane.val)) ∧
    (frameGood f = true → (f.type ≠ 1 ∧ f.type ≠ 2 ∨ l.coordOk = false ∨ 32768 ≤ (f.seq - l.rxSeq).toNat) →
      Gives (.payloadFrameRx n lane f) s s.mod) ∧
    (frameGood f = true → (f.type = 1 ∨ f.type = 2) → l.coordOk = true →
      (0 < (f.seq - l.rxSeq).toNat → (f.seq - l.rxSeq).toNat < 32768 → (∀ g ∈ l.ahead, g.seq ≠ f.seq) →
        Gives (.payloadFrameRx n lane f) s (s.mod.modLink n.val fun l => { l with ahead := l.ahead ++ [f] })) ∧
      (f.seq = l.rxSeq → l.ahead = [] → s.mod.pathDest n.val f.path.toNat = .nowhere →
        ∃ m, Gives (.payloadFrameRx n lane f) s m ∧ (m.link n.val).rxSeq = f.seq + 1 ∧
          m.out = s.mod.out ++ [.linkAck n.val f.seq.toNat]) ∧
      (∀ p, f.seq = l.rxSeq → l.ahead = [] → s.mod.pathDest n.val f.path.toNat = .endpoint p → p.msgs = [] →
        ∃ m q, Gives (.payloadFrameRx n lane f) s m ∧ (m.link n.val).rxSeq = f.seq + 1 ∧
          Table.find f.path.toNat m.paths = some q ∧ q.early = p.early ++ [(f.body, f.type == 2)]))) ∧
  (∀ (s : State) (n : Fin 96) (lane : Fin 4) (f : LinkFrame), Alive s → bit (s.mod.link n.val).live.toNat lane.val = false →
    Gives (.payloadFrameRx n lane f) s s.mod) ∧
  (∀ (s : State) (n : Fin 96) (pid : BitVec 12) (units : Nat), Alive s → s.mod.linkUp n.val = true →
    (∀ p, s.mod.pathDest n.val pid.toNat = .endpoint p → Gives (.creditRx n pid units) s
      ((s.mod.modPath pid.toNat fun p => { p with credit := p.credit + 256 * units }).watchLinks p.owner)) ∧
    (∀ out, s.mod.pathDest n.val pid.toNat = .forward out →
      Gives (.creditRx n pid units) s (s.mod.send (.linkCredit out pid.toNat units)))) ∧
  (∀ (s : State) (n : Fin 96) (pid : BitVec 12) (tag : BitVec 16) (len : Nat) (seq : BitVec 16), Alive s →
    s.mod.linkUp n.val = true →
    (∀ p, s.mod.pathDest n.val pid.toNat = .endpoint p → p.arms = [] → 0 < len → len % 512 = 0 →
      (∀ g ∈ p.msgs, g.arm = none) →
      ∃ m q g, Gives (.msgRx n pid tag len seq) s m ∧ Table.find pid.toNat m.paths = some q ∧ q.msgs = p.msgs ++ [g] ∧
        g.tag = tag.toNat ∧ g.len = len ∧ g.arm = none ∧ g.base = p.rxCount ∧ q.rxCount = p.rxCount + segments len) ∧
    (∀ out p, s.mod.pathDest n.val pid.toNat = .forward out → Table.find pid.toNat s.mod.paths = some p →
      let key := 65536 * n.val + seq.toNat
      (Table.find key p.passed = none → Gives (.msgRx n pid tag len seq) s
        (s.mod.modPath pid.toNat fun p => { p with fwdMsgs := Table.set key (tag.toNat, len) p.fwdMsgs })) ∧
      (∀ q, Table.find key p.passed = some q → ∃ m, Gives (.msgRx n pid tag len seq) s m ∧
        m.out = s.mod.out ++ [.linkMsg out pid.toNat tag.toNat len q] ∧ m.parts = s.mod.parts))) ∧
  (∀ (s : State) (n : Fin 96) (pid : BitVec 12) (seg : Nat) (tag : List Byte), Alive s → s.mod.linkUp n.val = true →
    (∀ p, s.mod.pathDest n.val pid.toNat = .endpoint p → p.msgs = [] →
      ∃ m q, Gives (.gtagRx n pid seg tag) s m ∧ Table.find pid.toNat m.paths = some q ∧
        Table.find seg q.tags = some tag) ∧
    (∀ out, s.mod.pathDest n.val pid.toNat = .forward out →
      Gives (.gtagRx n pid seg tag) s (s.mod.send (.linkTag out pid.toNat seg tag))))

/-- Payload frames take consecutive sequence numbers in the order in which they leave on a link, and stand in its replay
buffer with their bodies. -/
def Obligations.SequenceNumbers : Prop :=
  ∀ (m : Mod) (n : Nat) (fs : List OutFrame),
    let m' := m.forAll (fun m f => m.placeFrame n f) fs
    (m'.link n).txSeq = (m.link n).txSeq + BitVec.ofNat 16 fs.length ∧
      ((m'.link n).replay.drop (m.link n).replay.length).map (·.1.seq) =
        (List.range fs.length).map (fun i => (m.link n).txSeq + BitVec.ofNat 16 i) ∧
      ((m'.link n).replay.drop (m.link n).replay.length).map (·.1.body) = fs.map (·.body) ∧
      (m'.link n).replay.take (m.link n).replay.length = (m.link n).replay ∧ m'.parts = m.parts

/-- Time: as a child, a large offset with no reservation open steps DEVTIME, another slews it by at most 100 ppm and by no
more than the offset; as a parent, the answer carries the stamps. A commit on the root with no reservation open sets
DEVTIME, any other is refused. A parent lost is replaced by ALT, else holdover begins. -/
def Obligations.TimeTransfer : Prop :=
  (∀ (s : State) (t1 t2 t3 t4 sk : Int), Alive s → s.mod.timeEn = true → s.mod.timeRoot = false →
    s.mod.parentUsable s.mod.timeParent = true →
    let off := ((t2 - t1) - (t4 - t3)) / 2 - sk
    ((off < -8000 ∨ 8000 < off) → s.mod.anyResv = false →
      ∃ m, Gives (.timeExchange t1 t2 t3 t4 (.child sk)) s m ∧ m.devtime = addNs s.mod.devtime (off / 8) ∧
        m.time.offset = off ∧ getB (m.chipReg offTimeStatus) 28 = true) ∧
    ((-8000 ≤ off ∧ off ≤ 8000 ∨ s.mod.anyResv = true) →
      ∃ m, Gives (.timeExchange t1 t2 t3 t4 (.child sk)) s m ∧ m.devtime = s.mod.devtime ∧ m.time.offset = off ∧
        (m.time.subPs - s.mod.time.subPs).natAbs ≤ 100 ∧ (m.time.subPs - s.mod.time.subPs).natAbs ≤ off.natAbs * 125)) ∧
  (∀ (s : State) (t1 t2 t3 t4 : Int) (n : Fin 96), Alive s →
    (s.mod.timeEn = true → s.mod.linkUp n.val = true →
      Gives (.timeExchange t1 t2 t3 t4 (.parent n)) s (s.mod.send (.linkTime n.val [t1, t2, t3]))) ∧
    ((s.mod.timeEn && s.mod.linkUp n.val) = false → Gives (.timeExchange t1 t2 t3 t4 (.parent n)) s s.mod)) ∧
  (∀ (s : State) (hi : Word), Linked s →
    let lo := Table.get (0 : Word) (pairKey (.fn .pf) offTimeSet) s.mod.staged
    (s.mod.timeRoot = true → s.mod.anyResv = false →
      ∃ m, Gives (.lnkTimeSetCommit .pf hi) s m ∧ m.devtime = BitVec.ofNat 64 (lo.toNat + hi.toNat * 2 ^ 32)) ∧
    ((s.mod.timeRoot = false ∨ s.mod.anyResv = true) →
      ∃ m, Gives (.lnkTimeSetCommit .pf hi) s m ∧ m.devtime = s.mod.devtime ∧ getB (m.chipReg offTimeStatus) 27 = true)) ∧
  (∀ (s : State) (f : Fn) (hi : Word), Linked s → f ≠ .pf → Gives (.lnkTimeSetCommit f hi) s s.mod) ∧
  (∀ s : State, Alive s → s.mod.timeEn = true → s.mod.timeRoot = false → s.mod.parentUsable s.mod.timeParent = false →
    (s.mod.parentUsable s.mod.timeAlt = false →
      ∃ m, Gives .timeParentLoss s m ∧ m.time.holdover = true ∧ m.time.locked = false) ∧
    (s.mod.parentUsable s.mod.timeAlt = true →
      ∃ m, Gives .timeParentLoss s m ∧ m.time.holdover = false ∧ m.time.altUsed = true))

/-! ### Jobs and what arrives on a path -/

/-- GRANT, its completion, and RELEASE: the paths of a GRANT stand at once, closed; they open, and the GRANT answers, once no
best-effort frame waits on the job's links; a RELEASE leaves neither the job nor any path of it. Where the spec leaves a
point open this is the model's choice (assumption 43). -/
def Obligations.Jobs : Prop :=
  (∀ (s : State) (r : Request) (rest : List Request), Turn s r rest → r.opcode = 0x50 → fld r.payload 0 1 = 1 →
    pathSetFields r.payload = none → s.mod.pathSetBad r.payload = none →
    ∃ m j, Gives (.linkGrant r.fn) s m ∧ Table.find (fld r.payload 4 4) m.jobs = some j ∧ j.grant = some r ∧
      m.acting = s.mod.acting ++ [r] ∧ m.parts = s.mod.parts ∧
      (∀ e ∈ pathEntries r.payload, ∃ p, Table.find (entPath e) m.paths = some p ∧ p.closed = true ∧
        p.job = fld r.payload 4 4 ∧ p.kind = entKind e ∧ p.link = entLink e) ∧
      (∀ x, x ≠ fld r.payload 4 4 → Table.find x m.jobs = Table.find x s.mod.jobs)) ∧
  (∀ (s : State) (job : BitVec 32) (j : Job) (r : Request), Live s → Table.find job.toNat s.mod.jobs = some j →
    j.grant = some r →
    ((∀ n ∈ j.links, ∀ f ∈ (s.mod.link n).sendQ, s.mod.bestFrame f = false) →
      ∃ m, Gives (.linkGrantComplete job) s m ∧ Table.find job.toNat m.jobs = some { j with grant := none } ∧
        (∀ e ∈ pathEntries r.payload, ∀ p, Table.find (entPath e) s.mod.paths = some p → p.job = job.toNat →
          Table.find (entPath e) m.paths = some { p with closed := false }) ∧
        (∀ pid p, Table.find pid s.mod.paths = some p → p.job ≠ job.toNat → Table.find pid m.paths = some p) ∧
        m.parts = s.mod.parts) ∧
    ((∃ n ∈ j.links, ∃ f ∈ (s.mod.link n).sendQ, s.mod.bestFrame f = true) →
      Gives (.linkGrantComplete job) s s.mod)) ∧
  (∀ (s : State) (r : Request) (rest : List Request), Turn s r rest → r.opcode = 0x50 → fld r.payload 0 1 = 2 →
    pathSetFields r.payload = none → s.mod.pathSetBad r.payload = none →
    ∃ m, Gives (.linkRelease r.fn) s m ∧ Table.find (fld r.payload 4 4) m.jobs = none ∧
      ∀ e ∈ m.paths, e.2.job ≠ fld r.payload 4 4)

/-! ### Sister bindings -/

/-- BIND, UNBIND, TAKEOVER, and the time limit of a BIND: a standby's BIND answers and waits for its first heartbeat, a
primary's is pending until it comes; UNBIND, TAKEOVER and the limit leave the slot empty. -/
def Obligations.SisterRequests : Prop :=
  (∀ (s : State) (r : Request) (rest : List Request), Turn s r rest → r.opcode = 0x51 → fld r.payload 0 1 = 1 →
    bindFields r.payload = none → s.mod.bindBad r.payload = none →
    ∃ m x, Gives (.sisterBind r.fn) s m ∧ Table.find (fld r.payload 1 1) m.binds = some x ∧
      x.state = (if fld r.payload 2 1 = 1 then .waiting else .pending) ∧ x.payload = r.payload ∧
      x.bindReq = (if fld r.payload 2 1 = 1 then none else some r) ∧ m.parts = s.mod.parts) ∧
  (∀ (s : State) (r : Request) (rest : List Request) (x : Binding), Turn s r rest → r.opcode = 0x51 →
    fld r.payload 0 1 = 2 → bindFields r.payload = none → Table.find (fld r.payload 1 1) s.mod.binds = some x →
    s.mod.partsBusy x.parts = false →
    ∃ m, Gives (.sisterUnbind r.fn) s m ∧ Table.find (fld r.payload 1 1) m.binds = none) ∧
  (∀ (s : State) (r : Request) (rest : List Request) (x : Binding), Turn s r rest → r.opcode = 0x51 →
    fld r.payload 0 1 = 3 → bindFields r.payload = none → Table.find (fld r.payload 1 1) s.mod.binds = some x →
    x.standby = true → (x.state = .orphaned ∨ x.state = .released ∨ x.state = .broken) →
    ∃ m, Gives (.sisterTakeover r.fn) s m ∧ Table.find (fld r.payload 1 1) m.binds = none) ∧
  (∀ (s : State) (b : Fin 12) (x : Binding), Live s → Table.find b.val s.mod.binds = some x →
    (x.bindReq.isSome = true → ∃ m, Gives (.sisBindTimeout b) s m ∧ Table.find b.val m.binds = none) ∧
    (x.bindReq = none → Gives (.sisBindTimeout b) s s.mod))

/-- Heartbeats, acknowledgements, releases and breaks of a binding. A heartbeat is one sealed frame on a held link, and the
first of its epoch makes the waiting end ACTIVE. A commit whose tags passed is applied: rows, then the entry with LC and LT,
then the acknowledgement; one whose tag fails breaks the binding and writes nothing. Where the spec leaves a point open this
is the model's choice (assumption 34). -/
def Obligations.SisterEvents : Prop :=
  (∀ (s : State) (b : Fin 12) (n : Fin 96) (x : Binding) (p : Path), Alive s → Table.find b.val s.mod.binds = some x →
    Table.find x.pathId s.mod.paths = some p →
    let fs := s.mod.sisterFrames x p 64 (sisterHead 2 0 0 0 0 x.epoch none) []
    fs.length = 1 ∧
    (n.val ∈ x.links → (s.mod.link n.val).canSend = true → Gives (.sisHeartbeatTx b n) s
      ((s.mod.modPath x.pathId fun p => { p with txCount := p.txCount + 1 }).forAll (fun m f => m.placeFrame n.val f) fs)) ∧
    (n.val ∉ x.links → Gives (.sisHeartbeatTx b n) s s.mod)) ∧
  (∀ (s : State) (b : Fin 12) (e : Word) (x : Binding), Alive s → Table.find b.val s.mod.binds = some x →
    ((x.state = .waiting ∨ x.state = .pending) → x.epoch = e.toNat →
      ∃ m, Gives (.sisHeartbeatRx b e) s m ∧ Table.find b.val m.binds = some { x with state := .active, bindReq := none }) ∧
    (x.epoch ≠ e.toNat → Gives (.sisHeartbeatRx b e) s s.mod)) ∧
  (∀ (s : State) (b : Fin 12) (x : Binding), Alive s → Table.find b.val s.mod.binds = some x →
    (x.state = .active → x.standby = true → ∃ m, Gives (.sisHeartbeatLoss b) s m ∧
      Table.find b.val m.binds =
        some { x with state := .orphaned, cause := 1, settling := some s.mod.devtime, queue := [], unacked := [] }) ∧
    (x.state = .active → x.standby = false → ∃ m y, Gives (.sisHeartbeatLoss b) s m ∧ Table.find b.val m.binds = some y ∧
      y.state = .broken ∧ y.cause = 1) ∧
    (x.state ≠ .active → Gives (.sisHeartbeatLoss b) s s.mod)) ∧
  (∀ (s : State) (b : Fin 12) (k : Fin 64) (x : Binding), Alive s → Table.find b.val s.mod.binds = some x →
    x.state = .active → x.standby = false →
    (x.lagged = true → Table.get 0 k.val x.unacked ≠ 0 →
      ∃ m y, Gives (.sisAckRx b k) s m ∧ Table.find b.val m.binds = some y ∧ y.applied = x.applied + 1 ∧
        Table.get 0 k.val y.unacked = Table.get 0 k.val x.unacked - 1 ∧ m.parts = s.mod.parts) ∧
    (∀ w ws, x.lagged = false → bit x.parts k.val = true → (s.mod.part k.val).mirrorWait = w :: ws →
      ∃ m y, Gives (.sisAckRx b k) s m ∧ Table.find b.val m.binds = some y ∧ y.applied = x.applied + 1 ∧
        (m.part k.val).mirrorWait = ws)) ∧
  (∀ (s : State) (b : Fin 12) (k : Fin 64) (x : Binding), Alive s → Table.find b.val s.mod.binds = some x →
    x.state = .active → x.standby = false → x.lagged = false → bit x.parts k.val = true →
    ((s.mod.part k.val).mirrorWait ≠ [] →
      ∃ m y, Gives (.sisAckTimeout b k) s m ∧ Table.find b.val m.binds = some y ∧ y.state = .broken ∧ y.cause = 5) ∧
    ((s.mod.part k.val).mirrorWait = [] → Gives (.sisAckTimeout b k) s s.mod)) ∧
  (∀ (s : State) (b : Fin 12) (e : Word) (x : Binding), Alive s → Table.find b.val s.mod.binds = some x →
    (x.standby = true → x.state = .active → x.epoch = e.toNat →
      ∃ m, Gives (.sisReleaseRx b e) s m ∧ Table.find b.val m.binds = some { x with state := .released }) ∧
    ((x.standby = false ∨ x.state ≠ .active ∨ x.epoch ≠ e.toNat) →
      Gives (.sisReleaseRx b e) s (s.mod.chipCount (offSisStatus b.val) 23 16))) ∧
  (∀ (s : State) (b : Fin 12) (e : Word) (cause : Fin 8) (x : Binding), Alive s → Table.find b.val s.mod.binds = some x →
    ((x.state = .active ∨ x.state = .waiting) → x.epoch = e.toNat →
      ∃ m y, Gives (.sisBreakRx b e cause) s m ∧ Table.find b.val m.binds = some y ∧ y.state = .broken ∧
        y.cause = cause.val) ∧
    (x.epoch ≠ e.toNat → Gives (.sisBreakRx b e cause) s (s.mod.chipCount (offSisStatus b.val) 23 16))) ∧
  (∀ (s : State) (b : Fin 12) (x : Binding), Alive s → Table.find b.val s.mod.binds = some x →
    (∀ t, x.settling = some t →
      ∃ m, Gives (.sisSettle b) s m ∧ Table.find b.val m.binds = some { x with settling := none }) ∧
    (x.settling = none → Gives (.sisSettle b) s s.mod)) ∧
  (∀ (s : State) (b : Fin 12) (r : SisterMsg) (e : ApplyEcc), Alive s →
    (Table.find b.val s.mod.binds = none →
      ∃ m, Gives (.sisCommitApply b r e) s m ∧ m.parts = s.mod.parts ∧
        getF (m.chipReg (offSisStatus b.val)) 23 16 = min (getF (s.mod.chipReg (offSisStatus b.val)) 23 16 + 1) 255) ∧
    (∀ x, Table.find b.val s.mod.binds = some x → x.standby = true → x.state = .active → s.mod.openSister x r = none →
      ∃ m y, Gives (.sisCommitApply b r e) s m ∧ Table.find b.val m.binds = some y ∧ y.state = .broken ∧ y.cause = 4 ∧
        m.parts = s.mod.parts) ∧
    (∀ x msg near shad, Table.find b.val s.mod.binds = some x → x.standby = true → x.state = .active →
      s.mod.openSister x r = some msg → fld msg 12 4 = x.epoch →
      let k := fld msg 1 1
      let seq := fld msg 2 2
      let en := s.mod.readEntry k seq e.entry
      x.mirrors k seq = true → (s.mod.part k).underReset = false → en.2.1 = false → applyOk en.1 msg r.len = true →
      (en.2.2.applyPages k en.1 (fld msg 4 4) (fld msg 8 4) e).1 = some (near, shad) →
      ∃ m y, Gives (.sisCommitApply b r e) s m ∧ Table.find b.val m.binds = some y ∧ y.applied = x.applied + 1 ∧
        y.state = .active ∧ m.out.getLast? = some (.sisterAck b.val k) ∧
        (e = ⟨.clean, .clean, .clean⟩ → ∀ j, j ≠ k → m.part j = s.mod.part j)))

/-! ### Raises -/

/-- A raise lands: a whole record written into a launch window takes a credit of its queue; one that passes the checks
of landing waits in its queue, under the promise of its reservation where the queue is bound, and one that does not
completes at once. A write that leaves the record open is kept and lands nothing, and a context that does not exist takes
nothing. -/
def Obligations.RaisesLand : Prop :=
  (∀ (s : State) (f : Fn) (k : Fin 64) (c : Fin 16) (q : Fin 4) (off : Fin 256) (data : List Byte), Writes s f k.val →
    ((s.mod.part k.val).ctx c.val).created = true → data.length = 64 → off.val = 64 * q.val → s.mod.shutStands = false →
    let p := s.mod.part k.val
    let bare : Raise :=
      { record := data, q := q.val, tLand := s.mod.devtime, guar := p.bound c.val q.val
        eventMode := getB (p.reg offEvtCtrl) 0, serial := p.landSerial, voided := none, noticed := false, met := false
        waitMs := getF (p.reg offWdogCfg) 31 16 }
    let r := bare.latch s.mod k.val
    (s.mod.landingBad k.val c.val r = none → (r.waits = true → (s.mod.part r.waitPart).underReset = false) →
      ∃ m x, Gives (.launchRecord f k c off data) s m ∧
        (((m.part k.val).ctx c.val).queue q.val).landed = ((p.ctx c.val).queue q.val).landed ++ [x] ∧
        (p.resvOf c.val q.val = none → x = r) ∧
        (∀ i v, p.resvOf c.val q.val = some (i, v) → x = { r with voided := s.mod.landingVoid k.val c.val r v } ∧
          Table.find i (m.part k.val).resvs = some { v with prev := some s.mod.devtime }) ∧
        (((m.part k.val).ctx c.val).queue q.val).taken = ((p.ctx c.val).queue q.val).taken + 1 ∧
        (∀ i, i ≠ q.val → ((m.part k.val).ctx c.val).queue i = (p.ctx c.val).queue i) ∧ (m.part k.val).near = p.near ∧
        (m.part k.val).regs = p.regs ∧ (∀ j, j ≠ k.val → m.part j = s.mod.part j)) ∧
    (∀ st d, s.mod.landingBad k.val c.val r = some (st, d) →
      ∃ m, Gives (.launchRecord f k c off data) s m ∧
        (((m.part k.val).ctx c.val).queue q.val).landed.length = ((p.ctx c.val).queue q.val).landed.length ∧
        (m.part k.val).reg (offQdDone c.val q.val) = p.reg (offQdDone c.val q.val) + 1 ∧
        (m.part k.val).near = p.near ∧ (m.part k.val).events = p.events)) ∧
  (∀ (s : State) (f : Fn) (k : Fin 64) (c : Fin 16) (q : Fin 4) (off : Fin 256) (data : List Byte), Writes s f k.val →
    ((s.mod.part k.val).ctx c.val).created = true → 0 < data.length → 64 * q.val ≤ off.val →
    off.val + data.length < 64 * q.val + 64 →
    Gives (.launchRecord f k c off data) s
      (s.mod.modCtx k.val c.val fun x => { x with windows := Cells.write x.windows off.val data })) ∧
  (∀ (s : State) (f : Fn) (k : Fin 64) (c : Fin 16) (off : Fin 256) (data : List Byte), Linked s → 0 < data.length →
    data.length ≤ 512 → (s.mod.writable f k.val = false ∨ ((s.mod.part k.val).ctx c.val).created = false) →
    Gives (.launchRecord f k c off data) s s.mod)

/-- RAISE_START and GATHER_WINDOW_END: a guaranteed-class head starts before any other, a best-effort head where the governor
lets it, on the truss it takes; a leader that gathers holds its start until its window ends. A run that begins stands in its
context. Nodes and raises end: an instance starts, ends once its work is done, and its raise completes. -/
def Obligations.RaisesRun : Prop :=
  (∀ (s : State) (k : Fin 64) (e : StartEcc) (x : Place) (t : Nat), On s → s.mod.schedules k.val = true →
    (s.mod.part k.val).hold = none → (s.mod.part k.val).running = [] → (s.mod.part k.val).guarHead = some x →
    let m := s.mod.modPart k.val fun p => { p with hold := none }
    (m.part k.val).forStart.takeTruss x = some t →
    (∀ r, x.head = .landed r → Gives (.raiseStart k e) s
      ((m.startHead k.val x (m.joined k.val x.c r []) t 1800 e).advanceAll k.val)) ∧
    (∀ u, x.head = .parked u → Gives (.raiseStart k e) s ((m.startHead k.val x [] t 1800 e).advanceAll k.val))) ∧
  (∀ (s : State) (k : Fin 64) (e : StartEcc) (x : Place) (t : Nat), On s → s.mod.schedules k.val = true →
    (s.mod.part k.val).hold = none → (s.mod.part k.val).running = [] → (s.mod.part k.val).guarHead = none →
    let d := s.mod.draw
    let mhz := d.2.startMhz k.val (d.2.clockStep k.val d.1) x
    d.2.chooseBest k.val (d.2.clockStep k.val d.1) = some x → (s.mod.part k.val).forStart.takeTruss x = some t →
    (∀ u, x.head = .parked u → Gives (.raiseStart k e) s ((d.2.startHead k.val x [] t mhz e).advanceAll k.val)) ∧
    (∀ r, x.head = .landed r →
      let joined := d.2.joined k.val x.c r []
      let m := if mhz < 1800 ∨ d.2.tripStands = true then d.2.chipCount offPwrGovCnt 15 0 else d.2
      (d.2.opensWindow k.val x.c r joined = true → Gives (.raiseStart k e) s ((d.2.modPart k.val fun p =>
        { p with hold := some { ctx := x.c, q := x.q, since := s.mod.devtime, joined := joined } }).advanceAll k.val)) ∧
      (d.2.opensWindow k.val x.c r joined = false → d.2.governorHolds = false → Gives (.raiseStart k e) s
        (((m.modPart k.val fun p => { p with hold := none }).startHead k.val x joined t mhz e).advanceAll k.val)) ∧
      (d.2.opensWindow k.val x.c r joined = false → d.2.governorHolds = true → Gives (.raiseStart k e) s
        (((d.2.modPart k.val fun p => { p with hold := none }).chipCount offPwrGovCnt 31 16).advanceAll k.val)))) ∧
  (∀ (s : State) (k : Fin 64) (e : StartEcc), On s → s.mod.schedules k.val = false → Gives (.raiseStart k e) s s.mod) ∧
  (∀ (s : State) (k : Fin 64) (e : StartEcc) (h : Hold), On s → (s.mod.part k.val).hold = some h →
    ((s.mod.schedules k.val && (s.mod.part k.val).guarHead.isNone) = false →
      Gives (.gatherWindowEnd k e) s (s.mod.settleHold k.val)) ∧
    (s.mod.schedules k.val = true → (s.mod.part k.val).guarHead = none →
      let d := s.mod.draw
      let step := d.2.clockStep k.val d.1
      (d.2.holdLeader k.val h = none →
        Gives (.gatherWindowEnd k e) s (d.2.modPart k.val fun p => { p with hold := none })) ∧
      (∀ r t, d.2.holdLeader k.val h = some r →
        let x : Place := { c := h.ctx, q := h.q, head := .landed r }
        let mhz := d.2.startMhz k.val step x
        let m := if mhz < 1800 ∨ d.2.tripStands = true then d.2.chipCount offPwrGovCnt 15 0 else d.2
        d.2.eligible k.val step x = true → d.2.governorHolds = false →
        ({ s.mod.part k.val with hold := none } : Partition).forStart.takeTruss x = some t →
        Gives (.gatherWindowEnd k e) s
          (((m.modPart k.val fun p => { p with hold := none }).startHead k.val x (d.2.joined k.val h.ctx r h.joined) t mhz
            e).modPart k.val fun p => { p with hold := none })))) ∧
  (∀ (s : State) (k : Fin 64) (e : StartEcc), On s → (s.mod.part k.val).hold = none →
    Gives (.gatherWindowEnd k e) s s.mod) ∧
  (∀ (m : Mod) (k : Nat) (x : Place) (joined : List Nat) (t mhz : Nat) (e : StartEcc),
    (∀ u, x.head = .parked u →
      let m' := m.startHead k x joined t mhz e
      ((m'.part k).ctx x.c).run = some u ∧ Table.find u.q ((m'.part k).ctx x.c).parked = none ∧
        ∀ j, j ≠ k → m'.part j = m.part j) ∧
    (∀ r, x.head = .landed r →
      m.startHead k x joined t mhz e = (m.modPart k fun p => { p.forStart with hold := none }).launch k x.c r joined t mhz e)) ∧
  (∀ (m : Mod) (k c : Nat) (r : Raise) (t mhz : Nat) (f : Forming) (mb : Member) (ms : List Member),
    f.members = mb :: ms →
    (∀ i, i < frameNodes (((m.part k).ctx c).frameImage r.frame) →
      nodeUnit (((m.part k).ctx c).frameImage r.frame) i ≠ 4) →
    let m' := m.beginRun k c r f t mhz
    ((m'.part k).ctx c).run = some (f.run r.frame r.guar t mhz m.devtime) ∧ (r.guar = false → (m'.part k).lastCtx = c) ∧
      (∀ j, j ≠ k → m'.part j = m.part j)) ∧
  (∀ (m : Mod) (k : Nat), (∀ e ∈ m.paths, e.2.owner ≠ k) → m.advanceAll k = m) ∧
  (∀ (s : State) (k : Fin 64) (c : Fin 16) (node member : Nat), On s →
    let img := ((s.mod.part k.val).ctx c.val).runImage
    let m := s.mod.modRun k.val c.val fun u => u.starting img node member
    (s.mod.schedules k.val = true → s.mod.mayStart k.val c.val node member = true →
      Gives (.nodeStart k c node member) s
        ((if nodeUnit img node = 4 ∧ linkSends (nodeBody img node) = true
          then m.sendStart k.val c.val node member (nodeBody img node) else m).watchLinks k.val)) ∧
    ((s.mod.schedules k.val && s.mod.mayStart k.val c.val node member) = false →
      Gives (.nodeStart k c node member) s s.mod)) ∧
  (∀ (u : Run) (img : List Byte) (node member : Nat), member < 64 →
    (u.starting img node member).phase node member = some .running ∧
      (u.starting img node member).members = u.members ∧ (u.starting img node member).ending = u.ending) ∧
  (∀ (s : State) (k : Fin 64) (c : Fin 16) (node member : Nat) (u : Run), Live s →
    (s.mod.part k.val).underReset = false → ((s.mod.part k.val).ctx c.val).run = some u →
    let b := nodeBody (((s.mod.part k.val).ctx c.val).image u) node
    let sends := nodeUnit (((s.mod.part k.val).ctx c.val).image u) node = 4 ∧ linkSends b = true
    (u.phase node member = some .worked →
      (¬ sends ∨ u.ending.isSome = true ∨ s.mod.sendLeft k.val u node member = true) →
      Gives (.nodeComplete k c node member) s
        ((s.mod.keyRelease fun y => y == .linkSend k.val c.val node member).modRun k.val c.val fun u =>
          u.setNode node member .done)) ∧
    (u.phase node member ≠ some .worked → Gives (.nodeComplete k c node member) s s.mod)) ∧
  (∀ (s : State) (k : Fin 64) (c : Fin 16), Live s → (s.mod.part k.val).underReset = false →
    ∀ u, ((s.mod.part k.val).ctx c.val).finishedRun = some u →
      Gives (.raiseComplete k c) s (((s.mod.completeRun k.val c.val u u.outcome).settleHolds).advanceAll k.val)) ∧
  (∀ (m : Mod) (k c : Nat) (r : Raise) (st d : Nat), r.sigEn = false → c < 16 → r.q < 4 →
    ((m.complete k c r st d).part k).reg (offQdDone c r.q) = (m.part k).reg (offQdDone c r.q) + 1) ∧
  (∀ (r : Raise), (finalStatus r none = if r.voided.isSome then (stGuaranteeSuspended, 0) else (stOk, 0)) ∧
    ∀ x, finalStatus r (some x) = x)

/-- The completion ring: a record goes to the entry that WR names while fewer than 256 stand and none is held; else it
is held; a fifth held one is dropped, its credit returned, and EVT_STATUS.CPL_LOST set. The rings as the host and
Molique move them: RD passes records, a value beyond WR is ignored; held records and notices follow where there is room;
MEM is cleared with its notice. -/
def Obligations.Rings : Prop :=
  (∀ (m : Mod) (k c : Nat) (body : List Byte), c < 16 →
    let p := m.part k
    let x := p.ctx c
    let p' := (m.pushRecord k c body false).part k
    let x' := p'.ctx c
    (x.held = [] → p.cplDepth c < 256 →
      Table.get [] (p.cplWr c % 256) x'.ring = body ∧ p'.cplDepth c = p.cplDepth c + 1 ∧ x'.held = [] ∧
        ∀ i, i ≠ p.cplWr c % 256 → Table.get [] i x'.ring = Table.get [] i x.ring) ∧
    (x.held ≠ [] ∨ 256 ≤ p.cplDepth c → x.held.length < 4 →
      x'.held = x.held ++ [(body, false)] ∧ x'.ring = x.ring ∧ p'.regs = p.regs) ∧
    (x.held.length = 4 →
      x'.held = x.held ∧ x'.ring = x.ring ∧ getB (p'.reg offEvtStatus) 3 = true ∧
        (x'.queue (fld body 28 1 % 4)).taken = (x.queue (fld body 28 1 % 4)).taken - 1)) ∧
  (∀ (s : State) (f : Fn) (k : Fin 64) (c : Fin 16) (value : Word), Writes s f k.val →
    ((s.mod.part k.val).ctx c.val).created = true →
    (getF value 24 16 + 512 - (s.mod.part k.val).cplRd c.val) % 512 ≤ (s.mod.part k.val).cplDepth c.val →
    ∃ m, Gives (.cplRdWrite f k c value) s m ∧ (m.part k.val).cplRd c.val = getF value 24 16 ∧
      (m.part k.val).cplWr c.val = (s.mod.part k.val).cplWr c.val ∧
      ((m.part k.val).ctx c.val).ring = ((s.mod.part k.val).ctx c.val).ring ∧ ∀ j, j ≠ k.val → m.part j = s.mod.part j) ∧
  (∀ (s : State) (f : Fn) (k : Fin 64) (c : Fin 16) (value : Word), Linked s →
    (s.mod.part k.val).cplDepth c.val < (getF value 24 16 + 512 - (s.mod.part k.val).cplRd c.val) % 512 →
    Gives (.cplRdWrite f k c value) s s.mod) ∧
  (∀ (s : State) (k : Fin 64) (c : Fin 16) (body : List Byte), Alive s →
    ((s.mod.part k.val).ctx c.val).held = [(body, false)] → (s.mod.part k.val).cplDepth c.val < 256 →
    ∃ m, Gives (.cplRecordRetry k c) s m ∧ ((m.part k.val).ctx c.val).held = [] ∧
      Table.get [] ((s.mod.part k.val).cplWr c.val % 256) ((m.part k.val).ctx c.val).ring = body) ∧
  (∀ (s : State) (k : Fin 64) (c : Fin 16), Alive s →
    (((s.mod.part k.val).ctx c.val).held = [] ∨ 256 ≤ (s.mod.part k.val).cplDepth c.val) →
    Gives (.cplRecordRetry k c) s s.mod) ∧
  (∀ (s : State) (f : Fn) (k : Fin 64) (value : Word), Writes s f k.val →
    (getF value 22 16 + 128 - (s.mod.part k.val).noticeRd) % 128 ≤ (s.mod.part k.val).noticeDepth →
    ∃ m, Gives (.noticeRdWrite f k value) s m ∧ (m.part k.val).noticeRd = getF value 22 16 ∧
      (m.part k.val).noticeWr = (s.mod.part k.val).noticeWr ∧ { m with parts := s.mod.parts } = s.mod) ∧
  (∀ (s : State) (f : Fn) (k : Fin 64) (value : Word), Linked s →
    (s.mod.part k.val).noticeDepth < (getF value 22 16 + 128 - (s.mod.part k.val).noticeRd) % 128 →
    Gives (.noticeRdWrite f k value) s s.mod) ∧
  (∀ (s : State) (k : Fin 64) (body : List Byte), Live s → (s.mod.part k.val).notices = [body] →
    (s.mod.part k.val).noticeDepth < 64 →
    ∃ m, Gives (.noticePushRetry k) s m ∧ (m.part k.val).notices = [] ∧
      Table.get [] ((s.mod.part k.val).noticeWr % 64) (m.part k.val).noticeRing = body) ∧
  (∀ (s : State) (k : Fin 64), Live s → 64 ≤ (s.mod.part k.val).noticeDepth →
    Gives (.noticePushRetry k) s s.mod) ∧
  (∀ (s : State) (f : Fn) (k : Fin 64), Writes s f k.val →
    (getB ((s.mod.part k.val).reg offSuspend) 3 = true →
      ∃ m, Gives (.admSuspendMemClear f k) s m ∧ getB ((m.part k.val).reg offSuspend) 3 = false ∧
        (m.part k.val).near = (s.mod.part k.val).near ∧ (m.part k.val).ctxs = (s.mod.part k.val).ctxs ∧
        ((s.mod.part k.val).notices = [] → (s.mod.part k.val).noticeDepth < 64 →
          Table.get [] ((s.mod.part k.val).noticeWr % 64) (m.part k.val).noticeRing =
            noticeBytes s.mod.devtime 3 0xFFFF (s.mod.part k.val).memObj 0)) ∧
    (getB ((s.mod.part k.val).reg offSuspend) 3 = false → Gives (.admSuspendMemClear f k) s s.mod))

/-- A signal never lowers an event: the event takes the larger value, and one not above it sets BACKWARD and changes
no event; signals of one instant are judged together against the value before them. In fence mode a host write stores its
value, in event mode it signals; a write that is not an aligned event is ignored and marked. A wait that is met stays
met. -/
def Obligations.EventSignals : Prop :=
  (∀ (p : Partition) (e v : Nat), e < 65536 → v < 2 ^ 64 →
    (p.signal e v).event e = max (p.event e) v ∧ (∀ i, i ≠ e → (p.signal e v).event i = p.event i) ∧
      (v ≤ p.event e → getB ((p.signal e v).reg offEvtStatus) 1 = true) ∧ (p.event e < v → (p.signal e v).regs = p.regs)) ∧
  (∀ (m : Mod) (xs : List Signal) (k e : Nat), (∀ x ∈ xs, x.value < 2 ^ 64) → (m.part k).created = true →
    ((m.signals xs).part k).event e =
        ((xs.filter fun x => x.part == k && x.event == e).map (·.value)).foldl max ((m.part k).event e) ∧
      ((∀ x ∈ xs, x.part = k → (m.part k).event x.event < x.value) → ((m.signals xs).part k).regs = (m.part k).regs) ∧
      ((∃ x ∈ xs, x.part = k ∧ x.value ≤ (m.part k).event x.event) →
        getB (((m.signals xs).part k).reg offEvtStatus) 1 = true)) ∧
  (∀ (m : Mod) (k : Nat) (r : Raise), (r.met = true → (r.latch m k).met = true) ∧
    (m.sameTenant k r.waitPart = true → r.waitVal ≤ (m.part r.waitPart).event r.waitEvt → (r.latch m k).met = true) ∧
    { r.latch m k with met := r.met } = r) ∧
  (∀ (s : State) (f : Fn) (k : Fin 64) (off : Fin 524288) (data : List Byte), Writes s f k.val →
    s.mod.seesEvent f k.val off.val = true → data.length = 8 → off.val % 8 = 0 →
    (getB ((s.mod.part k.val).reg offEvtCtrl) 0 = true → Gives (.eventHostWrite f k off data) s
      (((s.mod.modPart k.val fun p => p.signal (off.val / 8) (leNat data)).latchWaits).settleHolds)) ∧
    (getB ((s.mod.part k.val).reg offEvtCtrl) 0 = false →
      ∃ m, Gives (.eventHostWrite f k off data) s m ∧ (m.part k.val).event (off.val / 8) = leNat data ∧
        (∀ i, i ≠ off.val / 8 → (m.part k.val).event i = (s.mod.part k.val).event i) ∧
        (m.part k.val).regs = (s.mod.part k.val).regs ∧ (m.part k.val).near = (s.mod.part k.val).near)) ∧
  (∀ (s : State) (f : Fn) (k : Fin 64) (off : Fin 524288) (data : List Byte), Writes s f k.val →
    s.mod.seesEvent f k.val off.val = true → 0 < data.length → data.length ≤ 512 → ¬ (data.length = 8 ∧ off.val % 8 = 0) →
    ∃ m, Gives (.eventHostWrite f k off data) s m ∧ getB ((m.part k.val).reg offEvtStatus) 4 = true ∧
      ∀ i, (m.part k.val).event i = (s.mod.part k.val).event i) ∧
  (∀ (s : State) (f : Fn) (k : Fin 64) (off : Fin 524288) (data : List Byte), Linked s → 0 < data.length →
    data.length ≤ 512 → (s.mod.writable f k.val && s.mod.seesEvent f k.val off.val) = false →
    Gives (.eventHostWrite f k off data) s s.mod)

/-! ### Array and vector nodes -/

/-- An array pass or a vector node that runs and meets no bad scratchpad word leaves its result in its truss and has
done its work; one that meets a bad word ends its raise with ST_INTEGRITY. A word wrong by one bit is corrected and counted,
and a word that is not read is not found. Beside a vector node the stall counts of a pass rise by open numbers
(assumption 7); alone they stand. -/
def Obligations.ArrayAndVectorNodes : Prop :=
  (∀ (s : State) (k : Fin 64) (c : Fin 16) (w : UnitWork) (member : Nat) (u : Run) (img : List Byte) (mb : Member),
    Runs s k.val c.val w.index member u img mb → u.firstRunning w.index = some member → nodeUnit img w.index = 1 →
    let b := parseArray (nodeBody img w.index)
    let t := u.phys img (nodeTruss img w.index)
    let p := s.mod.part k.val
    let n := if b.gather then u.members.length else 1
    let m := (s.mod.stalls k.val t (u.beside.contains (w.index * 64 + member))).scratchFinds k.val t (b.footprint n) w.finds
    ((b.footprint n).bad ((m.part k.val).truss t) = false →
      Gives (.arrayPass k c w) s ((m.modPart k.val fun p => p.modTruss t fun x =>
        b.pass x ((s.mod.part k.val).ctx c.val).ftz n).worked k.val c.val w.index member)) ∧
    ((b.footprint n).bad ((m.part k.val).truss t) = true →
      Gives (.arrayPass k c w) s ((m.scratchError k.val c.val).worked k.val c.val w.index member)) ∧
    (u.beside.contains (w.index * 64 + member) = false → w.finds = [] → m = s.mod ∧
      (m.part k.val).truss t = p.truss t)) ∧
  (∀ (s : State) (k : Fin 64) (c : Fin 16) (node : Nat) (w : UnitWork) (u : Run) (img : List Byte) (mb : Member) (i : Instr)
      (op : Nat),
    Runs s k.val c.val node w.index u img mb → nodeUnit img node = 2 →
    ((i = .vectorAdd k c node w ∧ op = 0x01) ∨ (i = .vectorMul k c node w ∧ op = 0x02) ∨
      (i = .vectorFma k c node w ∧ op = 0x03) ∨ (i = .vectorMax k c node w ∧ op = 0x04) ∨
      (i = .vectorMin k c node w ∧ op = 0x05) ∨ (i = .convert k c node w ∧ op = 0x08) ∨
      (i = .rescale k c node w ∧ op = 0x09) ∨ (i = .vectorFunc k c node w ∧ op = 0x10) ∨
      (i = .gate k c node w ∧ op = 0x11) ∨ (i = .softmax k c node w ∧ op = 0x18) ∨
      (i = .rmsnorm k c node w ∧ op = 0x19) ∨ (i = .layernorm k c node w ∧ op = 0x1A) ∨
      (i = .argmax k c node w ∧ op = 0x1B)) →
    let b := parseVec (nodeBody img node)
    let t := u.phys img (nodeTruss img node)
    let m := s.mod.scratchFinds k.val t (b.footprint w.index) w.finds
    (b.op = op → (b.footprint w.index).bad ((m.part k.val).truss t) = false →
      let x := b.runAll ((m.part k.val).truss t) ((m.part k.val).ctx c.val).ftz w.index
      Gives i s ((m.modPart k.val fun p => (p.modTruss t fun _ => x.1).qntMarks x.2).worked k.val c.val node w.index)) ∧
    (b.op = op → (b.footprint w.index).bad ((m.part k.val).truss t) = true →
      Gives i s ((m.scratchError k.val c.val).worked k.val c.val node w.index)) ∧
    (b.op ≠ op → Gives i s s.mod)) ∧
  (∀ (m : Mod) (k t : Nat) (f : Footprint), m.scratchFinds k t f [] = m) ∧
  (∀ (m : Mod) (k t : Nat) (f : Footprint) (x : WordFind),
    (f.meets x.store.val x.word = false → m.scratchFinds k t f [x] = m) ∧
    (f.meets x.store.val x.word = true → (((m.part k).truss t).bad x.store.val).contains x.word = false →
      (x.single = true → m.scratchFinds k t f [x] = m.modPart k fun p => p.count offSpEcc 15 0) ∧
      (x.single = false → f.bad (((m.scratchFinds k t f [x]).part k).truss t) = true)))

/-- The value of a group of products: NaN with a NaN or infinities of both signs, an infinity with infinities of one
sign, and the exact sum where all are finite, whose zero is negative only where every product is -0. -/
def Obligations.GroupValues : Prop :=
  ∀ ps : List FNum, ps ≠ [] →
    ((.nan ∈ ps ∨ (.inf true ∈ ps ∧ .inf false ∈ ps)) → groupValue ps = .nan) ∧
    (∀ g, .nan ∉ ps → .inf g ∈ ps → .inf (!g) ∉ ps → groupValue ps = .inf g) ∧
    ((∀ x ∈ ps, ∃ g a e, x = .fin g a e) →
      ∃ g a e, groupValue ps = .fin g a e ∧
        ((if g then -(a : ℚ) else (a : ℚ)) * (2 : ℚ) ^ e =
          (ps.map fun x => match x with
            | .fin g a e => (if g then -(a : ℚ) else (a : ℚ)) * (2 : ℚ) ^ e
            | _ => 0).sum) ∧
        (a = 0 → (g = true ↔ ∀ x ∈ ps, ∃ e, x = .fin true 0 e)))

/-! ### The DMA engine -/

/-- Descriptors come to their channels: from a DMA node, from the host, and from those that waited for room; a disabled channel
ends the raise. A unit moves: read at the source, written at the destination; the one that completes the descriptor ends it,
and a row of a scratchpad stands in near memory afterwards, every other near byte as before. A unit of a window is accepted
by its checks, or a bus error of cause 4. Where the spec leaves its form open this is the model's choice (assumptions 22, 23
and 51). -/
def Obligations.DmaTransfers : Prop :=
  (∀ (s : State) (k : Fin 64) (c : Fin 16) (node member : Nat) (u : Run) (img : List Byte) (mb : Member),
    Runs s k.val c.val node member u img mb → nodeUnit img node = 3 →
    (s.mod.part k.val).hasDesc c.val node member = false →
    let ch := nodePrio img node % 16
    let h := (s.mod.part k.val).chan ch
    let d := s.mod.nodeDesc u img mb c.val node member
    (getB ((s.mod.part k.val).reg (offChCtrl ch)) 0 = false →
      ∃ m, Gives (.dmaTransfer k c node member) s m ∧
        (m.part k.val).chan ch = (if h.waiting = [] ∧ h.queue.length < 16 then { h with queue := h.queue ++ [d] }
          else { h with waiting := h.waiting ++ [d] }) ∧
        (∀ i, i ≠ ch → (m.part k.val).chan i = (s.mod.part k.val).chan i) ∧ ∀ j, j ≠ k.val → m.part j = s.mod.part j) ∧
    (getB ((s.mod.part k.val).reg (offChCtrl ch)) 0 = true →
      Gives (.dmaTransfer k c node member) s (s.mod.ownerFails k.val ch d stAborted ch))) ∧
  (∀ (s : State) (k : Fin 64) (ch : Fin 16) (i : Instr) (d : Desc) (rest : List Desc), Alive s →
    (s.mod.part k.val).underReset = false →
    ((i = .bayDescPushRetry k ch ∧ d.job = .sides) ∨ (i = .pageWalkPush k ch ∧ d.job ≠ .sides)) →
    ((s.mod.part k.val).chan ch.val).waiting = d :: rest → ((s.mod.part k.val).chan ch.val).queue.length < 16 →
    ∃ m, Gives i s m ∧ (m.part k.val).chan ch.val = { (s.mod.part k.val).chan ch.val with
        queue := ((s.mod.part k.val).chan ch.val).queue ++ [d], waiting := rest } ∧
      ∀ j, j ≠ k.val → m.part j = s.mod.part j) ∧
  (∀ (s : State) (f : Fn) (k : Fin 64) (ch : Fin 16) (off : Fin 512) (data : List Byte), Writes s f k.val →
    off.val = 32 * ch.val → data.length = 32 →
    let h := (s.mod.part k.val).chan ch.val
    let ctrl := (s.mod.part k.val).reg (offChCtrl ch.val)
    ∃ m, Gives (.dmaDescHostPush f k off data) s m ∧
      (hostDescOk data = true → getB ctrl 0 = false → h.queue.length < 16 →
        (m.part k.val).chan ch.val = { h with queue := h.queue ++ [literalDesc .host data] }) ∧
      (hostDescOk data = true → (getB ctrl 0 = true ∨ 16 ≤ h.queue.length) →
        (m.part k.val).chan ch.val = h ∧ getB ((m.part k.val).reg (offChStatus ch.val)) 5 = true) ∧
      (hostDescOk data = false →
        (m.part k.val).chan ch.val = h ∧ getB ((m.part k.val).reg (offChStatus ch.val)) 6 = true) ∧
      (m.part k.val).near = (s.mod.part k.val).near ∧ ∀ j, j ≠ k.val → m.part j = s.mod.part j) ∧
  (∀ (s : State) (k : Fin 64) (ch : Fin 16) (e : UnitEcc) (d : Desc), On s →
    ((s.mod.part k.val).chan ch.val).queue.head? = some d → s.mod.unitMoves k.val ch.val = true →
    let at' := ((s.mod.part k.val).chan ch.val).written
    s.mod.sidesOk k.val ch.val d at' = true → d.window = none → (d.job = .sides → d.srcKind ≠ 3) →
    let m1 := s.mod.latchKey k.val ch.val d
    let n := m1.unitLen d at'
    let r := m1.moveUnit k.val ch.val d at' e
    (r.1 = true → Gives (.dmaUnitWritten k ch e) s (r.2.2.busError k.val ch.val 1)) ∧
    (r.1 = false →
      let m2 := (match r.2.1 with
        | some detail => r.2.2.poisonRaise k.val d detail
        | none => r.2.2).modPart k.val fun p => p.modChan ch.val fun h => h.wrote n
      Gives (.dmaUnitWritten k ch e) s
        (if d.len ≤ at' + n then (m2.descDone k.val ch.val d).laneEnd k.val d else m2.issueAhead k.val ch.val))) ∧
  (∀ (s : State) (k : Fin 64) (ch : Fin 16) (d : Desc), On s →
    ((s.mod.part k.val).chan ch.val).queue.head? = some d → s.mod.unitMoves k.val ch.val = true → d.job = .sides →
    let at' := ((s.mod.part k.val).chan ch.val).written
    let n := s.mod.unitLen d at'
    let t := (s.mod.part k.val).truss (locTruss d.src)
    let a := locRow d.src * rowBytes (locStore d.src) + at'
    let b := addrLoc d.dst + at'
    d.srcKind = 1 → d.dstKind = 0 → compressed d.dst = false → isExt (addrLoc d.dst) = false → at' % 512 = 0 → at' < d.len →
    s.mod.sidesOk k.val ch.val d at' = true → t.readBad (locStore d.src) a n = false →
    ∃ m, Gives (.dmaUnitWritten k ch UnitEcc.clean) s m ∧ Cells.read (m.part k.val).near b n = t.read (locStore d.src) a n ∧
      (∀ x, (x < b ∨ b + n ≤ x) → Sparse.get x (m.part k.val).near = Sparse.get x (s.mod.part k.val).near) ∧
      (m.part k.val).ext = (s.mod.part k.val).ext ∧ (m.part k.val).trusses = (s.mod.part k.val).trusses ∧
      ((m.part k.val).chan ch.val).done = (if d.len ≤ at' + n then d.len else ((s.mod.part k.val).chan ch.val).done) ∧
      ∀ j, j ≠ k.val → m.part j = s.mod.part j) ∧
  (∀ (s : State) (j : Fin 64) (ch : Fin 16) (d : Desc), On s →
    let h := (s.mod.part j.val).chan ch.val
    h.queue.head? = some d → s.mod.issuesNext j.val ch.val = true → d.window.isSome = true →
    s.mod.sidesOk j.val ch.val d h.written = true →
    (s.mod.winAccepts j.val d ((s.mod.part j.val).ofGuar d) h.written (s.mod.unitBytes d) = true →
      ∃ m, Gives (.windowUnitRx j ch) s m ∧ (m.part j.val).chan ch.val = { h with winOk := true } ∧
        (∀ path, d.crosses j.val = some path → (s.mod.part j.val).ofGuar d = false →
          Table.find path m.holders = some (j.val, ch.val)) ∧
        (d.crosses j.val = none ∨ (s.mod.part j.val).ofGuar d = true → m.holders = s.mod.holders) ∧
        ∀ i, i ≠ j.val → m.part i = s.mod.part i) ∧
    (s.mod.winAccepts j.val d ((s.mod.part j.val).ofGuar d) h.written (s.mod.unitBytes d) = false →
      Gives (.windowUnitRx j ch) s (s.mod.busError j.val ch.val 4)))

/-- A bus error: recorded, the engine stopped, the failing descriptor gone; one that the head met in the cycle in which DISABLE
dropped it is recorded and ends no raise again (R241); one that does not stand changes nothing. The restart lets the other
channels go on. A channel disabled: its queue is empty and DISABLE reads 1; enabled again, DISABLE reads 0. -/
def Obligations.DmaFaults : Prop :=
  (∀ (s : State) (k : Fin 64) (ch : Fin 16) (cause : Fin 5) (d : Desc), On s →
    ((s.mod.part k.val).chan ch.val).queue.head? = some d → d.owner = .host → s.mod.serves k.val ch.val = true →
    s.mod.errorStands k.val ch.val cause.val d = true → cause.val = 3 →
    ∃ m, Gives (.dmaBusError k ch cause) s m ∧ getB ((m.part k.val).reg offDmaEng) 16 = true ∧
      ((m.part k.val).chan ch.val).queue = ((s.mod.part k.val).chan ch.val).queue.drop 1 ∧
      getB ((m.part k.val).reg (offChStatus ch.val)) 7 = true ∧
      (getB ((s.mod.part k.val).reg offDmaErr) 31 = false →
        getB ((m.part k.val).reg offDmaErr) 31 = true ∧ getF ((m.part k.val).reg offDmaErr) 29 27 = 3 ∧
          getF ((m.part k.val).reg offDmaErr) 26 23 = ch.val ∧ getF ((m.part k.val).reg offDmaErr) 22 22 = 1) ∧
      (getB ((s.mod.part k.val).reg offDmaErr) 31 = true → getB ((m.part k.val).reg offDmaErr) 30 = true) ∧
      (m.part k.val).near = (s.mod.part k.val).near ∧ (∀ j, j ≠ k.val → m.part j = s.mod.part j)) ∧
  (∀ (s : State) (k : Fin 64) (ch : Fin 16) (cause : Fin 5) (d : Desc), On s →
    ((s.mod.part k.val).chan ch.val).queue.head? = some d → s.mod.serves k.val ch.val = true →
    (s.mod.errorStands k.val ch.val cause.val d = true → Gives (.dmaBusError k ch cause) s (s.mod.busError k.val ch.val cause.val)) ∧
    (s.mod.errorStands k.val ch.val cause.val d = false → Gives (.dmaBusError k ch cause) s s.mod)) ∧
  (∀ (s : State) (k : Fin 64) (ch : Fin 16) (cause : Fin 5) (unit : Nat) (host : Bool), Live s →
    (s.mod.part k.val).underReset = false → ((s.mod.part k.val).chan ch.val).queue = [] →
    ((s.mod.part k.val).chan ch.val).cut = some (s.mod.devtime, unit, host) → 1 ≤ cause.val →
    ∃ m, Gives (.dmaBusError k ch cause) s m ∧ getB ((m.part k.val).reg offDmaEng) 16 = true ∧
      ((m.part k.val).chan ch.val).cut = none ∧ ((m.part k.val).chan ch.val).queue = [] ∧
      (getB ((s.mod.part k.val).reg offDmaErr) 31 = false →
        getB ((m.part k.val).reg offDmaErr) 31 = true ∧ getF ((m.part k.val).reg offDmaErr) 29 27 = cause.val ∧
          getF ((m.part k.val).reg offDmaErr) 26 23 = ch.val) ∧
      (m.part k.val).ctxs = (s.mod.part k.val).ctxs ∧ (∀ j, j ≠ k.val → m.part j = s.mod.part j)) ∧
  (∀ (s : State) (k : Fin 64), Live s → (s.mod.part k.val).underReset = false →
    Gives (.dmaEngineRestart k) s ((s.mod.modPart k.val fun p => p.setFld offDmaEng 16 16 0).advanceAll k.val) ∧
    (s.mod.paths = [] → ∃ m, Gives (.dmaEngineRestart k) s m ∧ getB ((m.part k.val).reg offDmaEng) 16 = false ∧
      (m.part k.val).chans = (s.mod.part k.val).chans)) ∧
  (∀ (s : State) (f : Fn) (k : Fin 64) (ch : Fin 16), Writes s f k.val →
    getB ((s.mod.part k.val).reg (offChCtrl ch.val)) 0 = false →
    (∀ d ∈ ((s.mod.part k.val).chan ch.val).queue ++ ((s.mod.part k.val).chan ch.val).waiting, d.owner = .host) →
    ∃ m, Gives (.dmaChDisable f k ch) s m ∧ ((m.part k.val).chan ch.val).queue = [] ∧
      ((m.part k.val).chan ch.val).waiting = [] ∧ getB ((m.part k.val).reg (offChCtrl ch.val)) 0 = true ∧
      (((s.mod.part k.val).chan ch.val).queue ≠ [] → getB ((m.part k.val).reg (offChStatus ch.val)) 7 = true)) ∧
  (∀ (s : State) (f : Fn) (k : Fin 64) (ch : Fin 16), Writes s f k.val →
    ∃ m, Gives (.dmaChEnable f k ch) s m ∧ getB ((m.part k.val).reg (offChCtrl ch.val)) 0 = false ∧
      (m.part k.val).chans = (s.mod.part k.val).chans ∧ (m.part k.val).near = (s.mod.part k.val).near ∧
      ∀ j, j ≠ k.val → m.part j = s.mod.part j)

/-- Windows open by their checks, close, and stay open until no accepted unit is left. The aperture over the scratchpads: its
select register, reads, at once or behind those that wait for a free position of the port, and writes gathered until the
row's last word, with which the row is written. Where the spec leaves its form open this is the model's choice
(assumptions 24 and 51). -/
def Obligations.WindowsAndAperture : Prop :=
  (∀ (s : State) (f : Fn) (k : Fin 64) (w : Fin 16) (value : Word), Writes s f k.val → getB value 29 = true →
    getB value 30 = false → winOpen ((s.mod.part k.val).win w.val) = false →
    ∃ m, Gives (.dmaWinOpen f k w value) s m ∧
      (let c := (m.part k.val).win w.val
       getF c 25 15 = getF value 25 15 ∧ getF c 5 0 = getF value 5 0 ∧
        winOpen c = (getF c 28 26 == 0) ∧
        getF c 28 26 = (s.mod.modPart k.val fun p => p.setReg (offWinCtrl w.val)
          (setF (setF (p.win w.val) 25 15 (getF value 25 15)) 5 0 (getF value 5 0))).winErr k.val w.val) ∧
      (∀ off, off ≠ offWinCtrl w.val → (m.part k.val).reg off = (s.mod.part k.val).reg off) ∧
      ∀ j, j ≠ k.val → m.part j = s.mod.part j) ∧
  (∀ (s : State) (f : Fn) (k : Fin 64) (w : Fin 16) (value : Word), Writes s f k.val → getB value 30 = true →
    winOpen ((s.mod.part k.val).win w.val) = true →
    ∃ m, Gives (.dmaWinClose f k w value) s m ∧ getB ((m.part k.val).win w.val) 30 = true ∧
      winOpen ((m.part k.val).win w.val) = true ∧
      (∀ off, off ≠ offWinCtrl w.val → (m.part k.val).reg off = (s.mod.part k.val).reg off)) ∧
  (∀ (s : State) (k : Fin 64) (w : Fin 16), Alive s → getB ((s.mod.part k.val).win w.val) 30 = true →
    (s.mod.winBusy k.val w.val = false →
      ∃ m, Gives (.dmaWinCloseDone k w) s m ∧ winOpen ((m.part k.val).win w.val) = false ∧
        getB ((m.part k.val).win w.val) 30 = false ∧
        ((s.mod.part k.val).apQueue = [] → (m.part k.val).trusses = (s.mod.part k.val).trusses)) ∧
    (s.mod.winBusy k.val w.val = true → Gives (.dmaWinCloseDone k w) s s.mod)) ∧
  (∀ (s : State) (f : Fn) (k : Fin 64) (value : Word), Writes s f k.val →
    ∃ m, Gives (.dmaHostSelWrite f k value) s m ∧ (m.part k.val).selStore = getF value 2 1 ∧
      (m.part k.val).selTruss = getF value 3 3 ∧ (m.part k.val).selRow = getF value 30 17 ∧
      (m.part k.val).trusses = (s.mod.part k.val).trusses ∧ ∀ j, j ≠ k.val → m.part j = s.mod.part j) ∧
  (∀ (s : State) (k : Fin 64) (off : Fin 4194304) (n : Nat), Linked s → s.mod.bar2Open k.val = true →
    let p := s.mod.part k.val
    let w := rowBytes p.selStore
    let a := p.selRow * w + off.val
    p.selStore ≠ 3 → 0 < n → off.val % w + n ≤ w → p.selRow + off.val / w < storeRows p.selStore →
    (p.truss p.selTruss).readBad p.selStore a n = false → p.apQueue = [] → p.apFree p.selStore p.selTruss = true →
    Gives (.hostApertureRead k off n .clean) s
      { s.mod with read := some { bytes := (p.truss p.selTruss).read p.selStore a n, ep := false } }) ∧
  (∀ (s : State) (k : Fin 64) (off : Fin 4194304) (n : Nat) (e : Ecc), Linked s → s.mod.bar2Open k.val = true →
    let p := s.mod.part k.val
    (p.apQueue ≠ [] ∨ p.apFree p.selStore p.selTruss = false) →
    Gives (.hostApertureRead k off n e) s (s.mod.modPart k.val fun p =>
      { p with apQueue := p.apQueue ++ [.read p.selStore p.selTruss p.selRow off.val n e] })) ∧
  (∀ (s : State) (k : Fin 64) (off : Fin 4194304) (data : List Byte), Linked s → s.mod.bar2Open k.val = true →
    let p := s.mod.part k.val
    let w := rowBytes p.selStore
    let row := p.selRow + off.val / w
    p.selStore ≠ 3 → 0 < data.length → data.length ≤ 512 → off.val % w + data.length ≤ w - 4 →
    row < storeRows p.selStore → p.gather = none →
    ∃ m g, Gives (.hostApertureWrite k off data .clean) s m ∧ (m.part k.val).gather = some g ∧ g.row = row ∧
      (∀ i, i < data.length → Table.find (off.val % w + i) g.bytes = some (data.getD i 0)) ∧
      (m.part k.val).trusses = p.trusses ∧ ∀ j, j ≠ k.val → m.part j = s.mod.part j) ∧
  (∀ (s : State) (k : Fin 64) (off : Fin 4194304) (data : List Byte), Linked s → s.mod.bar2Open k.val = true →
    let p := s.mod.part k.val
    let w := rowBytes p.selStore
    let row := p.selRow + off.val / w
    p.selStore ≠ 3 → data.length = 8 → off.val % w = w - 8 → row < storeRows p.selStore → p.gather = none →
    p.apQueue = [] → p.apFree p.selStore p.selTruss = true →
    ∃ m, Gives (.hostApertureWrite k off data .clean) s m ∧ (m.part k.val).gather = none ∧
      ((m.part k.val).truss p.selTruss).read p.selStore (row * w + w - 8) 8 = data ∧
      (∀ a, (a < row * w + w - 8 ∨ row * w + w ≤ a) → Sparse.get a (((m.part k.val).truss p.selTruss).cells p.selStore) =
        Sparse.get a ((p.truss p.selTruss).cells p.selStore)) ∧
      (m.part k.val).near = p.near ∧ ∀ j, j ≠ k.val → m.part j = s.mod.part j)

/-! ### Memory and the host's apertures -/

/-- What the host writes through BAR2 into near memory within one granule, it reads back; every other near byte
stands. -/
def Obligations.Bar2WriteThenRead : Prop :=
  ∀ (s : State) (k : Fin 64) (off : BitVec 32) (data : List Byte), Linked s → s.mod.bar2Open k.val = true →
    0 < data.length → data.length ≤ 64 → off.toNat + data.length ≤ nearEnd →
    off.toNat / 64 = (off.toNat + data.length - 1) / 64 → (s.mod.part k.val).poisoned (off.toNat / 64) = false →
    (s.mod.part k.val).shards = [] → (s.mod.part k.val).ctxs = [] →
    ∃ m, Gives (.bar2Write k off data .clean) s m ∧
      (∀ a, (a < off.toNat ∨ off.toNat + data.length ≤ a) →
        Sparse.get a (m.part k.val).near = Sparse.get a (s.mod.part k.val).near) ∧
      (m.part k.val).ext = (s.mod.part k.val).ext ∧ (m.part k.val).regs = (s.mod.part k.val).regs ∧
      (∀ j, j ≠ k.val → m.part j = s.mod.part j) ∧
      ∀ t : State, t.mod = m →
        Gives (.bar2Read k off data.length .clean) t { m with read := some { bytes := data, ep := false } }

/-- Memory upkeep: what a scrub read finds, a refresh that changes nothing, and compression regions that load or
refuse. -/
def Obligations.MemoryUpkeep : Prop :=
  (∀ (s : State) (k : Fin 64) (ext : Bool) (g loc : Nat) (e : Ecc), On s → scrubLoc ext g = some loc →
    (if ext then s.mod.boot.extTrained else s.mod.boot.nearTrained) = true →
    (s.mod.part k.val).poisoned (loc / 64) = false →
    ∃ m, Gives (.patrolScrub k ext g e) s m ∧
      (e = .clean → m = s.mod) ∧
      (e = .corrected → m = s.mod.modPart k.val fun p => p.count (eccReg loc) 15 0) ∧
      (e = .uncorrectable → (m.part k.val).poisoned (loc / 64) = true) ∧
      (m.part k.val).near = (s.mod.part k.val).near ∧ (m.part k.val).ext = (s.mod.part k.val).ext) ∧
  (∀ (s : State) (k : Fin 64) (ext : Bool) (chan : Fin 4), On s → Gives (.memRefresh k ext chan) s s.mod) ∧
  (∀ (s : State) (f : Fn) (k : Fin 64) (r : Fin 16) (value : Word) (e : Ecc), Writes s f k.val → r.val ≠ 0 →
    getB value 30 = true → (s.mod.part k.val).cmpEn r.val = false →
    ∃ m, Gives (.cmpRegionEnable f k r value e) s m ∧
      (let c := (m.part k.val).reg (offCmpCtrl r.val)
       getF c 26 24 = getF value 26 24 ∧ getF c 23 20 = getF value 23 20 ∧ getF c 15 0 = getF value 15 0 ∧
        (m.part k.val).cmpEn r.val = (getF c 29 27 == 0) ∧ (m.part k.val).cmpLoaded r.val = (getF c 29 27 == 0)) ∧
      ∀ j, j ≠ k.val → m.part j = s.mod.part j) ∧
  (∀ (s : State) (f : Fn) (k : Fin 64) (r : Fin 16) (value : Word), Writes s f k.val → r.val ≠ 0 →
    getB value 30 = false → (s.mod.part k.val).cmpEn r.val = true →
    ∃ m, Gives (.cmpRegionDisable f k r value) s m ∧ (m.part k.val).cmpEn r.val = false ∧
      (m.part k.val).cmpLoaded r.val = false ∧ (m.part k.val).near = (s.mod.part k.val).near ∧
      (m.part k.val).ext = (s.mod.part k.val).ext ∧ ∀ j, j ≠ k.val → m.part j = s.mod.part j)

/-! ### Key-value cache and speculation -/

/-- A READ's pages: exactly those of the delivered rows, in ascending order, and the mask of a page marks exactly its
delivered rows. -/
def Obligations.DeliveredRows : Prop :=
  ∀ (win : Nat) (globs : List Nat) (lt : Nat),
    (kvPages win globs lt).Pairwise (· < ·) ∧
    (∀ p, (p / 64 ∈ kvPages win globs lt ∧ (kvRowMask win globs lt (p / 64)).getD (p % 64) false = true) ↔
      (p < lt ∧ (lt ≤ p + win ∨ p ∈ globs)))

/-- READ and APPEND: an entry and pages that stand give the node its descriptors, pushed in order on the channel of its
priority; an entry that is lost, a page that is missing, rows that find no page and a disabled channel end the raise. MASK,
ACCEPT, COMMIT and RECONCILE, where everything they read is sound: the descriptors they push, what the units of a MASK and an
ACCEPT write, and the entry write of a COMMIT and a RECONCILE that copy nothing. -/
def Obligations.CacheNodes : Prop :=
  (∀ (s : State) (k : Fin 64) (c : Fin 16) (node member : Nat) (u : Run) (img : List Byte) (mb : Member) (x : KvUse) (e : Ecc),
    Runs s k.val c.val node member u img mb → nodeUnit img node = 5 → kvOp (nodeBody img node) = 1 →
    (s.mod.part k.val).hasDesc c.val node member = false → u.kvUse (kvPeg (nodeBody img node)) member = some x →
    let b := nodeBody img node
    let r := s.mod.readEntry k.val x.seq e
    let globs := Table.get [] (node * 64 + member) u.globs
    let idxs := kvPages (kvWin b) globs r.1.lt
    (r.2.1 = true → Gives (.kvRead k c node member e) s (r.2.2.walkFails k.val c.val node member stIntegrity 5)) ∧
    (r.2.1 = false →
      (∀ locs, x.find r.1 false idxs = (locs, none) → ChannelOn s k.val node img →
        ∃ m, Gives (.kvRead k c node member e) s m ∧ Pushed s m k.val (nodePrio img node % 16)
          ((kvReadDescs b x.seq r.1.lt globs idxs locs).map (pageDesc c.val node member (kvTw b)))) ∧
      (∀ locs f, x.find r.1 false idxs = (locs, some f) →
        Gives (.kvRead k c node member e) s (r.2.2.pageFails k.val c.val node member f true)))) ∧
  (∀ (s : State) (k : Fin 64) (c : Fin 16) (node member : Nat) (u : Run) (img : List Byte) (mb : Member) (x : KvUse) (e : Ecc),
    Runs s k.val c.val node member u img mb → nodeUnit img node = 5 → kvOp (nodeBody img node) = 2 →
    (s.mod.part k.val).hasDesc c.val node member = false → (s.mod.part k.val).mirrorWait = [] →
    u.kvUse (kvPeg (nodeBody img node)) member = some x →
    let b := nodeBody img node
    let r := s.mod.readEntry k.val x.seq e
    let both := kvFlag b 3 && r.1.shadow
    let idxs := pageRange r.1.lt (r.1.lt + kvApp b)
    (r.2.1 = true → Gives (.kvAppend k c node member e) s (r.2.2.walkFails k.val c.val node member stIntegrity 5)) ∧
    (r.2.1 = false →
      (kvFlag b 3 = true → r.1.lc < r.1.lt →
        Gives (.kvAppend k c node member e) s (r.2.2.walkFails k.val c.val node member stNotPermitted node)) ∧
      ((kvFlag b 3 = true → r.1.lt ≤ r.1.lc) →
        (64 * r.1.pages < r.1.lt + kvApp b →
          Gives (.kvAppend k c node member e) s (r.2.2.pageFails k.val c.val node member .absent false)) ∧
        (r.1.lt + kvApp b ≤ 64 * r.1.pages →
          (∀ near shad, x.find r.1 false idxs = (near, none) → (both = true → x.find r.1 true idxs = (shad, none)) →
            ChannelOn s k.val node img →
            ∃ m, Gives (.kvAppend k c node member e) s m ∧ Pushed s m k.val (nodePrio img node % 16)
              ((kvAppendDescs x.seq r.1.lt (kvApp b) idxs near (if both then some shad else none)).map
                (pageDesc c.val node member (kvTw b)))) ∧
          (∀ near f, x.find r.1 false idxs = (near, some f) →
            Gives (.kvAppend k c node member e) s (r.2.2.pageFails k.val c.val node member f false)))))) ∧
  (∀ (s : State) (k : Fin 64) (c : Fin 16) (node member : Nat) (u : Run) (img : List Byte) (mb : Member),
    Acts s k.val c.val node member 1 u img mb →
    let b := nodeBody img node
    (ChannelOn s k.val node img →
      ∃ m, Gives (.specMask k c node member) s m ∧ Pushed s m k.val (nodePrio img node % 16)
        [laneDesc c.val node member 0 1 (mb.loc (specTree b))
          (ownLoc (specStore b) (u.phys img (nodeTruss img node)) (specRow b member))
          (specNmax b * kvSlots (nodeBody img (specRef b)) * 256) .mask]) ∧
    (¬ ChannelOn s k.val node img → Gives (.specMask k c node member) s
      (s.mod.walkFails k.val c.val node member stAborted (nodePrio img node % 16)))) ∧
  (∀ (s : State) (k : Fin 64) (ch : Fin 16) (e : UnitEcc) (c node member : Nat) (d : Desc) (u : Run) (img : List Byte)
    (mb : Member) (x : KvUse),
    LaneUnit s k.val ch.val c node member 0 d u img mb → d.job = .mask →
    u.kvUse (specPeg (nodeBody img node)) member = some x →
    let b := nodeBody img node
    let rb := nodeBody img (specRef b)
    let m1 := s.mod.latchKey k.val ch.val d
    let r := m1.unitRec k.val (m1.keyOf ((m1.part k.val).chan ch.val).key) mb (specTree b) e.data
    let t := u.phys img (nodeTruss img node)
    r.2.1 = false →
    ∃ m, Gives (.dmaUnitWritten k ch e) s m ∧ (m.part k.val).truss t =
      ((s.mod.part k.val).truss t).write (specStore b) (specRow b member * rowBytes (specStore b))
        (treeMaskBytes r.1 (x.base.getD 0) (specNmax b) (kvSlots rb) (kvWin rb)
          (Table.get [] (specRef b * 64 + member) u.globs) (Table.get 0 (specRef b * 64 + member) u.lts) 0
          (m1.unitLen d 0 / 4))) ∧
  (∀ (tree : List Byte) (base nmax slots win : Nat) (globs : List Nat) (lt from' n x : Nat), x < n →
    let i := (from' + x) / (64 * slots)
    let j := (from' + x) % (64 * slots)
    let idxs := kvPages win globs lt
    let p := 64 * idxs.getD (j / 64) 0 + j % 64
    (treeMaskBytes tree base nmax slots win globs lt from' n).length = 4 * n ∧
      slice (treeMaskBytes tree base nmax slots win globs lt from' n) (4 * x) 4 =
        leBytes 4 (maskPlace tree base nmax i p (decide (j / 64 < idxs.length) && kvDelivered win globs lt p)).toNat) ∧
  (∀ (s : State) (k : Fin 64) (c : Fin 16) (node member : Nat) (u : Run) (img : List Byte) (mb : Member),
    Acts s k.val c.val node member 2 u img mb →
    let b := nodeBody img node
    (ChannelOn s k.val node img →
      ∃ m, Gives (.specAccept k c node member) s m ∧ Pushed s m k.val (nodePrio img node % 16)
        [laneDesc c.val node member 1 0 (ownLoc (specStore b) (u.phys img (nodeTruss img node)) (specRow b member))
          (mb.loc (specAcc b)) 1024 .accept]) ∧
    (¬ ChannelOn s k.val node img → Gives (.specAccept k c node member) s
      (s.mod.walkFails k.val c.val node member stAborted (nodePrio img node % 16)))) ∧
  (∀ (s : State) (k : Fin 64) (ch : Fin 16) (e : UnitEcc) (c node member at' : Nat) (d : Desc) (u : Run) (img : List Byte)
    (mb : Member), LaneUnit s k.val ch.val c node member at' d u img mb → d.job = .accept → d.len = 1024 →
    let b := nodeBody img node
    let m1 := s.mod.latchKey k.val ch.val d
    let key := m1.keyOf ((m1.part k.val).chan ch.val).key
    let wrote (m : Mod) : Mod := m.modPart k.val fun p => p.modChan ch.val fun h => h.wrote 512
    let tr := m1.unitRec k.val key mb (specTree b) e.srcDir
    let pc := tr.2.2.scratchRead k.val (u.phys img (nodeTruss img node)) (specStore b)
      (specRow b member * rowBytes (specStore b)) (8 * treeN tr.1) e.data
    let choice (i : Nat) : Nat := fld pc.1.bytes (8 * i + 4) 4
    let path := acceptFrom tr.1 choice 64 0
    let r := acceptRec tr.1 path (choice (path.getLastD 0)) (u.firstBase img member) (u.retreed.contains member)
    (at' = 0 → tr.2.1 = false → pc.1.err = false →
      Gives (.dmaUnitWritten k ch e) s
        ((wrote ((pc.2.memWrite k.val key (mb.loc (specAcc b)) (putFld r 1 1 0) [] .clean).modRun k.val c fun u =>
          u.setRec node member (r, []))).issueAhead k.val ch.val)) ∧
    (at' = 512 →
      Gives (.dmaUnitWritten k ch e) s
        (((wrote (m1.memWrite k.val key (mb.loc (specAcc b) + 1) (slice (u.rec' node member).1 1 1) [] e.data)).descDone
          k.val ch.val d).laneEnd k.val d))) ∧
  (∀ (s : State) (k : Fin 64) (c : Fin 16) (node member : Nat) (u : Run) (img : List Byte) (mb : Member) (x : KvUse),
    Acts s k.val c.val node member 3 u img mb → u.kvUse (specPeg (nodeBody img node)) member = some x →
    let b := nodeBody img node
    let en := s.mod.readEntry k.val x.seq .clean
    let base := x.base.getD 0
    let r := (u.rec' (specRef b) member).1
    en.2.1 = false →
    ((en.1.lc ≠ base ∨ en.1.lt ≠ base + specNmax b) → Gives (.specCommit k c node member .clean) s
      (s.mod.walkFails k.val c.val node member stNotPermitted node)) ∧
    (en.1.lc = base → en.1.lt = base + specNmax b → en.1.shadow = false → (∀ j, 1 ≤ j → j < recA r → recPath r j = j) →
      (∀ y, s.mod.mirrorOf k.val y = none) →
      Gives (.specCommit k c node member .clean) s (s.mod.commitEntry k.val
        { ctx := c.val, node := node, member := member, seq := x.seq, lc := base + recA r, lt := base + recA r
          shadow := false, count := recA r }))) ∧
  (∀ (s : State) (k : Fin 64) (c : Fin 16) (node member : Nat) (u : Run) (img : List Byte) (mb : Member) (x : KvUse)
    (near shad : List Nat),
    Acts s k.val c.val node member 3 u img mb → u.kvUse (specPeg (nodeBody img node)) member = some x →
    let b := nodeBody img node
    let en := s.mod.readEntry k.val x.seq .clean
    let base := x.base.getD 0
    let r := (u.rec' (specRef b) member).1
    en.2.1 = false → en.1.lc = base → en.1.lt = base + specNmax b → en.1.shadow = true →
    (∀ j, 1 ≤ j → j < recA r → recPath r j = j) → 1 ≤ recA r →
    x.find en.1 false (pageRange base (base + recA r)) = (near, none) →
    x.find en.1 true (pageRange base (base + recA r)) = (shad, none) → ChannelOn s k.val node img →
    ∃ m, Gives (.specCommit k c node member .clean) s m ∧ Pushed s m k.val (nodePrio img node % 16)
      (rowDescs c.val node member en.1.tw (shadowCopies en.1.tw near shad base (base + recA r)))) ∧
  (∀ (s : State) (k : Fin 64) (c : Fin 16) (node member : Nat) (u : Run) (img : List Byte) (mb : Member) (x : KvUse)
    (near shad : List Nat),
    Acts s k.val c.val node member 5 u img mb → u.kvUse (specPeg (nodeBody img node)) member = some x →
    let r := u.rec' node member
    let en := s.mod.readEntry k.val x.seq .clean
    let z := reconcile en.1.lc en.1.lt r.1 r.2
    en.2.1 = false →
    (z.1 ≤ en.1.lc →
      Gives (.specReconcile k c node member .clean) s
        (((if z.2.2 then s.mod.modPart k.val fun p => p.count offSpecStatus 23 16 else s.mod).writeEntry k.val x.seq z.1 z.2.1
          none).worked k.val c.val node member)) ∧
    (en.1.lc < z.1 → en.1.shadow = true → x.find en.1 false (pageRange en.1.lc z.1) = (near, none) →
      x.find en.1 true (pageRange en.1.lc z.1) = (shad, none) → ChannelOn s k.val node img →
      ∃ m, Gives (.specReconcile k c node member .clean) s m ∧ Pushed s m k.val (nodePrio img node % 16)
        (rowDescs c.val node member en.1.tw (shadowCopies en.1.tw near shad en.1.lc z.1))))

/-- A ROLLBACK sets LT = LC in one granule write and changes nothing else: SLC, the shadow pages and every row stand,
rows at or above the new LT are never delivered, and with no tentative rows the entry stands too. -/
def Obligations.Rollback : Prop :=
  ∀ (s : State) (k : Fin 64) (c : Fin 16) (node member : Nat) (u : Run) (img : List Byte) (mb : Member) (x : KvUse),
    Acts s k.val c.val node member 4 u img mb → u.kvUse (specPeg (nodeBody img node)) member = some x →
    let key := s.mod.memKey k.val
    let loc := (s.mod.part k.val).seqLoc x.seq
    let en := s.mod.readEntry k.val x.seq .clean
    en.2.1 = false → isExt loc = true →
    ∃ m, Gives (.specRollback k c node member) s m ∧
      (m.part k.val).bytesAt k.val key loc 64 = putFld (putFld en.1.raw 8 4 en.1.lc) 12 4 en.1.lc ∧
      (en.1.lc = en.1.lt → (m.part k.val).bytesAt k.val key loc 64 = en.1.raw) ∧
      (∀ win globs p, en.1.lc ≤ p → kvDelivered win globs en.1.lc p = false) ∧
      (∀ a, (a < loc ∨ loc + 64 ≤ a) → Sparse.get a (m.part k.val).ext = Sparse.get a (s.mod.part k.val).ext) ∧
      (m.part k.val).near = (s.mod.part k.val).near ∧ (m.part k.val).trusses = (s.mod.part k.val).trusses ∧
      ∀ j, j ≠ k.val → m.part j = s.mod.part j

/-- A reconciliation never lowers LC, leaves LC at or below LT, and leaves tentative rows only where the guess was
right. The accepted path goes down the tree: it begins at the root, each later place is a child whose token its parent
chose, the lowest such child, and it ends where there is none. -/
def Obligations.SpeculationOutcome : Prop :=
  (∀ (lc lt : Nat) (a g : List Byte), lc ≤ lt →
    let z := reconcile lc lt a g
    lc ≤ z.1 ∧ z.1 ≤ z.2.1 ∧ z.2.1 ≤ lt ∧ (z.2.2 = true → z.1 = z.2.1) ∧
      (z.2.2 = false ↔ (recBase g = recBase a ∧ lc ≤ recBase g ∧ recBase g + recA g ≤ lt ∧ recA g = recA a ∧
        (∀ j, j < recA a → recTok a j = recTok g j) ∧ recBonus g = recBonus a))) ∧
  (∀ (tree : List Byte) (choice : Nat → Nat), 1 ≤ treeN tree → treeN tree ≤ 64 →
    (∀ i, 1 ≤ i → i < treeN tree → treeParent tree i < i) →
    let path := acceptFrom tree choice 64 0
    path.head? = some 0 ∧ (∀ v ∈ path, v < treeN tree) ∧
      (∀ j, j + 1 < path.length →
        let v := path.getD (j + 1) 0
        let u := path.getD j 0
        1 ≤ v ∧ treeParent tree v = u ∧ treeToken tree v = choice u ∧
          ∀ i, 1 ≤ i → i < v → ¬ (treeParent tree i = u ∧ treeToken tree i = choice u)) ∧
      ∀ i, 1 ≤ i → i < treeN tree →
        ¬ (treeParent tree i = path.getLastD 0 ∧ treeToken tree i = choice (path.getLastD 0)))

/-! ### Link nodes -/

/-- SEND, RECV and EXCHANGE: a send whose credit stands goes out whole, its credit and segment numbers are used, and its
message is announced with its first frame; one without credit moves nothing; a receive does what its path's frames now allow,
and an exchange does so after its send; a receive that has its message has done its work. Where the spec leaves its form open
this is the model's choice (assumption 31). -/
def Obligations.LinkNodes : Prop :=
  (∀ (s : State) (k : Fin 64) (c : Fin 16) (node : Nat) (w : MemberWork) (u : Run) (img : List Byte) (mb : Member) (p : Path),
    Runs s k.val c.val node w.member u img mb → nodeUnit img node = 4 → linkOp (nodeBody img node) = 1 →
    u.sent.contains (node * 64 + w.member) = false → Table.find (linkPath (nodeBody img node)) s.mod.paths = some p →
    p.closed = false → s.mod.linkIssues k.val u = true → ChannelOn s k.val node img →
    (∀ m1, s.mod.sendLatch k.val c.val node w.member p.job = (none, m1) →
      Gives (.linkSend k c node w) s (((m1.markRun k.val c.val stKeyRevoked (m1.jobSlot p.job)).worked k.val c.val node
        w.member).watchLinks k.val)) ∧
    (∀ v m1, s.mod.sendLatch k.val c.val node w.member p.job = (some v, m1) →
      let pid := linkPath (nodeBody img node)
      let d := m1.linkDesc u img mb c.val node w.member false
      (m1.linkSideOk k.val d false = false → Gives (.linkSend k c node w) s ((m1.linkBusError k.val c.val node w.member
        (nodePrio img node % 16) 3).watchLinks k.val)) ∧
      (m1.linkSideOk k.val d false = true →
        (p.credit < d.len → Gives (.linkSend k c node w) s (m1.watchLinks k.val)) ∧
        (d.len ≤ p.credit → 2 ^ 43 < p.txCount + segments d.len →
          Gives (.linkSend k c node w) s ((m1.closePath pid).watchLinks k.val)) ∧
        (∀ x m2, d.len ≤ p.credit → p.txCount + segments d.len ≤ 2 ^ 43 →
          m1.sealMessage k.val d pid p.txCount (mb.raise.serial, node) (m1.keyBytes v.1 v.2)
            (fun i => gcmIv p.job pid (m1.sendDir p) (p.txCount + i)) w.finds = (x, m2) → x.err = false → x.poison = none →
          ∃ m q u', Gives (.linkSend k c node w) s m ∧ Table.find pid m.paths = some q ∧ q.credit = p.credit - d.len ∧
            q.txCount = p.txCount + segments d.len ∧ ((m.part k.val).ctx c.val).run = some u' ∧
            u'.sent = u.sent ++ [node * 64 + w.member] ∧ u'.phase node w.member = some .worked ∧
            (p.kind ≠ pathBest → (s.mod.link p.link).sendQ = [] → (s.mod.link p.link).canSend = true → x.frames ≠ [] →
              .linkMsg p.link pid (linkTag (nodeBody img node) w.member) d.len (s.mod.link p.link).txSeq.toNat ∈ m.out) ∧
            ∀ j, j ≠ k.val → m.part j = s.mod.part j)))) ∧
  (∀ (s : State) (k : Fin 64) (c : Fin 16) (node member : Nat) (u : Run) (img : List Byte) (mb : Member),
    Runs s k.val c.val node member u img mb → nodeUnit img node = 4 → linkOp (nodeBody img node) = 2 →
    Gives (.linkRecv k c node member) s
      ((s.mod.pathAdvance (linkPath (nodeBody img node))).linkHalves k.val c.val node member)) ∧
  (∀ (s : State) (k : Fin 64) (c : Fin 16) (node : Nat) (w : MemberWork) (u : Run) (img : List Byte) (mb : Member),
    Runs s k.val c.val node w.member u img mb → nodeUnit img node = 4 → linkOp (nodeBody img node) = 3 →
    Gives (.linkExchange k c node w) s (((s.mod.sendHalf k.val c.val node w.member u img mb w.finds).pathAdvance
      (linkPath (nodeBody img node))).linkHalves k.val c.val node w.member)) ∧
  (∀ (m : Mod) (k c node member : Nat) (u : Run) (img : List Byte) (mb : Member),
    m.nodeAt k c node member = some (u, img, mb) → u.received.contains (node * 64 + member) = true →
    linkOp (nodeBody img node) = 2 → m.linkHalves k c node member = m.worked k c node member)
/-! ### Watchdogs, resets, trusses -/

/-- The watchdogs: the raise of a queue whose wait's limit passes first leaves it and sets the flag; a link node that waits
with a limit ends its raise with ST_TIMEOUT and the work of its link nodes, and a guaranteed-class one past its bound loses
its promise with a notice that names the peer; a hung node of another unit resets its partition; an agent's heartbeat is
kept, and without one the bay's partitions reset, with one module record; the module halts with its links down when the chip
controller fails. Where the spec leaves its form open this is the model's choice (assumptions 40 and 52). -/
def Obligations.Watchdogs : Prop :=
  (∀ (s : State) (k : Fin 64) (c : Fin 16) (q : Fin 4), Live s → (s.mod.part k.val).underReset = false →
    let old := (((s.mod.part k.val).ctx c.val).queue q.val).landed
    (∀ r, s.mod.waitingRaise k.val c.val q.val = some r →
      r ∈ old ∧ r.waits = true ∧ r.waitMs ≠ 0 ∧
        (∀ x ∈ old, x.waits = true → x.waitMs ≠ 0 → r.waitEnds ≤ x.waitEnds) ∧
      ∃ m, Gives (.waitWatchdog k c q) s m ∧ getB ((m.part k.val).reg offWdogStatus) 31 = true ∧
        (((m.part k.val).ctx c.val).queue q.val).landed = (old.erase r).map (fun x => x.latch s.mod k.val) ∧
        (m.part k.val).near = (s.mod.part k.val).near ∧ (m.part k.val).events = (s.mod.part k.val).events) ∧
    (s.mod.waitingRaise k.val c.val q.val = none → Gives (.waitWatchdog k c q) s s.mod)) ∧
  (∀ (s : State) (k : Fin 64) (c : Fin 16) (node member : Nat) (u : Run) (img : List Byte) (mb : Member), On s →
    s.mod.nodeAt k.val c.val node member = some (u, img, mb) →
    (u.watched node member = true →
      Gives (.linkWatchdog k c node member) s (((s.mod.modPart k.val fun p => p.wdogMark 30 u.members.length).markRun k.val
        c.val stTimeout (0x5000 + node)).modRun k.val c.val fun u => u.endLinks img) ∧
      ∃ u', ((((s.mod.modPart k.val fun p => p.wdogMark 30 u.members.length).markRun k.val c.val stTimeout
          (0x5000 + node)).modRun k.val c.val fun u => u.endLinks img).part k.val |>.ctx c.val).run = some u' ∧
        u'.ending = worseEnding u.ending (stTimeout, 0x5000 + node) ∧ u'.watch = [] ∧
        ∀ e ∈ u'.nodes, nodeUnit img (e.1 / 64) = 4 → e.2 ≠ .running) ∧
    (u.watched node member = false → Gives (.linkWatchdog k c node member) s s.mod)) ∧
  (∀ (s : State) (k : Fin 64) (c : Fin 16) (node member : Nat) (u : Run) (img : List Byte) (mb : Member) (p : Path), On s →
    s.mod.nodeAt k.val c.val node member = some (u, img, mb) → nodeUnit img node = 4 →
    u.guar = true → mb.raise.voided = none → u.awaits (nodeBody img node) node member = true →
    Table.find (linkPath (nodeBody img node)) s.mod.paths = some p →
    (s.mod.frameArrived k.val c.val u.q (nodeBody img node) node member = false →
      Gives (.peerLateTimeout k c node member) s ((s.mod.voidOwn k.val c.val mb.raise 7 p.peer).watchLinks k.val)) ∧
    (s.mod.frameArrived k.val c.val u.q (nodeBody img node) node member = true →
      Gives (.peerLateTimeout k c node member) s s.mod)) ∧
  (∀ (m : Mod) (k c obj i : Nat) (r : Raise) (v : Reservation), r.guar = true → r.voided = none →
    (m.part k).resvOf c r.q = some (i, v) →
    m.voidOwn k c r 7 obj = (m.modCtx k c fun x => x.voidOwn (fun y => y.serial == r.serial) 7).notice k 7 (16 * k + i) obj 1) ∧
  (∀ (s : State) (k : Fin 64) (c : Fin 16) (node member : Nat) (u : Run) (img : List Byte) (mb : Member), Live s →
    s.mod.nodeAt k.val c.val node member = some (u, img, mb) → nodeUnit img node ≠ 4 →
    Gives (.nodeProgressWatchdog k c node member) s
      (s.mod.startReset k.val 4 (0x100 * u.phys img (nodeTruss img node) + nodeUnit img node))) ∧
  (∀ (s : State) (b : Fin 4), Live s →
    Gives (.bayAgentHeartbeat b) s { s.mod with beats := Table.set b.val s.mod.devtime s.mod.beats }) ∧
  (∀ (s : State) (b : Fin 4), Live s →
    (Table.get (0 : Dword) b.val s.mod.beats).toNat + 1000000 ≤ s.mod.devtime.toNat →
    ∃ m, Gives (.bayControllerWatchdog b) s m ∧ m.modRecords.length = min 16 (s.mod.modRecords.length + 1) ∧
      (∀ k, k < 64 → k / 16 = b.val → s.mod.exists? k = true → (m.part k).underReset = true) ∧
      Table.find b.val m.beats = some s.mod.devtime) ∧
  (∀ s : State, Live s →
    ∃ m, Gives .chipControllerWatchdog s m ∧ m.boot.stage = 15 ∧ m.running = false ∧ m.parts = s.mod.parts ∧
      ∀ n, m.linkUp n = false)

/-- A reset phase by phase: each command acts in the phase before its own and enters its own, and does what the phase
does; in another phase it changes nothing. Where the spec leaves its form open this is the model's choice (assumptions
37 and 51). -/
def Obligations.ResetPhases : Prop :=
  (∀ (s : State) (r : Request) (rest : List Request), Turn s r rest → r.opcode = 0x11 → s.mod.partResetBad r = none →
    s.mod.exists? (fld r.payload 0 1) = true → (s.mod.part (fld r.payload 0 1)).resetting = none →
    ∃ m z, Gives (.partReset r.fn) s m ∧ (m.part (fld r.payload 0 1)).resetting = some z ∧ z.phase = 1 ∧
      z.t0 = s.mod.devtime ∧ z.cause = (if r.fn = .mgmt then 2 else 1) ∧ m.acting = s.mod.acting ++ [r]) ∧
  (∀ (s : State) (k : Fin 64) (z : ResetState), Live s → (s.mod.part k.val).resetting = some z → z.phase = 1 →
    ∃ m, Gives (.resetCapture k .clean) s m ∧ (m.part k.val).resetting = some { z with phase := 2 } ∧
      (m.part k.val).recordCount = (s.mod.part k.val).recordCount + 1) ∧
  (∀ (s : State) (k : Fin 64) (z : ResetState), Live s → (s.mod.part k.val).resetting = some z → z.phase = 2 →
    ∃ m, Gives (.resetEndRaises k) s m ∧ (m.part k.val).resetting = some { z with phase := 3 } ∧
      (∀ ch, ((m.part k.val).chan ch).queue = []) ∧ (m.part k.val).mirrorWait = [] ∧ ∀ x ∈ (m.part k.val).shards, x.2.state ≠ .pending) ∧
  (∀ (s : State) (k : Fin 64) (z : ResetState), Live s → (s.mod.part k.val).resetting = some z → z.phase = 3 →
    Gives (.resetRetrain k) s (s.mod.modPart k.val fun p => { p with resetting := some { z with phase := 4 } })) ∧
  (∀ (s : State) (k : Fin 64) (z : ResetState), Live s → (s.mod.part k.val).resetting = some z → z.phase = 4 →
    ∃ m, Gives (.resetScrub k) s m ∧ (m.part k.val).resetting = some { z with phase := 5 } ∧ (m.part k.val).near = [] ∧
      (m.part k.val).nearPoison = [] ∧ (m.part k.val).trusses = [] ∧ (m.part k.val).ext = (s.mod.part k.val).ext ∧
      (m.part k.val).extPoison = (s.mod.part k.val).extPoison ∧ ∀ j, j ≠ k.val → m.part j = s.mod.part j) ∧
  (∀ (s : State) (k : Fin 64) (z : ResetState) (a b : Bool), Live s → s.mod.boot.paused = false →
    (s.mod.part k.val).resetting = some z → z.phase = 5 →
    ∃ m, Gives (.resetSelfTest k a b) s m ∧ (m.part k.val).resetting = some { z with phase := 6 } ∧
      (m.part k.val).inService 0 = a ∧ (m.part k.val).inService 1 = b ∧
      (∀ off, off ≠ offTruss → (m.part k.val).reg off = (s.mod.part k.val).reg off) ∧
      ∀ j, j ≠ k.val → m.part j = s.mod.part j) ∧
  (∀ (s : State) (k : Fin 64) (z : ResetState), Live s → (s.mod.part k.val).resetting = some z → z.phase = 6 →
    (∀ g ∈ (s.mod.part k.val).extPoison, ¬ (copyGranule ≤ g ∧ g < copyGranule + 8192)) →
    ∃ m, Gives (.resetRestore k) s m ∧ (m.part k.val).underReset = false ∧ (m.part k.val).events = (s.mod.part k.val).evCopy ∧
      (m.part k.val).ext = (s.mod.part k.val).ext ∧ (m.part k.val).near = (s.mod.part k.val).near ∧
      (∀ off, keptReg off = false → off ≠ offKsStatus → off ≠ offSuspend → off ≠ offNoticePtr →
        (m.part k.val).reg off = partRegReset off)) ∧
  (∀ (s : State) (k : Fin 64) (n : Nat) (i : Instr) (z : ResetState), Live s → (s.mod.part k.val).resetting = some z →
    z.phase + 1 ≠ n →
    ((n = 3 ∧ i = .resetEndRaises k) ∨ (n = 4 ∧ i = .resetRetrain k) ∨ (n = 5 ∧ i = .resetScrub k) ∨
      (n = 7 ∧ i = .resetRestore k)) → Gives i s s.mod)

/-- Trusses: an internal error resets the partition; READMIT starts tests of trusses out of service; a passed test
leaves the truss zeroed and waiting, a failed one says so; a waiting truss rejoins at a frame boundary. Where the spec
leaves its form open this is the model's choice (assumption 27). -/
def Obligations.Trusses : Prop :=
  (∀ (s : State) (k : Fin 64) (t : Fin 2), Live s →
    Gives (.trussInternalError k t) s (s.mod.startReset k.val 5 t.val)) ∧
  (∀ (s : State) (k : Fin 64) (mask : BitVec 2), Linked s → (s.mod.part k.val).created = true →
    (s.mod.part k.val).underReset = false →
    ∃ m, Gives (.trussReadmit .pf k mask) s m ∧
      (∀ t, t < 2 → getB ((m.part k.val).reg offTruss) (4 + t) =
        (getB ((s.mod.part k.val).reg offTruss) (4 + t) || (bit mask.toNat t && !(s.mod.part k.val).inService t))) ∧
      (∀ i, i < 32 → i ≠ 4 → i ≠ 5 → getB ((m.part k.val).reg offTruss) i = getB ((s.mod.part k.val).reg offTruss) i) ∧
      (∀ off, off ≠ offTruss → (m.part k.val).reg off = (s.mod.part k.val).reg off) ∧
      ∀ j, j ≠ k.val → m.part j = s.mod.part j) ∧
  (∀ (s : State) (f : Fn) (k : Fin 64) (mask : BitVec 2), Linked s → f ≠ .pf → Gives (.trussReadmit f k mask) s s.mod) ∧
  (∀ (s : State) (k : Fin 64) (t : Fin 2) (pass : Bool), Live s →
    getB ((s.mod.part k.val).reg offTruss) (4 + t.val) = true → s.mod.boot.paused = false →
    ∃ m, Gives (.readmitTestDone k t pass) s m ∧ getB ((m.part k.val).reg offTruss) (4 + t.val) = false ∧
      getB ((m.part k.val).reg offTruss) (2 + t.val) = pass ∧ getB ((m.part k.val).reg offTruss) (6 + t.val) = !pass ∧
      (pass = true → (m.part k.val).truss t.val = Truss.reset) ∧
      (∀ off, off ≠ offTruss → (m.part k.val).reg off = (s.mod.part k.val).reg off) ∧
      ∀ j, j ≠ k.val → m.part j = s.mod.part j) ∧
  (∀ (s : State) (k : Fin 64), On s → s.mod.schedules k.val = true → (s.mod.part k.val).atFrameBoundary = true →
    s.mod.aboutToStart k.val = true →
    ∃ m, Gives (.trussRejoin k) s m ∧
      (∀ t, t < 2 → (m.part k.val).inService t =
        ((s.mod.part k.val).inService t || getB ((s.mod.part k.val).reg offTruss) (2 + t)) ∧
          getB ((m.part k.val).reg offTruss) (2 + t) = false) ∧
      (m.part k.val).near = (s.mod.part k.val).near ∧ ∀ j, j ≠ k.val → m.part j = s.mod.part j)

/-! ### Registers -/

/-- A register access: a write stores RW fields, clears W1C fields written with 1 and leaves the rest; a read returns
the word and clears its RC fields; an access of another size or to no register changes nothing. -/
def Obligations.RegisterAccess : Prop :=
  (∀ (s : State) (f : Fn) (sp : RegSpace) (a k off : Nat) (data : List Byte), Linked s →
    s.mod.target f sp a = some (.part k off) → off ∈ plainRegs → data.length = 4 → a % 4 = 0 →
    (s.mod.part k).created = true → (s.mod.part k).underReset = false →
    ∃ m, Gives (.registerWrite f sp a (.write data)) s m ∧
      (∀ i, i < 32 → getB ((m.part k).reg off) i =
        if getB (partRw off) i then bit (fld data 0 4) i
        else getB ((s.mod.part k).reg off) i && !(getB (partW1c off) i && bit (fld data 0 4) i)) ∧
      (∀ o, o ≠ off → (m.part k).reg o = (s.mod.part k).reg o) ∧ (∀ j, j ≠ k → m.part j = s.mod.part j) ∧
      (m.part k).near = (s.mod.part k).near ∧ m.chip = s.mod.chip) ∧
  (∀ (s : State) (f : Fn) (sp : RegSpace) (a k off : Nat), Linked s → s.mod.target f sp a = some (.part k off) →
    off ∈ plainRegs → a % 4 = 0 → (s.mod.part k).created = true → (s.mod.part k).underReset = false →
    ∃ m, Gives (.registerWrite f sp a (.read 4)) s m ∧
      m.read = some { bytes := leBytes 4 (s.mod.partRead k off).toNat, ep := false } ∧
      (∀ i, i < 32 → getB ((m.part k).reg off) i = (getB ((s.mod.part k).reg off) i && !getB (partRc off) i)) ∧
      (∀ o, o ≠ off → (m.part k).reg o = (s.mod.part k).reg o) ∧ ∀ j, j ≠ k → m.part j = s.mod.part j) ∧
  (∀ (s : State) (f : Fn) (sp : RegSpace) (a : Nat) (t : Target) (data : List Byte), Linked s →
    s.mod.target f sp a = some t → t.area = false → 0 < data.length → data.length ≤ 512 →
    ¬ ((data.length = 4 ∨ data.length = 8) ∧ a % data.length = 0) →
    Gives (.registerWrite f sp a (.write data)) s s.mod) ∧
  (∀ (s : State) (f : Fn) (sp : RegSpace) (a : Nat) (data : List Byte), Linked s →
    s.mod.target f sp a = some .nothing → data.length = 4 → Gives (.registerWrite f sp a (.write data)) s s.mod)

/-- A pair reads as one value: the low half, and the high half as it stood when the low half was read, whatever
happened between that leaves the function's shadow. -/
def Obligations.PairReads : Prop :=
  ∀ s : State, Linked s →
    ∃ m, Gives (.registerWrite .pf .chip 8 (.read 4)) s m ∧
      m.read = some { bytes := leBytes 4 (s.mod.devtime.toNat % 2 ^ 32), ep := false } ∧
      { m with shadows := s.mod.shadows, read := s.mod.read } = s.mod ∧
      ∀ t : State, Linked t → t.mod.shadows = m.shadows →
        ∃ m', Gives (.registerWrite .pf .chip 12 (.read 4)) t m' ∧
          m'.read = some { bytes := leBytes 4 (s.mod.devtime.toNat / 2 ^ 32), ep := false } ∧
          { m' with read := t.mod.read } = t.mod

/-- A partition's own commands leave every other partition as it is; a host write to its events may let raises that wait on
them go on, and changes no register, memory, event or scratchpad of another partition. -/
def Obligations.PartitionsStandApart : Prop :=
  (∀ (s t : State) (k : Fin 64) (i : Instr),
    ((∃ f, i = .evtCtrlArm f k) ∨ (∃ f v, i = .dmaHostSelWrite f k v) ∨ (∃ off d e, i = .bar2Write k off d e) ∨
      (∃ off n e, i = .bar2Read k off n e) ∨ (∃ off d e, i = .hostApertureWrite k off d e) ∨
      (∃ off n e, i = .hostApertureRead k off n e) ∨ (∃ c w, i = .arrayPass k c w) ∨ (∃ c n w, i = .vectorAdd k c n w) ∨
      (∃ c n w, i = .softmax k c n w) ∨ (∃ c n m, i = .dmaTransfer k c n m) ∨ (∃ c n m e, i = .kvRead k c n m e) ∨
      (∃ c n m e, i = .kvAppend k c n m e) ∨ (∃ c n m, i = .specMask k c n m) ∨ (∃ c n m, i = .specAccept k c n m) ∨
      (∃ c n m, i = .specRollback k c n m) ∨ (∃ c n m, i = .nodeStart k c n m) ∨ (∃ c n m, i = .nodeComplete k c n m) ∨
      (∃ x g e, i = .patrolScrub k x g e) ∨ (∃ f r v e, i = .cmpRegionEnable f k r v e) ∨
      (∃ f c v, i = .cplRdWrite f k c v) ∨ (∃ f m, i = .trussReadmit f k m) ∨ (∃ tr p, i = .readmitTestDone k tr p)) →
    exec i s = .next t → ∀ j, j ≠ k.val → t.mod.part j = s.mod.part j) ∧
  (∀ (s : State) (f : Fn) (k : Fin 64) (off : Fin 524288) (data : List Byte), 0 < data.length → data.length ≤ 512 →
    ∃ m, Gives (.eventHostWrite f k off data) s m ∧
      ∀ j, j ≠ k.val → (m.part j).regs = (s.mod.part j).regs ∧ (m.part j).near = (s.mod.part j).near ∧
        (m.part j).ext = (s.mod.part j).ext ∧ (m.part j).events = (s.mod.part j).events ∧
        (m.part j).trusses = (s.mod.part j).trusses ∧ (m.part j).chans = (s.mod.part j).chans)
end

