-- ==== Sys2Proof/Laws/Dispatch.lean ====
section
/-!
SUPPORT. The meaning that each command has in exec: one lemma per constructor.
-/

namespace Sys2Proof.Machine

theorem exec_powerEnable (rise : Bool) (mv lowNs : Nat) (s : State) :
    exec (.powerEnable rise mv lowNs) s = execPowerEnable rise mv lowNs s := rfl
theorem exec_powerDisable (railFault : Bool) (s : State) :
    exec (.powerDisable railFault) s = execPowerDisable railFault s := rfl
theorem exec_inputOvervoltage (mv : Nat) (s : State) : exec (.inputOvervoltage mv) s = execInputOvervoltage mv s := rfl
theorem exec_inputUndervoltageTimeout (mv : Nat) (s : State) :
    exec (.inputUndervoltageTimeout mv) s = execInputUndervoltageTimeout mv s := rfl
theorem exec_inputOvercurrentTimeout (amps : Nat) (s : State) :
    exec (.inputOvercurrentTimeout amps) s = execInputOvercurrentTimeout amps s := rfl
theorem exec_perst (s : State) : exec .perst s = execPerst s := rfl
theorem exec_bootStageComplete (failed : List Nat) (s : State) :
    exec (.bootStageComplete failed) s = execBootStageComplete failed s := rfl
theorem exec_vfFlr (k : Fin 64) (s : State) : exec (.vfFlr k) s = execVfFlr k s := rfl
theorem exec_pfFlr (s : State) : exec .pfFlr s = execPfFlr s := rfl
theorem exec_vfEnableClear (s : State) : exec .vfEnableClear s = execVfEnableClear s := rfl
theorem exec_vfEnableSet (s : State) : exec .vfEnableSet s = execVfEnableSet s := rfl
theorem exec_numvfsWrite (n : Nat) (s : State) : exec (.numvfsWrite n) s = execNumvfsWrite n s := rfl
theorem exec_pcieCompletionRx (tag : BitVec 14) (status : CplStatus) (data : List Byte) (s : State) :
    exec (.pcieCompletionRx tag status data) s = execPcieCompletionRx tag status data s := rfl
theorem exec_completionTimeout (tag : BitVec 14) (s : State) :
    exec (.completionTimeout tag) s = execCompletionTimeout tag s := rfl
theorem exec_arbHoldCutoff (a : Arbiter) (s : State) : exec (.arbHoldCutoff a) s = execArbHoldCutoff a s := rfl
theorem exec_mbxGo (fn : Fn) (s : State) : exec (.mbxGo fn) s = execMbxGo fn s := rfl
theorem exec_mctpMessageRx (msg : SidebandMsg) (s : State) :
    exec (.mctpMessageRx msg) s = execMctpMessageRx msg s := rfl
theorem exec_messageTimeTakeup (s : State) : exec .messageTimeTakeup s = execMessageTimeTakeup s := rfl
theorem exec_identGet (fn : Fn) (s : State) : exec (.identGet fn) s = execIdentGet fn s := rfl
theorem exec_healthGet (fn : Fn) (s : State) : exec (.healthGet fn) s = execHealthGet fn s := rfl
theorem exec_fwLoad (s : State) : exec .fwLoad s = execFwLoad s := rfl
theorem exec_fwLoadChunk (s : State) : exec .fwLoadChunk s = execFwLoadChunk s := rfl
theorem exec_fwLoadChunkTimeout (s : State) : exec .fwLoadChunkTimeout s = execFwLoadChunkTimeout s := rfl
theorem exec_fwAuthDone (s : State) : exec .fwAuthDone s = execFwAuthDone s := rfl
theorem exec_partCreate (fn : Fn) (s : State) : exec (.partCreate fn) s = execPartCreate fn s := rfl
theorem exec_partDelete (fn : Fn) (s : State) : exec (.partDelete fn) s = execPartDelete fn s := rfl
theorem exec_partReset (fn : Fn) (s : State) : exec (.partReset fn) s = execPartReset fn s := rfl
theorem exec_ctxCreate (fn : Fn) (s : State) : exec (.ctxCreate fn) s = execCtxCreate fn s := rfl
theorem exec_frameLoad (fn : Fn) (e : Ecc) (s : State) : exec (.frameLoad fn e) s = execFrameLoad fn e s := rfl
theorem exec_resvOpen (fn : Fn) (s : State) : exec (.resvOpen fn) s = execResvOpen fn s := rfl
theorem exec_resvClose (fn : Fn) (s : State) : exec (.resvClose fn) s = execResvClose fn s := rfl
theorem exec_keyLoadPlain (fn : Fn) (s : State) : exec (.keyLoadPlain fn) s = execKeyLoadPlain fn s := rfl
theorem exec_keyLoadWrapped (fn : Fn) (s : State) : exec (.keyLoadWrapped fn) s = execKeyLoadWrapped fn s := rfl
theorem exec_keyLoadGenerate (fn : Fn) (s : State) : exec (.keyLoadGenerate fn) s = execKeyLoadGenerate fn s := rfl
theorem exec_keyBindMem (fn : Fn) (s : State) : exec (.keyBindMem fn) s = execKeyBindMem fn s := rfl
theorem exec_keyUnbindMem (fn : Fn) (s : State) : exec (.keyUnbindMem fn) s = execKeyUnbindMem fn s := rfl
theorem exec_pkeOperationDone (s : State) : exec .pkeOperationDone s = execPkeOperationDone s := rfl
theorem exec_keyErase (fn : Fn) (s : State) : exec (.keyErase fn) s = execKeyErase fn s := rfl
theorem exec_keyEraseNow (fn : Fn) (s : State) : exec (.keyEraseNow fn) s = execKeyEraseNow fn s := rfl
theorem exec_keyUserEnd (slot : Fin 256) (s : State) : exec (.keyUserEnd slot) s = execKeyUserEnd slot s := rfl
theorem exec_shardFetch (fn : Fn) (s : State) : exec (.shardFetch fn) s = execShardFetch fn s := rfl
theorem exec_shardCopy (fn : Fn) (s : State) : exec (.shardCopy fn) s = execShardCopy fn s := rfl
theorem exec_shardDetach (fn : Fn) (s : State) : exec (.shardDetach fn) s = execShardDetach fn s := rfl
theorem exec_shardAttachDone (k : Fin 64) (s : State) : exec (.shardAttachDone k) s = execShardAttachDone k s := rfl
theorem exec_linkGrant (fn : Fn) (s : State) : exec (.linkGrant fn) s = execLinkGrant fn s := rfl
theorem exec_linkGrantComplete (job : BitVec 32) (s : State) :
    exec (.linkGrantComplete job) s = execLinkGrantComplete job s := rfl
theorem exec_linkRelease (fn : Fn) (s : State) : exec (.linkRelease fn) s = execLinkRelease fn s := rfl
theorem exec_sisterBind (fn : Fn) (s : State) : exec (.sisterBind fn) s = execSisterBind fn s := rfl
theorem exec_sisterUnbind (fn : Fn) (s : State) : exec (.sisterUnbind fn) s = execSisterUnbind fn s := rfl
theorem exec_sisterTakeover (fn : Fn) (s : State) : exec (.sisterTakeover fn) s = execSisterTakeover fn s := rfl
theorem exec_sisBindTimeout (b : Fin 12) (s : State) : exec (.sisBindTimeout b) s = execSisBindTimeout b s := rfl
theorem exec_faultReadPartition (fn : Fn) (e : Ecc) (s : State) :
    exec (.faultReadPartition fn e) s = execFaultReadPartition fn e s := rfl
theorem exec_faultReadModule (fn : Fn) (s : State) : exec (.faultReadModule fn) s = execFaultReadModule fn s := rfl
theorem exec_faultReadSupersedeLog (fn : Fn) (s : State) :
    exec (.faultReadSupersedeLog fn) s = execFaultReadSupersedeLog fn s := rfl
theorem exec_attestGet (fn : Fn) (s : State) : exec (.attestGet fn) s = execAttestGet fn s := rfl
theorem exec_pwrSet (fn : Fn) (s : State) : exec (.pwrSet fn) s = execPwrSet fn s := rfl
theorem exec_spdmGetVersion (t : SpdmPort) (msg : List Byte) (s : State) :
    exec (.spdmGetVersion t msg) s = execSpdmGetVersion t msg s := rfl
theorem exec_spdmGetCapabilities (t : SpdmPort) (msg : List Byte) (s : State) :
    exec (.spdmGetCapabilities t msg) s = execSpdmGetCapabilities t msg s := rfl
theorem exec_spdmNegotiateAlgorithms (t : SpdmPort) (msg : List Byte) (s : State) :
    exec (.spdmNegotiateAlgorithms t msg) s = execSpdmNegotiateAlgorithms t msg s := rfl
theorem exec_spdmGetDigests (t : SpdmPort) (msg : List Byte) (s : State) :
    exec (.spdmGetDigests t msg) s = execSpdmGetDigests t msg s := rfl
theorem exec_spdmGetCertificate (t : SpdmPort) (msg : List Byte) (s : State) :
    exec (.spdmGetCertificate t msg) s = execSpdmGetCertificate t msg s := rfl
theorem exec_spdmChallenge (t : SpdmPort) (msg : List Byte) (s : State) :
    exec (.spdmChallenge t msg) s = execSpdmChallenge t msg s := rfl
theorem exec_spdmGetMeasurements (t : SpdmPort) (msg : List Byte) (s : State) :
    exec (.spdmGetMeasurements t msg) s = execSpdmGetMeasurements t msg s := rfl
theorem exec_spdmKeyExchange (t : SpdmPort) (msg : List Byte) (s : State) :
    exec (.spdmKeyExchange t msg) s = execSpdmKeyExchange t msg s := rfl
theorem exec_spdmFinish (t : SpdmPort) (msg : List Byte) (s : State) :
    exec (.spdmFinish t msg) s = execSpdmFinish t msg s := rfl
theorem exec_spdmEndSession (t : SpdmPort) (msg : List Byte) (s : State) :
    exec (.spdmEndSession t msg) s = execSpdmEndSession t msg s := rfl
theorem exec_launchRecord (fn : Fn) (k : Fin 64) (c : Fin 16) (off : Fin 256) (data : List Byte) (s : State) :
    exec (.launchRecord fn k c off data) s = execLaunchRecord fn k c off data s := rfl
theorem exec_raiseStart (k : Fin 64) (e : StartEcc) (s : State) : exec (.raiseStart k e) s = execRaiseStart k e s := rfl
theorem exec_gatherWindowEnd (k : Fin 64) (e : StartEcc) (s : State) :
    exec (.gatherWindowEnd k e) s = execGatherWindowEnd k e s := rfl
theorem exec_nodeStart (k : Fin 64) (c : Fin 16) (node member : Nat) (s : State) :
    exec (.nodeStart k c node member) s = execNodeStart k c node member s := rfl
theorem exec_arrayPass (k : Fin 64) (c : Fin 16) (node : UnitWork) (s : State) :
    exec (.arrayPass k c node) s = execArrayPass k c node s := rfl
theorem exec_vectorAdd (k : Fin 64) (c : Fin 16) (node : Nat) (work : UnitWork) (s : State) :
    exec (.vectorAdd k c node work) s = execVectorAdd k c node work s := rfl
theorem exec_vectorMul (k : Fin 64) (c : Fin 16) (node : Nat) (work : UnitWork) (s : State) :
    exec (.vectorMul k c node work) s = execVectorMul k c node work s := rfl
theorem exec_vectorFma (k : Fin 64) (c : Fin 16) (node : Nat) (work : UnitWork) (s : State) :
    exec (.vectorFma k c node work) s = execVectorFma k c node work s := rfl
theorem exec_vectorMax (k : Fin 64) (c : Fin 16) (node : Nat) (work : UnitWork) (s : State) :
    exec (.vectorMax k c node work) s = execVectorMax k c node work s := rfl
theorem exec_vectorMin (k : Fin 64) (c : Fin 16) (node : Nat) (work : UnitWork) (s : State) :
    exec (.vectorMin k c node work) s = execVectorMin k c node work s := rfl
theorem exec_convert (k : Fin 64) (c : Fin 16) (node : Nat) (work : UnitWork) (s : State) :
    exec (.convert k c node work) s = execConvert k c node work s := rfl
theorem exec_rescale (k : Fin 64) (c : Fin 16) (node : Nat) (work : UnitWork) (s : State) :
    exec (.rescale k c node work) s = execRescale k c node work s := rfl
theorem exec_vectorFunc (k : Fin 64) (c : Fin 16) (node : Nat) (work : UnitWork) (s : State) :
    exec (.vectorFunc k c node work) s = execVectorFunc k c node work s := rfl
theorem exec_gate (k : Fin 64) (c : Fin 16) (node : Nat) (work : UnitWork) (s : State) :
    exec (.gate k c node work) s = execGate k c node work s := rfl
theorem exec_softmax (k : Fin 64) (c : Fin 16) (node : Nat) (work : UnitWork) (s : State) :
    exec (.softmax k c node work) s = execSoftmax k c node work s := rfl
theorem exec_rmsnorm (k : Fin 64) (c : Fin 16) (node : Nat) (work : UnitWork) (s : State) :
    exec (.rmsnorm k c node work) s = execRmsnorm k c node work s := rfl
theorem exec_layernorm (k : Fin 64) (c : Fin 16) (node : Nat) (work : UnitWork) (s : State) :
    exec (.layernorm k c node work) s = execLayernorm k c node work s := rfl
theorem exec_argmax (k : Fin 64) (c : Fin 16) (node : Nat) (work : UnitWork) (s : State) :
    exec (.argmax k c node work) s = execArgmax k c node work s := rfl
theorem exec_dmaTransfer (k : Fin 64) (c : Fin 16) (node member : Nat) (s : State) :
    exec (.dmaTransfer k c node member) s = execDmaTransfer k c node member s := rfl
theorem exec_bayDescPushRetry (k : Fin 64) (ch : Fin 16) (s : State) :
    exec (.bayDescPushRetry k ch) s = execBayDescPushRetry k ch s := rfl
theorem exec_dmaUnitWritten (k : Fin 64) (ch : Fin 16) (e : UnitEcc) (s : State) :
    exec (.dmaUnitWritten k ch e) s = execDmaUnitWritten k ch e s := rfl
theorem exec_dmaDescHostPush (fn : Fn) (k : Fin 64) (off : Fin 512) (data : List Byte) (s : State) :
    exec (.dmaDescHostPush fn k off data) s = execDmaDescHostPush fn k off data s := rfl
theorem exec_dmaBusError (k : Fin 64) (ch : Fin 16) (cause : Fin 5) (s : State) :
    exec (.dmaBusError k ch cause) s = execDmaBusError k ch cause s := rfl
theorem exec_dmaEngineRestart (k : Fin 64) (s : State) : exec (.dmaEngineRestart k) s = execDmaEngineRestart k s := rfl
theorem exec_dmaChDisable (fn : Fn) (k : Fin 64) (ch : Fin 16) (s : State) :
    exec (.dmaChDisable fn k ch) s = execDmaChDisable fn k ch s := rfl
theorem exec_dmaChEnable (fn : Fn) (k : Fin 64) (ch : Fin 16) (s : State) :
    exec (.dmaChEnable fn k ch) s = execDmaChEnable fn k ch s := rfl
theorem exec_dmaWinOpen (fn : Fn) (k : Fin 64) (w : Fin 16) (value : Word) (s : State) :
    exec (.dmaWinOpen fn k w value) s = execDmaWinOpen fn k w value s := rfl
theorem exec_dmaWinClose (fn : Fn) (k : Fin 64) (w : Fin 16) (value : Word) (s : State) :
    exec (.dmaWinClose fn k w value) s = execDmaWinClose fn k w value s := rfl
theorem exec_dmaWinCloseDone (k : Fin 64) (w : Fin 16) (s : State) :
    exec (.dmaWinCloseDone k w) s = execDmaWinCloseDone k w s := rfl
theorem exec_windowUnitRx (j : Fin 64) (ch : Fin 16) (s : State) :
    exec (.windowUnitRx j ch) s = execWindowUnitRx j ch s := rfl
theorem exec_hostApertureWrite (k : Fin 64) (off : Fin 4194304) (data : List Byte) (e : Ecc) (s : State) :
    exec (.hostApertureWrite k off data e) s = execHostApertureWrite k off data e s := rfl
theorem exec_hostApertureRead (k : Fin 64) (off : Fin 4194304) (len : Nat) (e : Ecc) (s : State) :
    exec (.hostApertureRead k off len e) s = execHostApertureRead k off len e s := rfl
theorem exec_dmaHostSelWrite (fn : Fn) (k : Fin 64) (value : Word) (s : State) :
    exec (.dmaHostSelWrite fn k value) s = execDmaHostSelWrite fn k value s := rfl
theorem exec_bar2Read (k : Fin 64) (off : BitVec 32) (len : Nat) (e : Ecc) (s : State) :
    exec (.bar2Read k off len e) s = execBar2Read k off len e s := rfl
theorem exec_bar2Write (k : Fin 64) (off : BitVec 32) (data : List Byte) (e : Ecc) (s : State) :
    exec (.bar2Write k off data e) s = execBar2Write k off data e s := rfl
theorem exec_patrolScrub (k : Fin 64) (ext : Bool) (g : Nat) (e : Ecc) (s : State) :
    exec (.patrolScrub k ext g e) s = execPatrolScrub k ext g e s := rfl
theorem exec_memRefresh (k : Fin 64) (ext : Bool) (chan : Fin 4) (s : State) :
    exec (.memRefresh k ext chan) s = execMemRefresh k ext chan s := rfl
theorem exec_cmpRegionEnable (fn : Fn) (k : Fin 64) (r : Fin 16) (value : Word) (e : Ecc) (s : State) :
    exec (.cmpRegionEnable fn k r value e) s = execCmpRegionEnable fn k r value e s := rfl
theorem exec_cmpRegionDisable (fn : Fn) (k : Fin 64) (r : Fin 16) (value : Word) (s : State) :
    exec (.cmpRegionDisable fn k r value) s = execCmpRegionDisable fn k r value s := rfl
theorem exec_kvRead (k : Fin 64) (c : Fin 16) (node member : Nat) (e : Ecc) (s : State) :
    exec (.kvRead k c node member e) s = execKvRead k c node member e s := rfl
theorem exec_kvAppend (k : Fin 64) (c : Fin 16) (node member : Nat) (e : Ecc) (s : State) :
    exec (.kvAppend k c node member e) s = execKvAppend k c node member e s := rfl
theorem exec_pageWalkPush (k : Fin 64) (ch : Fin 16) (s : State) :
    exec (.pageWalkPush k ch) s = execPageWalkPush k ch s := rfl
theorem exec_specMask (k : Fin 64) (c : Fin 16) (node member : Nat) (s : State) :
    exec (.specMask k c node member) s = execSpecMask k c node member s := rfl
theorem exec_specAccept (k : Fin 64) (c : Fin 16) (node member : Nat) (s : State) :
    exec (.specAccept k c node member) s = execSpecAccept k c node member s := rfl
theorem exec_specCommit (k : Fin 64) (c : Fin 16) (node member : Nat) (e : Ecc) (s : State) :
    exec (.specCommit k c node member e) s = execSpecCommit k c node member e s := rfl
theorem exec_specRollback (k : Fin 64) (c : Fin 16) (node member : Nat) (s : State) :
    exec (.specRollback k c node member) s = execSpecRollback k c node member s := rfl
theorem exec_specReconcile (k : Fin 64) (c : Fin 16) (node member : Nat) (e : Ecc) (s : State) :
    exec (.specReconcile k c node member e) s = execSpecReconcile k c node member e s := rfl
theorem exec_linkSend (k : Fin 64) (c : Fin 16) (node : Nat) (work : MemberWork) (s : State) :
    exec (.linkSend k c node work) s = execLinkSend k c node work s := rfl
theorem exec_linkRecv (k : Fin 64) (c : Fin 16) (node member : Nat) (s : State) :
    exec (.linkRecv k c node member) s = execLinkRecv k c node member s := rfl
theorem exec_linkExchange (k : Fin 64) (c : Fin 16) (node : Nat) (work : MemberWork) (s : State) :
    exec (.linkExchange k c node work) s = execLinkExchange k c node work s := rfl
theorem exec_nodeComplete (k : Fin 64) (c : Fin 16) (node member : Nat) (s : State) :
    exec (.nodeComplete k c node member) s = execNodeComplete k c node member s := rfl
theorem exec_raiseComplete (k : Fin 64) (c : Fin 16) (s : State) :
    exec (.raiseComplete k c) s = execRaiseComplete k c s := rfl
theorem exec_cplRecordRetry (k : Fin 64) (c : Fin 16) (s : State) :
    exec (.cplRecordRetry k c) s = execCplRecordRetry k c s := rfl
theorem exec_cplRdWrite (fn : Fn) (k : Fin 64) (c : Fin 16) (value : Word) (s : State) :
    exec (.cplRdWrite fn k c value) s = execCplRdWrite fn k c value s := rfl
theorem exec_noticeRdWrite (fn : Fn) (k : Fin 64) (value : Word) (s : State) :
    exec (.noticeRdWrite fn k value) s = execNoticeRdWrite fn k value s := rfl
theorem exec_noticePushRetry (k : Fin 64) (s : State) : exec (.noticePushRetry k) s = execNoticePushRetry k s := rfl
theorem exec_eventHostWrite (fn : Fn) (k : Fin 64) (off : Fin 524288) (data : List Byte) (s : State) :
    exec (.eventHostWrite fn k off data) s = execEventHostWrite fn k off data s := rfl
theorem exec_evtCtrlArm (fn : Fn) (k : Fin 64) (s : State) : exec (.evtCtrlArm fn k) s = execEvtCtrlArm fn k s := rfl
theorem exec_admSuspendMemClear (fn : Fn) (k : Fin 64) (s : State) :
    exec (.admSuspendMemClear fn k) s = execAdmSuspendMemClear fn k s := rfl
theorem exec_peerLateTimeout (k : Fin 64) (c : Fin 16) (node member : Nat) (s : State) :
    exec (.peerLateTimeout k c node member) s = execPeerLateTimeout k c node member s := rfl
theorem exec_waitWatchdog (k : Fin 64) (c : Fin 16) (q : Fin 4) (s : State) :
    exec (.waitWatchdog k c q) s = execWaitWatchdog k c q s := rfl
theorem exec_linkWatchdog (k : Fin 64) (c : Fin 16) (node member : Nat) (s : State) :
    exec (.linkWatchdog k c node member) s = execLinkWatchdog k c node member s := rfl
theorem exec_nodeProgressWatchdog (k : Fin 64) (c : Fin 16) (node member : Nat) (s : State) :
    exec (.nodeProgressWatchdog k c node member) s = execNodeProgressWatchdog k c node member s := rfl
theorem exec_bayAgentHeartbeat (b : Fin 4) (s : State) :
    exec (.bayAgentHeartbeat b) s = execBayAgentHeartbeat b s := rfl
theorem exec_bayControllerWatchdog (b : Fin 4) (s : State) :
    exec (.bayControllerWatchdog b) s = execBayControllerWatchdog b s := rfl
theorem exec_chipControllerWatchdog (s : State) : exec .chipControllerWatchdog s = execChipControllerWatchdog s := rfl
theorem exec_trussInternalError (k : Fin 64) (t : Fin 2) (s : State) :
    exec (.trussInternalError k t) s = execTrussInternalError k t s := rfl
theorem exec_resetCapture (k : Fin 64) (e : Ecc) (s : State) :
    exec (.resetCapture k e) s = execResetCapture k e s := rfl
theorem exec_resetEndRaises (k : Fin 64) (s : State) : exec (.resetEndRaises k) s = execResetEndRaises k s := rfl
theorem exec_resetRetrain (k : Fin 64) (s : State) : exec (.resetRetrain k) s = execResetRetrain k s := rfl
theorem exec_resetScrub (k : Fin 64) (s : State) : exec (.resetScrub k) s = execResetScrub k s := rfl
theorem exec_resetSelfTest (k : Fin 64) (pass0 pass1 : Bool) (s : State) :
    exec (.resetSelfTest k pass0 pass1) s = execResetSelfTest k pass0 pass1 s := rfl
theorem exec_resetRestore (k : Fin 64) (s : State) : exec (.resetRestore k) s = execResetRestore k s := rfl
theorem exec_trussReadmit (fn : Fn) (k : Fin 64) (mask : BitVec 2) (s : State) :
    exec (.trussReadmit fn k mask) s = execTrussReadmit fn k mask s := rfl
theorem exec_readmitTestDone (k : Fin 64) (t : Fin 2) (pass : Bool) (s : State) :
    exec (.readmitTestDone k t pass) s = execReadmitTestDone k t pass s := rfl
theorem exec_trussRejoin (k : Fin 64) (s : State) : exec (.trussRejoin k) s = execTrussRejoin k s := rfl
theorem exec_shardScrubPassStart (k : Fin 64) (s : State) :
    exec (.shardScrubPassStart k) s = execShardScrubPassStart k s := rfl
theorem exec_shardScrubHashDone (k : Fin 64) (e : Ecc) (s : State) :
    exec (.shardScrubHashDone k e) s = execShardScrubHashDone k e s := rfl
theorem exec_scrubLate (k : Fin 64) (s : State) : exec (.scrubLate k) s = execScrubLate k s := rfl
theorem exec_linkTrain (n : Fin 96) (p : LinkPartner) (s : State) : exec (.linkTrain n p) s = execLinkTrain n p s := rfl
theorem exec_payloadFrameRx (n : Fin 96) (lane : Fin 4) (f : LinkFrame) (s : State) :
    exec (.payloadFrameRx n lane f) s = execPayloadFrameRx n lane f s := rfl
theorem exec_laneEntryRx (n : Fin 96) (live standby : BitVec 4) (widen ack quiet : Bool) (s : State) :
    exec (.laneEntryRx n live standby widen ack quiet) s = execLaneEntryRx n live standby widen ack quiet s := rfl
theorem exec_nakRx (n : Fin 96) (seqs : List (BitVec 16)) (s : State) :
    exec (.nakRx n seqs) s = execNakRx n seqs s := rfl
theorem exec_ackRx (n : Fin 96) (seq : BitVec 16) (s : State) : exec (.ackRx n seq) s = execAckRx n seq s := rfl
theorem exec_msgRx (n : Fin 96) (path : BitVec 12) (tag : BitVec 16) (len : Nat) (seq : BitVec 16) (s : State) :
    exec (.msgRx n path tag len seq) s = execMsgRx n path tag len seq s := rfl
theorem exec_creditRx (n : Fin 96) (path : BitVec 12) (units : Nat) (s : State) :
    exec (.creditRx n path units) s = execCreditRx n path units s := rfl
theorem exec_gtagRx (n : Fin 96) (path : BitVec 12) (segment : Nat) (tag : List Byte) (s : State) :
    exec (.gtagRx n path segment tag) s = execGtagRx n path segment tag s := rfl
theorem exec_laneLoss (n : Fin 96) (lane : Fin 4) (s : State) : exec (.laneLoss n lane) s = execLaneLoss n lane s := rfl
theorem exec_linkDownTimeout (n : Fin 96) (s : State) : exec (.linkDownTimeout n) s = execLinkDownTimeout n s := rfl
theorem exec_laneStandbyReady (n : Fin 96) (lane : Fin 4) (s : State) :
    exec (.laneStandbyReady n lane) s = execLaneStandbyReady n lane s := rfl
theorem exec_linkWiden (n : Fin 96) (s : State) : exec (.linkWiden n) s = execLinkWiden n s := rfl
theorem exec_linkWidenDone (n : Fin 96) (ok : Bool) (s : State) :
    exec (.linkWidenDone n ok) s = execLinkWidenDone n ok s := rfl
theorem exec_laneHeldRelease (fn : Fn) (n : Fin 96) (s : State) :
    exec (.laneHeldRelease fn n) s = execLaneHeldRelease fn n s := rfl
theorem exec_timeExchange (t1 t2 t3 t4 : Int) (role : TimeRole) (s : State) :
    exec (.timeExchange t1 t2 t3 t4 role) s = execTimeExchange t1 t2 t3 t4 role s := rfl
theorem exec_lnkTimeSetCommit (fn : Fn) (hi : Word) (s : State) :
    exec (.lnkTimeSetCommit fn hi) s = execLnkTimeSetCommit fn hi s := rfl
theorem exec_timeParentLoss (s : State) : exec .timeParentLoss s = execTimeParentLoss s := rfl
theorem exec_sisHeartbeatTx (b : Fin 12) (n : Fin 96) (s : State) :
    exec (.sisHeartbeatTx b n) s = execSisHeartbeatTx b n s := rfl
theorem exec_sisHeartbeatRx (b : Fin 12) (epoch : Word) (s : State) :
    exec (.sisHeartbeatRx b epoch) s = execSisHeartbeatRx b epoch s := rfl
theorem exec_sisHeartbeatLoss (b : Fin 12) (s : State) : exec (.sisHeartbeatLoss b) s = execSisHeartbeatLoss b s := rfl
theorem exec_sisCommitApply (b : Fin 12) (msg : SisterMsg) (e : ApplyEcc) (s : State) :
    exec (.sisCommitApply b msg e) s = execSisCommitApply b msg e s := rfl
theorem exec_sisAckRx (b : Fin 12) (k : Fin 64) (s : State) : exec (.sisAckRx b k) s = execSisAckRx b k s := rfl
theorem exec_sisAckTimeout (b : Fin 12) (k : Fin 64) (s : State) :
    exec (.sisAckTimeout b k) s = execSisAckTimeout b k s := rfl
theorem exec_sisReleaseRx (b : Fin 12) (epoch : Word) (s : State) :
    exec (.sisReleaseRx b epoch) s = execSisReleaseRx b epoch s := rfl
theorem exec_sisBreakRx (b : Fin 12) (epoch : Word) (cause : Fin 8) (s : State) :
    exec (.sisBreakRx b epoch cause) s = execSisBreakRx b epoch cause s := rfl
theorem exec_sisSettle (b : Fin 12) (s : State) : exec (.sisSettle b) s = execSisSettle b s := rfl
theorem exec_governorSample (r : Readings) (s : State) : exec (.governorSample r) s = execGovernorSample r s := rfl
theorem exec_thermalThrottle (b : Fin 4) (temp : Int) (s : State) :
    exec (.thermalThrottle b temp) s = execThermalThrottle b temp s := rfl
theorem exec_throttleClear (b : Fin 4) (temp : Int) (s : State) :
    exec (.throttleClear b temp) s = execThrottleClear b temp s := rfl
theorem exec_thermalTrip (tdie inlet : Int) (s : State) :
    exec (.thermalTrip tdie inlet) s = execThermalTrip tdie inlet s := rfl
theorem exec_lowFlowTimeout (s : State) : exec .lowFlowTimeout s = execLowFlowTimeout s := rfl
theorem exec_tripStandingTimeout (s : State) : exec .tripStandingTimeout s = execTripStandingTimeout s := rfl
theorem exec_thermalShutdown (tdie : Int) (s : State) :
    exec (.thermalShutdown tdie) s = execThermalShutdown tdie s := rfl
theorem exec_tripClear (tdie inlet : Int) (flow : Nat) (s : State) :
    exec (.tripClear tdie inlet flow) s = execTripClear tdie inlet flow s := rfl
theorem exec_registerWrite (fn : Fn) (space : RegSpace) (off : Nat) (op : RegOp) (s : State) :
    exec (.registerWrite fn space off op) s = execRegisterWrite fn space off op s := rfl
theorem exec_bootFatalFault (s : State) : exec .bootFatalFault s = execBootFatalFault s := rfl
theorem exec_inletAboveSelfTestLimit (inlet : Int) (s : State) :
    exec (.inletAboveSelfTestLimit inlet) s = execInletAboveSelfTestLimit inlet s := rfl
theorem exec_selfTestLimitsRestored (tdie inlet : Int) (s : State) :
    exec (.selfTestLimitsRestored tdie inlet) s = execSelfTestLimitsRestored tdie inlet s := rfl
theorem exec_pcieTagQuarantineEnd (tag : BitVec 14) (s : State) :
    exec (.pcieTagQuarantineEnd tag) s = execPcieTagQuarantineEnd tag s := rfl
theorem exec_keyLoadWrappedResponse (s : State) : exec .keyLoadWrappedResponse s = execKeyLoadWrappedResponse s := rfl
theorem exec_ideKeyManagementMessage (st : IdeStream) (act : IdeAct) (s : State) :
    exec (.ideKeyManagementMessage st act) s = execIdeKeyManagementMessage st act s := rfl

end Sys2Proof.Machine
end

