-- ==== Sys2Proof/Laws/Fields.lean ====
section
/-!
SUPPORT. Fields of a register after a field is written: the written field, and those it does not meet.
-/

namespace Sys2Proof.Machine

theorem bit_eq_testBit (v i : Nat) : bit v i = v.testBit i := by
  simp [bit, Nat.testBit_eq_decide_div_mod_eq, beq_eq_decide]

theorem testBit_bits (v hi lo i : Nat) : (bits v hi lo).testBit i = (decide (i < hi + 1 - lo) && v.testBit (i + lo)) := by
  simp [bits, Nat.testBit_mod_two_pow, Nat.testBit_div_two_pow, Nat.add_comm]

/-- A number cut around a field: what stands above it, the field, and what stands below. -/
theorem field_split (r hi lo : Nat) (h : lo ≤ hi) :
    r = r / 2 ^ (hi + 1) * 2 ^ (hi + 1) + bits r hi lo * 2 ^ lo + r % 2 ^ lo := by
  have h1 : 2 ^ (hi + 1) = 2 ^ lo * 2 ^ (hi + 1 - lo) := by rw [← pow_add]; congr 1; omega
  have h2 : r / 2 ^ lo / 2 ^ (hi + 1 - lo) = r / 2 ^ (hi + 1) := by rw [Nat.div_div_eq_div_mul, ← h1]
  have h3 := Nat.div_add_mod (r / 2 ^ lo) (2 ^ (hi + 1 - lo))
  have h4 := Nat.div_add_mod r (2 ^ lo)
  rw [h2] at h3
  unfold bits
  conv => lhs; rw [← h4, ← h3]
  rw [h1]
  ring

/-- The number of a register after a field is written. -/
theorem setF_toNat (r : Word) (hi lo v : Nat) (h : lo ≤ hi) (h32 : hi < 32) :
    (setF r hi lo v).toNat =
      r.toNat / 2 ^ (hi + 1) * 2 ^ (hi + 1) + v % 2 ^ (hi + 1 - lo) * 2 ^ lo + r.toNat % 2 ^ lo := by
  have hs := field_split r.toNat hi lo h
  have hr := r.isLt
  have h1 : 2 ^ (hi + 1) = 2 ^ lo * 2 ^ (hi + 1 - lo) := by rw [← pow_add]; congr 1; omega
  have hv : v % 2 ^ (hi + 1 - lo) < 2 ^ (hi + 1 - lo) := Nat.mod_lt _ (by positivity)
  have hc : r.toNat % 2 ^ lo < 2 ^ lo := Nat.mod_lt _ (by positivity)
  have hq : r.toNat / 2 ^ (hi + 1) < 2 ^ (32 - (hi + 1)) := by
    rw [Nat.div_lt_iff_lt_mul (by positivity), ← pow_add]
    have : 32 - (hi + 1) + (hi + 1) = 32 := by omega
    rw [this]; exact hr
  have h32' : (2 : Nat) ^ 32 = 2 ^ (32 - (hi + 1)) * 2 ^ (hi + 1) := by rw [← pow_add]; congr 1; omega
  have hlow : v % 2 ^ (hi + 1 - lo) * 2 ^ lo + r.toNat % 2 ^ lo < 2 ^ (hi + 1) := by
    rw [h1]
    calc v % 2 ^ (hi + 1 - lo) * 2 ^ lo + r.toNat % 2 ^ lo < v % 2 ^ (hi + 1 - lo) * 2 ^ lo + 2 ^ lo := by omega
      _ = (v % 2 ^ (hi + 1 - lo) + 1) * 2 ^ lo := by ring
      _ ≤ 2 ^ (hi + 1 - lo) * 2 ^ lo := Nat.mul_le_mul_right _ hv
      _ = 2 ^ lo * 2 ^ (hi + 1 - lo) := by ring
  have hlt : r.toNat / 2 ^ (hi + 1) * 2 ^ (hi + 1) + v % 2 ^ (hi + 1 - lo) * 2 ^ lo + r.toNat % 2 ^ lo < 2 ^ 32 := by
    rw [h32']
    calc _ < r.toNat / 2 ^ (hi + 1) * 2 ^ (hi + 1) + 2 ^ (hi + 1) := by omega
      _ = (r.toNat / 2 ^ (hi + 1) + 1) * 2 ^ (hi + 1) := by ring
      _ ≤ _ := Nat.mul_le_mul_right _ hq
  simp only [setF, BitVec.toNat_ofNat]
  rw [Nat.mod_eq_of_lt]
  · omega
  · omega

/-- The bits of a register after a field is written. -/
theorem setF_testBit (r : Word) (hi lo v i : Nat) (h : lo ≤ hi) (h32 : hi < 32) :
    (setF r hi lo v).toNat.testBit i =
      if lo ≤ i ∧ i ≤ hi then v.testBit (i - lo) else r.toNat.testBit i := by
  rw [setF_toNat r hi lo v h h32]
  have h1 : 2 ^ (hi + 1) = 2 ^ lo * 2 ^ (hi + 1 - lo) := by rw [← pow_add]; congr 1; omega
  have hv : v % 2 ^ (hi + 1 - lo) < 2 ^ (hi + 1 - lo) := Nat.mod_lt _ (by positivity)
  have hc : r.toNat % 2 ^ lo < 2 ^ lo := Nat.mod_lt _ (by positivity)
  have hlow : v % 2 ^ (hi + 1 - lo) * 2 ^ lo + r.toNat % 2 ^ lo < 2 ^ (hi + 1) := by
    rw [h1]
    calc v % 2 ^ (hi + 1 - lo) * 2 ^ lo + r.toNat % 2 ^ lo < v % 2 ^ (hi + 1 - lo) * 2 ^ lo + 2 ^ lo := by omega
      _ = (v % 2 ^ (hi + 1 - lo) + 1) * 2 ^ lo := by ring
      _ ≤ 2 ^ (hi + 1 - lo) * 2 ^ lo := Nat.mul_le_mul_right _ hv
      _ = 2 ^ lo * 2 ^ (hi + 1 - lo) := by ring
  rw [Nat.add_assoc, Nat.mul_comm (r.toNat / 2 ^ (hi + 1)), Nat.testBit_two_pow_mul_add _ hlow,
    Nat.mul_comm (v % 2 ^ (hi + 1 - lo)), Nat.testBit_two_pow_mul_add _ hc, Nat.testBit_div_two_pow]
  by_cases ha : i < lo
  · simp [show ¬ (lo ≤ i ∧ i ≤ hi) by omega, show i < hi + 1 by omega, ha, Nat.testBit_mod_two_pow]
  · by_cases hb : i ≤ hi
    · simp [show lo ≤ i ∧ i ≤ hi by omega, show i < hi + 1 by omega, ha, Nat.testBit_mod_two_pow, show i - lo < hi + 1 - lo by omega]
    · simp [show ¬ (lo ≤ i ∧ i ≤ hi) by omega, show ¬ i < hi + 1 by omega]
      congr 1; omega

/-- A written field reads what was written, cut to its width. -/
theorem getF_setF_same (r : Word) (hi lo v : Nat) (h : lo ≤ hi) (h32 : hi < 32) :
    getF (setF r hi lo v) hi lo = v % 2 ^ (hi + 1 - lo) := by
  apply Nat.eq_of_testBit_eq
  intro i
  rw [getF, testBit_bits, setF_testBit r hi lo v _ h h32, Nat.testBit_mod_two_pow]
  by_cases hi' : i < hi + 1 - lo
  · simp [hi', show lo ≤ i + lo ∧ i + lo ≤ hi by omega]
  · simp [hi']

/-- A field that the written one does not meet reads as before. -/
theorem getF_setF_other (r : Word) (hi lo v a b : Nat) (h : lo ≤ hi) (h32 : hi < 32) (hd : a < lo ∨ hi < b) :
    getF (setF r hi lo v) a b = getF r a b := by
  apply Nat.eq_of_testBit_eq
  intro i
  simp only [getF, testBit_bits, setF_testBit r hi lo v _ h h32]
  by_cases hi' : i < a + 1 - b
  · simp [hi', show ¬ (lo ≤ i + b ∧ i + b ≤ hi) by omega]
  · simp [hi']

theorem getB_setF_other (r : Word) (hi lo v i : Nat) (h : lo ≤ hi) (h32 : hi < 32) (hd : i < lo ∨ hi < i) :
    getB (setF r hi lo v) i = getB r i := by
  simp [getB, bit_eq_testBit, setF_testBit r hi lo v i h h32, show ¬ (lo ≤ i ∧ i ≤ hi) by omega]

theorem getB_setB_same (r : Word) (i : Nat) (b : Bool) (h32 : i < 32) : getB (setB r i b) i = b := by
  cases b <;> simp [getB, setB, bit_eq_testBit, setF_testBit r i i _ i (Nat.le_refl i) h32, b2n]

theorem getB_setB_other (r : Word) {i j : Nat} (b : Bool) (h32 : i < 32) (h : j ≠ i) : getB (setB r i b) j = getB r j :=
  getB_setF_other r i i (b2n b) j (Nat.le_refl i) h32 (by omega)

end Sys2Proof.Machine
end

