-- ==== Sys2Proof/Safety.lean ====
section
/-! DEFINITION. What a safe run of the block is: no command it acts on stops it. -/

namespace Sys2Proof

/-- A step that neither faults nor refuses. -/
def Safe (s : Machine.State) : Prop := ∃ t, Machine.step s = .next t

end Sys2Proof
end

