-- ==== Sys2Proof/WellFormed.lean ====
section
/-!
DEFINITION. Which commands the module can be sent: the ranges of the operands that the types do not already give.
-/

namespace Sys2Proof

/-- The bytes of one PCIe write: at least one and at most the 512 of Max Payload Size (02 R43). -/
def writeOk (data : List Byte) : Bool := decide (1 ≤ data.length) && decide (data.length ≤ 512)

/-- A host write that stays within a region of `size` bytes (04 R105, 10 R230, R236). -/
def regionWriteOk (off size : Nat) (data : List Byte) : Bool := writeOk data && decide (off + data.length ≤ size)

/-- A node and a member: a frame has at most 4,096 nodes (04 R98), a gathered run at most 64 members (06 R150). -/
def instanceOk (node member : Nat) : Bool := decide (node < 4096) && decide (member < 64)

/-- An instance's work: the words it finds stand in their stores of 8, 4 and 2 MiB (10 R218). -/
def workOk (node member : Nat) (w : UnitWork) : Bool :=
  instanceOk node member && w.finds.all fun x => decide (8 * x.word < 2 ^ (23 - x.store.val))

/-- A granule of a tier: 1.5 GiB of near, 4,608 MiB of external memory, 64 bytes each (11 R248, R257). -/
def granuleOk (ext : Bool) (g : Nat) : Bool := decide (g < if ext then 75497472 else 25165824)

/-- A sideband message: a header of 16 bytes and at most 4,080 of payload (02 R50, R54). -/
def mctpOk (msg : List Byte) : Bool := decide (16 ≤ msg.length) && decide (msg.length ≤ 4096)

/-- Which commands are well formed. -/
def WellFormed : Instr → Bool
  | .bootStageComplete failed => failed.all fun i => decide (i < 512)
  | .mctpMessageRx msg => mctpOk msg.body
  | .launchRecord _ _ _ off data => regionWriteOk off.val 256 data
  | .nodeStart _ _ n mb => instanceOk n mb
  | .arrayPass _ _ w => workOk w.index 0 w
  | .vectorAdd _ _ n w => workOk n w.index w
  | .vectorMul _ _ n w => workOk n w.index w
  | .vectorFma _ _ n w => workOk n w.index w
  | .vectorMax _ _ n w => workOk n w.index w
  | .vectorMin _ _ n w => workOk n w.index w
  | .convert _ _ n w => workOk n w.index w
  | .rescale _ _ n w => workOk n w.index w
  | .vectorFunc _ _ n w => workOk n w.index w
  | .gate _ _ n w => workOk n w.index w
  | .softmax _ _ n w => workOk n w.index w
  | .rmsnorm _ _ n w => workOk n w.index w
  | .layernorm _ _ n w => workOk n w.index w
  | .argmax _ _ n w => workOk n w.index w
  | .dmaTransfer _ _ n mb => instanceOk n mb
  | .dmaDescHostPush _ _ off data => regionWriteOk off.val 512 data
  | .hostApertureWrite _ off data _ => regionWriteOk off.val 4194304 data
  | .bar2Write _ off data _ => regionWriteOk off.toNat 4294967296 data
  | .patrolScrub _ ext g _ => granuleOk ext g
  | .kvRead _ _ n mb _ => instanceOk n mb
  | .kvAppend _ _ n mb _ => instanceOk n mb
  | .specMask _ _ n mb => instanceOk n mb
  | .specAccept _ _ n mb => instanceOk n mb
  | .specCommit _ _ n mb _ => instanceOk n mb
  | .specRollback _ _ n mb => instanceOk n mb
  | .specReconcile _ _ n mb _ => instanceOk n mb
  | .linkSend _ _ n w => instanceOk n w.member
  | .linkRecv _ _ n mb => instanceOk n mb
  | .linkExchange _ _ n w => instanceOk n w.member
  | .nodeComplete _ _ n mb => instanceOk n mb
  | .eventHostWrite _ _ off data => regionWriteOk off.val 524288 data
  | .peerLateTimeout _ _ n mb => instanceOk n mb
  | .linkWatchdog _ _ n mb => instanceOk n mb
  | .nodeProgressWatchdog _ _ n mb => instanceOk n mb
  | .governorSample r => r.die.length == 4
  | .registerWrite _ _ _ (.write data) => writeOk data
  | _ => true

end Sys2Proof
end

