-- ==== Sys2Proof/Tests/Slice0.lean ====
section
/-!
SUPPORT. Tests: the checks of well-formedness, and for every statement concrete states that meet its hypotheses,
clause by clause.
-/

namespace Sys2Proof.Tests
open Machine Claims
set_option Elab.async false

/-! ### Small states -/

/-- A booted module with partition 0 of tenant 7. -/
def base : Mod :=
  { Mod.reset with
    boot := { Boot.reset with stage := 8, nearTrained := true, extTrained := true }
    devtime := 100000
    parts := [(0, { Partition.reset with created := true, tenant := 7 })] }

/-- A module as a state with no command waiting. -/
def st (m : Mod) : State := { pending := [], mod := m }

/-- The booted module with another partition 0. -/
def withPart (p : Partition) : State := st { base with parts := [(0, { p with created := true, tenant := 7 })] }

/-- A request with its payload padded to its length. -/
def req (f : Fn) (op len : Nat) (pl : List Byte) : Request :=
  { id := 0, fn := f, opcode := op, seq := 1, len := len, payload := slice pl 0 len, mtime := 0 }

/-- A module with one taken request. -/
def asked (m : Mod) (r : Request) : State :=
  st { m with taken := [r], mbx := [(64, { Mailbox.reset with cur := some 0 })], mgmtBusy := some 0 }

/-! ### Well-formedness -/

theorem test_write_of_one_byte_is_well_formed : WellFormed (.bar2Write 0 0 [1] .clean) = true := by decide
theorem test_write_of_no_byte_is_ill_formed : WellFormed (.bar2Write 0 0 [] .clean) = false := by decide
theorem test_write_of_513_bytes_is_ill_formed : WellFormed (.bar2Write 0 0 (zeros 513) .clean) = false := by decide +kernel
theorem test_no_513_bytes_in_a_register_write :
    WellFormed (.registerWrite .pf .chip 0 (.write (zeros 513))) = false := by decide +kernel
theorem test_write_past_its_region_is_ill_formed :
    WellFormed (.launchRecord .pf 0 0 255 [1, 2]) = false ∧ WellFormed (.dmaDescHostPush .pf 0 511 [1, 2]) = false := by
  decide
theorem test_node_out_of_range_is_ill_formed :
    WellFormed (.nodeStart 0 0 4096 0) = false ∧ WellFormed (.nodeStart 0 0 0 64) = false ∧
      WellFormed (.nodeStart 0 0 4095 63) = true := by decide
theorem test_granule_out_of_range_is_ill_formed :
    WellFormed (.patrolScrub 0 false 25165824 .clean) = false ∧ WellFormed (.patrolScrub 0 true 75497472 .clean) = false ∧
      WellFormed (.patrolScrub 0 true 75497471 .clean) = true := by decide
theorem test_short_sideband_message_is_ill_formed :
    WellFormed (.mctpMessageRx { addr := 0x40, type := 0x7E, body := zeros 15 }) = false ∧
      WellFormed (.mctpMessageRx { addr := 0x40, type := 0x7E, body := zeros 16 }) = true := by decide
theorem test_word_out_of_store_is_ill_formed :
    WellFormed (.arrayPass 0 0 { index := 4095, finds := [{ store := 0, word := 1048576, single := true }] }) = false ∧
      WellFormed (.arrayPass 0 0 { index := 4095, finds := [{ store := 0, word := 1048575, single := true }] }) = true ∧
      WellFormed (.vectorAdd 0 0 4095 { index := 64, finds := [] }) = false := by decide
theorem test_link_member_out_of_range_is_ill_formed :
    WellFormed (.linkSend 0 0 4095 { member := 64, finds := ⟨.clean, .clean, .clean⟩ }) = false ∧
      WellFormed (.linkSend 0 0 4095 { member := 63, finds := ⟨.clean, .clean, .clean⟩ }) = true := by decide
theorem test_event_write_past_the_array_is_ill_formed :
    WellFormed (.eventHostWrite .pf 0 524287 [1, 2]) = false ∧ WellFormed (.bar2Write 0 4294967295 [1, 2] .clean) = false ∧
      WellFormed (.hostApertureWrite 0 4194303 [1, 2] .clean) = false := by decide
theorem test_boot_item_out_of_range_is_ill_formed :
    WellFormed (.bootStageComplete [512]) = false ∧ WellFormed (.bootStageComplete [511]) = true := by decide
theorem test_sample_has_four_dies :
    WellFormed (.governorSample { vin := 0, pin := 0, inlet := 0, flow := 0, die := [0] }) = false ∧
      WellFormed (.governorSample { vin := 0, pin := 0, inlet := 0, flow := 0, die := [0, 0, 0, 0] }) = true := by decide
theorem test_table_gives_no_bits : decodeTableWord 0 0 = none := by decide

/-! ### The queue, power and the whole machine -/

theorem test_idle_step : Mod.reset.power.pgOut = true ∧ (-1000 : Int) < Mod.reset.time.subPs ∧ Mod.reset.time.subPs < 1000 := by
  decide
theorem test_unpowered_command :
    (Mod.reset.powerDown true false).power.pgOut = false ∧ powerPin .perst = false ∧
      ∀ d, hostBytes .perst = some d → 0 < d.length ∧ d.length ≤ 512 :=
  ⟨by decide, by decide, nofun⟩
theorem test_step_from_invariant :
    ModInv State.reset.mod ∧ step State.reset = .next { State.reset with mod := { Mod.reset with devtime := 1 } } :=
  ⟨by delta ModInv; decide, rfl⟩
theorem test_PowerEnable :
    let s := st (Mod.reset.powerDown true false)
    s.mod.power.pgOut = false ∧ (s.mod.power.latched = false ∨ (false = true ∧ 10000000 ≤ 0)) ∧
      (s.mod.power.pwrEn = true ∨ false = true) ∧ 42000 ≤ 42000 ∧ 56000 ≤ 56000 := by decide
theorem test_PowerEnable_latched :
    let s := st (Mod.reset.powerDown true true)
    s.mod.power.pgOut = false ∧ s.mod.power.latched = true ∧ 10000000 ≤ 10000000 := by decide
theorem test_PowerPins : On State.reset ∧ 56000 < 56001 ∧ 41999 < 42000 ∧ 75 < 76 := by delta On; decide
theorem test_Perst_after_a_trip :
    let s := st { base with power := { Mod.reset.power with thermtripN := false } }
    On s ∧ s.mod.power.thermtripN = false := by delta On; decide

/-! ### Boot and image load -/

theorem test_BootStage : On State.reset ∧ State.reset.mod.boot.stage < 6 ∧
    ¬ (State.reset.mod.boot.stage = 5 ∧ State.reset.mod.boot.paused = true) := by delta On; decide
theorem test_BootLastStage :
    let s := st { Mod.reset with boot := { Boot.reset with stage := 5 } }
    On s ∧ s.mod.boot.stage < 6 ∧ ¬ (s.mod.boot.stage = 5 ∧ s.mod.boot.paused = true) := by delta On; decide
theorem test_SelfTestLimits : On State.reset ∧ (360 : Int) < 361 ∧ (759 : Int) < 760 ∧ (360 : Int) ≤ 360 := by
  delta On; decide

/-- A module in stage 0x6. -/
def waiting : Mod := { Mod.reset with boot := { Boot.reset with stage := 6 } }

/-- FW_LOAD of the shortest image. -/
def loadReq : Request := req .pf 0x03 16 (zeros 8 ++ leBytes 4 320)

/-- The first chunk of the shortest image. -/
def chunkReq : Request := req .mgmt 0x03 12 (zeros 4 ++ leBytes 4 320 ++ zeros 4)

theorem test_FwLoad :
    Turn (asked waiting loadReq) loadReq [] ∧ loadReq.fn = .pf ∧ loadReq.opcode = 0x03 ∧ waiting.running = false ∧
      waiting.fwLoad = none ∧ imageLenOk (fld loadReq.payload 8 4) = true ∧ fld loadReq.payload 12 4 = 0 := by
  delta Turn On; decide +kernel
theorem test_FwLoadChunk :
    Turn (asked waiting chunkReq) chunkReq [] ∧ chunkReq.fn = .mgmt ∧ chunkReq.opcode = 0x03 ∧ waiting.running = false ∧
      waiting.fwLoad = none ∧ fld chunkReq.payload 0 4 = 0 ∧ imageLenOk (fld chunkReq.payload 4 4) = true ∧
      (chunkReq.payload.drop 8).length < fld chunkReq.payload 4 4 := by
  delta Turn On; decide +kernel

/-- An image load from management, being authenticated or not. -/
def loading (auth : Bool) (bytes : List Byte) : State :=
  st { waiting with
    fwLoad := some { source := .mgmt, length := 320, addr := 0, bytes := bytes, auth := auth, verdict := none } }

/-- A later chunk of that load, and the last one. -/
def nextChunk (n : Nat) : Request := req .mgmt 0x03 (8 + n) (leBytes 4 4 ++ leBytes 4 320 ++ zeros n)

theorem test_FwLoadNextChunk : ∀ last : Fin 2,
    let r := nextChunk (if last.val = 0 then 4 else 316)
    let l : FwLoad := { source := .mgmt, length := 320, addr := 0, bytes := zeros 4, auth := false, verdict := none }
    let s := asked (loading false (zeros 4)).mod r
    Turn s r [] ∧ r.fn = .mgmt ∧ r.opcode = 0x03 ∧ s.mod.running = false ∧ s.mod.fwLoad = some l ∧
      imageLenOk l.length = true ∧ fld r.payload 4 4 = l.length ∧ fld r.payload 0 4 = l.bytes.length ∧
      0 < l.bytes.length ∧ l.bytes.length + (r.payload.drop 8).length ≤ l.length := by delta Turn On; decide +kernel
theorem test_FwLoadChunkTimeout : On (loading false []) ∧ ∃ l, (loading false []).mod.fwLoad = some l ∧ l.source = .mgmt ∧
    l.auth = false := ⟨rfl, _, rfl, rfl, rfl⟩
theorem test_FwAuthDone : On (loading true (zeros 320)) ∧ ∃ l, (loading true (zeros 320)).mod.fwLoad = some l ∧ l.auth = true ∧
    (imageBad l.bytes).isSome = true := ⟨rfl, _, rfl, rfl, by decide +kernel⟩
theorem test_FwVerified : ∀ w : Fin 7, ∃ l : FwLoad, l.auth = true ∧ l.verdict = some w.val ∧ l.verdict.isSome = true :=
  fun w => ⟨{ source := .mgmt, length := 320, addr := 0, bytes := [], auth := true, verdict := some w.val }, rfl, rfl, rfl⟩

/-! ### PCIe -/

/-- A booted module with VF 0, and one outstanding read of tag 5. -/
def linked : Mod :=
  { base with pcie := { Pcie.reset with
      numVfs := 1, vfEnable := true, reads := [{ tag := 5, fn := .pf, serves := .dropped, addr := 0, len := 2, got := [1] }] } }

theorem test_Numvfs : Linked (st base) ∧ base.pcie.vfEnable = false ∧ 1 ≤ 64 := by delta Linked On; decide
theorem test_ConfigRetry : On State.reset ∧ State.reset.mod.boot.stage < 2 := by delta On; decide
theorem test_FunctionResets : Linked (st linked) ∧ linked.vfExists 0 = true ∧ linked.pcie.vfEnable = true ∧
    linked.exists? 0 = true ∧ linked.exists? 1 = false ∧ 0 < linked.pcie.numVfs ∧ linked.pcie.numVfs ≤ 1 ∧
    (linked.part 0).resetting = none := by delta Linked On; decide +kernel
theorem test_DeviceRead : Linked (st linked) ∧
    (∃ q, (linked.pcie.reads.find? fun x => x.tag == (5#14).toNat) = some q ∧ q.len ≤ (q.got ++ [2]).length ∧
      (q.got ++ []).length < q.len) ∧
    (linked.pcie.reads.find? fun x => x.tag == (6#14).toNat) = none := by
  refine ⟨?_, ⟨_, rfl, ?_, ?_⟩, ?_⟩ <;> first | decide | (delta Linked On; decide)
theorem test_ArbiterOfIngress : Alive (st base) ∧ arbBit .pcieIngress = some 0 ∧
    (∀ x y : Fin 4, Arbiter.pcieIngress ≠ .fabric x y) ∧ ∀ p : Fin 8, Arbiter.pcieIngress ≠ .port p := by
  delta Alive On; exact ⟨by decide, rfl, nofun, nofun⟩
theorem test_FreeTags : linked.pcie.reads.length < 768 ∧ linked.pcie.reads.length + linked.pcie.quarantined.length < 16384 := by
  decide

/-! ### The mailbox -/

theorem test_MailboxFree : Linked (st linked) ∧ linked.hasMailbox (.vf 0) = true ∧ (linked.mailbox (fnIdx (.vf 0))).cur = none ∧
    linked.mgmtBusy = none ∧ 1 ≤ linked.boot.stage ∧ linked.boot.stage ≤ 8 := by delta Linked On; decide +kernel
theorem test_MailboxBusy :
    let s := asked linked (req .pf 1 0 [])
    Linked s ∧ s.mod.hasMailbox .pf = true ∧ (s.mod.mailbox (fnIdx .pf)).cur.isSome = true ∧
      (s.mod.mailbox (fnIdx Fn.pf)).cur = some (req .pf 1 0 []).id := by delta Linked On; decide +kernel

theorem test_SidebandMessage :
    let msg : SidebandMsg := { addr := i3cAddr, type := 0x7E, body := zeros 16 }
    On (st base) ∧ 1 ≤ base.boot.stage ∧ base.boot.stage ≤ 8 ∧ forMailbox msg = true ∧ 16 ≤ msg.body.length ∧
      base.mgmtBusy = none := by
  delta On; refine ⟨rfl, by decide, by decide, ?_, by decide, rfl⟩; simp [forMailbox]

/-- A module in message time 6 with requests of times 4 and 5 that have arrived. -/
def twoTimes : State :=
  st { base with arrived := [{ req .pf 1 0 [] with mtime := 5 }, { req .pf 1 0 [] with mtime := 4 }] }

theorem test_TakeUp : On twoTimes ∧ (∃ r ∈ twoTimes.mod.arrived, r.mtime = 4) ∧ 4 < twoTimes.mod.mtime ∧
    (∀ r ∈ twoTimes.mod.arrived, 4 ≤ r.mtime) := by delta On; decide +kernel
theorem test_NothingToTakeUp :
    let s := st { base with arrived := [{ req .pf 1 0 [] with mtime := 6 }] }
    On s ∧ ∀ r ∈ s.mod.arrived, s.mod.mtime ≤ r.mtime := by delta On; decide +kernel
theorem test_IdentGet : Turn (asked base (req .pf 1 0 [])) (req .pf 1 0 []) [] := by delta Turn On; decide +kernel
theorem test_HealthGet : Turn (asked base (req .mgmt 2 0 [])) (req .mgmt 2 0 []) [] := by delta Turn On; decide +kernel

/-- ATTEST with a key slot that names none. -/
def attestReq : Request := req .pf 0x70 40 (zeros 32 ++ [0xFF, 0xFF])

theorem test_AttestGet : Turn (asked base attestReq) attestReq [] ∧ allZero (slice attestReq.payload 34 6) = true ∧
    base.signSlot attestReq = .inl none := ⟨by delta Turn On; decide +kernel, by decide +kernel, rfl⟩

theorem test_AttestOwnSlot :
    let r := req (.vf 0) 0x70 40 (zeros 32 ++ [255, 0])
    let key (x : SlotState) : KeySlot := { KeySlot.reset with
      state := x, kind := 3, tenant := 7, current := some { ver := 2, material := [] } }
    let m (x : SlotState) : Mod := { base with keys := [(255, key x)] }
    Turn (asked (m .loaded) r) r [] ∧ allZero (slice r.payload 34 6) = true ∧ (m .loaded).signSlot r = .inl (some (255, 2)) ∧
      Turn (asked (m .erasing) r) r [] ∧ (m .erasing).signSlot r = .inr (stKeyRevoked, 0) := by
  delta Turn On; decide +kernel

/-- A partition with one fault record, and a read of it to near memory. -/
def recorded : Mod := (withPart { Partition.reset with recordCount := 1 }).mod
def recordReq : Request := req .pf 0x60 16 ([1, 0, 0, 0] ++ zeros 4 ++ leBytes 8 0x200000)

theorem test_FaultReadPartition :
    Turn (asked recorded recordReq) recordReq [] ∧ frKind recordReq.payload = 1 ∧ faultReadFields recordReq.payload = none ∧
      recorded.faultReadBad recordReq = none ∧
      ((turned (asked recorded recordReq) []).recordScan 0 ((recorded.part 0).recordSlot 0) .clean).1 = [] ∧
      (turned (asked recorded recordReq) []).keyless 0 (frDst recordReq.payload) = false ∧
      isExt (frDst recordReq.payload) = false := by
  delta Turn On; decide +kernel
theorem test_FaultReadPoisoned :
    let x := (asked recorded recordReq)
    ((turned x []).recordScan 0 ((recorded.part 0).recordSlot 0) .uncorrectable).1 ≠ [] := by decide +kernel
theorem test_FaultReadKeyless :
    let r := req .pf 0x60 16 ([1, 0, 0, 0] ++ zeros 4 ++ leBytes 8 0x100000000)
    let d := (turned (asked recorded r) []).recordScan 0 ((recorded.part 0).recordSlot 0) .clean
    Turn (asked recorded r) r [] ∧ faultReadFields r.payload = none ∧ recorded.faultReadBad r = none ∧ d.1 = [] ∧
      d.2.keyless 0 (frDst r.payload) = true := by delta Turn On; decide +kernel
theorem test_putRange : isExt 0x200000 = false ∧ Memory.wf [(0, 1), (63, 2)] = true ∧
    ∀ c ∈ ([(0, 1), (63, 2)] : Cells), c.1 < 64 := by decide
theorem test_FaultReadModule : ∀ full : Fin 2,
    let m := if full.val = 1 then { base with modRecords := [zeros 64] } else base
    let r := req .pf 0x60 16 [2]
    Turn (asked m r) r [] ∧ frKind r.payload = 2 ∧ faultReadFields r.payload = none ∧
      (frIndex r.payload < m.modRecords.length ↔ full.val = 1) := by delta Turn On; decide +kernel
theorem test_FaultReadSupersede : ∀ full : Fin 2,
    let m := if full.val = 1 then { base with supersede := [zeros 32] } else base
    let r := req .mgmt 0x60 16 [3]
    Turn (asked m r) r [] ∧ frKind r.payload = 3 ∧ faultReadFields r.payload = none ∧
      (frIndex r.payload < m.supersede.reverse.length ↔ full.val = 1) := by delta Turn On; decide +kernel
theorem test_FaultReadFromVf : ∀ kind : Fin 2,
    let r := req (.vf 0) 0x60 16 (leBytes 1 (2 + kind.val))
    Turn (asked base r) r [] ∧ frKind r.payload = 2 + kind.val ∧ faultReadFields r.payload = none := by
  delta Turn On; decide +kernel

/-- Partition 0 under reset, in a phase. -/
def resetting (phase : Nat) : Partition :=
  let z : ResetState :=
    { phase := phase, cause := 1, cdetail := 0, t0 := 0, joined := false, mode := false, trusses := 3
      regs := List.replicate 16 0, queues := [] }
  { Partition.reset with resetting := some z }

theorem test_BlockedByReset :
    let r := req .pf 0x12 8 []
    let m := (withPart (resetting 1)).mod
    On (asked m r) ∧ NoErase (asked m r) ∧ mailboxRow (.ctxCreate .pf) r = true ∧ (asked m r).mod.orphan r = false ∧
      (asked m r).mod.resetBlocks r = true := by delta NoErase On; decide +kernel
theorem test_Orphan :
    let r := req (.vf 1) 0x22 8 []
    On (asked base r) ∧ NoErase (asked base r) ∧ mailboxRow (.resvClose (.vf 1)) r = true ∧
      (asked base r).mod.orphan r = true := by delta NoErase On; decide +kernel
theorem test_RowOfAnotherRequest :
    let r := req .pf 0x01 0 []
    On (asked base r) ∧ NoErase (asked base r) ∧ mailboxRow (.identGet .pf) r = true ∧
      mailboxRow (.healthGet .pf) r = false := by delta NoErase On; decide +kernel
theorem test_Superseded :
    let r := req .mgmt 0x80 8 (leBytes 4 1000)
    let h := { req .pf 0x80 8 (leBytes 4 3000) with id := 1 }
    let s := st { base with taken := [r, h], mbx := [(64, { Mailbox.reset with cur := some 1 })], mgmtBusy := some 0 }
    On s ∧ mailboxRow (.pwrSet .mgmt) r = true ∧ supersedes r h = some 0xFFFE ∧ s.mod.orphan h = false ∧
      s.mod.acting = [] ∧ s.mod.binds = [] ∧ (s.mod.mailbox (fnIdx h.fn)).cur = some h.id := by
  delta On; decide +kernel
theorem test_ResponseToAMaskedVector :
    let v : Msix := { Msix.reset with masked := true }
    let m := { base with pcie := { Pcie.reset with msix := [(fnIdx .pf * 32, v)] }
                         mbx := [(fnIdx .pf, { Mailbox.reset with cur := some 0, irqEn := true })] }
    (m.mailbox (fnIdx .pf)).cur = some (req .pf 1 0 []).id ∧ (m.mailbox (fnIdx .pf)).irqEn = true ∧
      Table.get Msix.reset (fnIdx .pf * 32) m.pcie.msix = v := by decide

/-! ### Partitions, contexts, frames, reservations -/

/-- CREATE of partition 63, and DELETE of partition 0. -/
def createReq : Request := req .pf 0x10 8 [63, 1, 9, 0]
def deleteReq : Request := req .pf 0x10 8 [0, 2]

/-- Two partitions of one tenant. -/
def pair : Mod := { base with parts := base.parts ++ [(1, { Partition.reset with created := true, tenant := 7 })] }

theorem test_PartCreate : Turn (asked base createReq) createReq [] ∧ createReq.opcode = 0x10 ∧ pcOp createReq.payload = 1 ∧
    base.partBad createReq = none := by delta Turn On; decide +kernel
theorem test_PartDelete : Turn (asked pair deleteReq) deleteReq [] ∧ pcOp deleteReq.payload = 2 ∧
    pair.partBad deleteReq = none ∧ 1 ≠ pcPart deleteReq.payload ∧ pair.exists? 1 = true ∧
    (pair.part 1).tenant = (pair.part (pcPart deleteReq.payload)).tenant := by delta Turn On; decide +kernel
theorem test_PartDeleteLast : Turn (asked base deleteReq) deleteReq [] ∧ pcOp deleteReq.payload = 2 ∧
    base.partBad deleteReq = none ∧ (∀ j : Fin 64, j.val ≠ pcPart deleteReq.payload → base.exists? j.val = false) ∧
    base.keys = [] ∧ base.binds = [] := by delta Turn On; decide +kernel
theorem test_Restore : Live (withPart (resetting 6)) ∧ ∃ z, ((withPart (resetting 6)).mod.part 0).resetting = some z ∧
    z.phase = 6 := ⟨⟨rfl, rfl⟩, _, rfl, rfl⟩
theorem test_HostWrites : Writes (st linked) .pf 0 ∧ Writes (st linked) (.vf 0) 0 := by
  delta Writes Linked On; decide +kernel

/-- CTX_CREATE of context 15 with FTZ. -/
def ctxReq : Request := req .pf 0x12 8 [15, 0, 1, 0]

theorem test_CtxCreate : Turn (asked base ctxReq) ctxReq [] ∧ base.ctxCreateBad ctxReq = none := by
  delta Turn On; decide +kernel

/-- A frame of one node with a body. -/
def image (unit prio : Nat) (body : List Byte) : List Byte :=
  leBytes 4 0x594E4152 ++ leBytes 2 1 ++ leBytes 2 0 ++ leBytes 2 1 ++ leBytes 2 0 ++ leBytes 4 (80 + body.length) ++
    leBytes 4 64 ++ leBytes 4 64 ++ leBytes 4 64 ++ leBytes 4 0 ++ zeros 32 ++
    (leBytes 1 unit ++ leBytes 1 0 ++ leBytes 1 prio ++ leBytes 1 0 ++ leBytes 4 80 ++ leBytes 4 body.length ++ leBytes 4 0) ++
    body

/-- A DMA body: 512 bytes of near memory to near memory. -/
def copyBody : List Byte := [0, 0, 0, 0] ++ leBytes 4 512 ++ leBytes 8 0x200000 ++ leBytes 8 0x300000 ++ zeros 8

/-- A context with a frame under handle 1 as `img`. -/
def ctxWith (img : List Byte) : Context := { Context.reset with created := true, frames := [(1, { image := img, granules := [] })], lastHandle := 1 }

/-- A partition whose near memory holds the copy frame, with context 0. -/
def framed : Mod :=
  (withPart { Partition.reset with near := Cells.write [] 0x200000 (image 3 0 copyBody), ctxs := [(0, ctxWith (image 3 0 copyBody))] }).mod
def frameReq : Request := req .pf 0x20 32 (zeros 8 ++ leBytes 8 0x200000 ++ leBytes 4 112)

theorem test_FrameLoad :
    Turn (asked framed frameReq) frameReq [] ∧ framed.frameLoadBad frameReq = none ∧ flReport frameReq.payload = 0 ∧
      (let rd := (turned (asked framed frameReq) []).tenantRead 0 (flSrc frameReq.payload) (flLen frameReq.payload) .clean
       rd.1.bad = [] ∧ frameBad rd.1.bytes (flLen frameReq.payload) 0 = none) ∧
      storeFull (Table.erase (flReplace frameReq.payload) ((framed.part 0).ctx 0).frames) (flLen frameReq.payload) = false := by
  delta Turn On; decide +kernel

/-- RESV_OPEN of frame 1 with 1 ms of period and deadline. -/
def resvReq : Request :=
  req .pf 0x21 64 (leBytes 4 0 ++ leBytes 4 1 ++ leBytes 8 1000000 ++ leBytes 8 1000000 ++ leBytes 4 0 ++ leBytes 4 1000)

/-- An open reservation of queue 0 of context 0. -/
def resv : Reservation :=
  { payload := resvReq.payload, response := zeros 64, closed := false, suspended := false, prev := none, serial := 0,
    longest := 0, slots := [] }

theorem test_ResvOpen :
    Turn (asked framed resvReq) resvReq [] ∧ framed.resvFields resvReq = none ∧ framed.resvBars resvReq.payload = none ∧
      framed.roFrame resvReq.payload = some (image 3 0 copyBody) ∧
      (let d := (turned (asked framed resvReq) []).drawSlots ((framed.part 0).framePaths 0 (image 3 0 copyBody))
       let v := d.2.newResv resvReq.payload (image 3 0 copyBody) d.1
       d.2.resvTests 0 (image 3 0 copyBody) v.1 v.2 = none ∧ v.1.w < 2 ^ 63) := by
  delta Turn On; decide +kernel
theorem test_ResvClose :
    let m := (withPart { Partition.reset with resvs := [(0, resv)] }).mod
    let r := req .pf 0x22 8 []
    Turn (asked m r) r [] ∧ r.fn ≠ .mgmt ∧ fld r.payload 4 4 ≤ 1 ∧ fld r.payload 0 4 < 1024 ∧
      Table.find 0 (m.part 0).resvs = some resv ∧ resv.closed = false ∧
      (((m.part 0).ctx resv.ctxNo).queue resv.queueNo).landed = [] ∧
      ((m.part 0).ctx resv.ctxNo).startedQueue resv.queueNo = false := by delta Turn On; decide +kernel
theorem test_ResvCloseAbort :
    let m := (withPart { Partition.reset with resvs := [(15, resv)] }).mod
    let r := req (.vf 0) 0x22 8 [15, 0, 0, 0, 1]
    Turn (asked m r) r [] ∧ fld r.payload 4 4 = 1 ∧ fld r.payload 0 4 / 16 = (0 : Fin 64).val ∧
      Table.find 15 (m.part 0).resvs = some resv := by delta Turn On; decide +kernel
theorem test_TimeTest :
    timeTest [{ p := 1000, d := 1000, c := 400 }, { p := 2000, d := 1500, c := 800 }] 100 = true := by decide +kernel
theorem test_EnergyTest :
    base.resvTests 0 [] { resv with response := slice (zeros 32 ++ leBytes 4 1290000) 0 64 } 0 = none ∧
      base.resvTests 0 [] { resv with response := slice (zeros 32 ++ leBytes 4 1290001) 0 64 } 0 = some (stRefusedBudget, 2) := by
  decide +kernel

/-! ### Keys -/

/-- The booted module with slot 255 at some state, and the PF's IDE stream secure. -/
def keyed (x : KeySlot) : Mod :=
  { base with keys := [(255, x)], pcie := { Pcie.reset with ide := [(1, { key := [], secure := true })] } }

/-- A KEY_LOAD for slot 255 and tenant 7. -/
def keyReq (op kind : Nat) (mat : List Byte) : Request :=
  req .pf 0x30 256 (leBytes 1 op ++ leBytes 1 kind ++ leBytes 2 255 ++ leBytes 2 7 ++ zeros 122 ++ mat)

/-- A slot with an XTS key of tenant 7. -/
def xts : KeySlot :=
  { KeySlot.reset with state := .loaded, kind := 1, tenant := 7, current := some { ver := 1, material := [] } }

theorem test_KeyLoadPlain :
    let r := keyReq 1 2 [1]
    Turn (asked (keyed KeySlot.reset) r) r [] ∧ r.opcode = 0x30 ∧ klOp r.payload = 1 ∧ (keyed KeySlot.reset).keyBad r = none ∧
      materialBad (klKind r.payload) (slice r.payload 128 (materialLen (klKind r.payload))) = false := by
  delta Turn On; decide +kernel
theorem test_KeyLoadPlainBad :
    let r := keyReq 1 1 (zeros 64)
    Turn (asked (keyed KeySlot.reset) r) r [] ∧ (keyed KeySlot.reset).keyBad r = none ∧
      materialBad (klKind r.payload) (slice r.payload 128 (materialLen (klKind r.payload))) = true := by
  delta Turn On; decide +kernel
theorem test_KeyLoadQueued :
    let w := keyReq 2 2 [1]
    let g := keyReq 3 3 []
    (Turn (asked (keyed KeySlot.reset) w) w [] ∧ klOp w.payload = 2 ∧ (keyed KeySlot.reset).keyBad w = none) ∧
      Turn (asked (keyed KeySlot.reset) g) g [] ∧ klOp g.payload = 3 ∧ (keyed KeySlot.reset).keyBad g = none := by
  delta Turn On; decide +kernel
theorem test_KeyInstall :
    KeySlot.reset.current = none ∧ xts.current = some { ver := 1, material := [] } ∧
      ({ xts with users := [(1, .scrub 0)] } : KeySlot).usersOf xts.current ≠ 0 := by decide
theorem test_KeyBind :
    let r := keyReq 4 1 []
    Turn (asked (keyed xts) r) r [] ∧ klOp r.payload = 4 ∧ (keyed xts).keyBad r = none ∧ klSlot r.payload < 256 := by
  delta Turn On; decide +kernel
theorem test_KeyUnbind :
    let r := keyReq 5 1 []
    let m := { keyed xts with parts := (withPart { Partition.reset with regs := [(offKsStatus, 255)] }).mod.parts }
    Turn (asked m r) r [] ∧ klOp r.payload = 5 ∧ m.keyBad r = none ∧ klSlot r.payload < 256 := by delta Turn On; decide +kernel

/-- The booted module with the public-key engine busy. -/
def engine (m : Mod) (j : PkeJob) : State := st { m with pke := [j, .verify] }

theorem test_PkeLoads :
    let s := engine (keyed KeySlot.reset) (.load (keyReq 3 3 []) 1)
    (Alive s ∧ s.mod.pke = [.load (keyReq 3 3 []) 1, .verify] ∧ klOp (keyReq 3 3 []).payload = 3 ∧
      ({ s.mod with pke := [PkeJob.verify] }).keyBad (keyReq 3 3 []) = none) ∧
      Alive (engine base (.load (keyReq 2 2 []) 1)) ∧ klOp (keyReq 2 2 []).payload = 2 := by
  delta Alive On; decide +kernel
theorem test_WrappedResponse :
    let w : WrappedDone := { req := keyReq 2 2 [], status := stOk, detail := 0, payload := [] }
    Live (st { base with wrapped := [w] }) ∧ (st { base with wrapped := [w] }).mod.wrapped = [w] := by
  delta Live On; decide +kernel
theorem test_PkeVerifies :
    let s := st { (loading true (zeros 320)).mod with pke := [.verify] }
    Alive s ∧ s.mod.pke = [.verify] ∧ s.mod.fwLoad.isSome = true := by delta Alive On; decide +kernel
theorem test_PkeSigns :
    Alive (engine base (.attest attestReq [] none none)) ∧ Alive (engine base (.attest attestReq [] (some (255, 1)) none)) ∧
      Alive (engine base (.attest attestReq [] (some (255, 1)) (some []))) ∧
      Alive (engine base (.sign .doe [] .finished none)) ∧ Alive (engine base (.sign .mctp [] .finished (some 5))) := by
  delta Alive On; decide
theorem test_PkeExchanges :
    let msg := zeros 40 ++ (leBytes 48 (curveG.getD (0, 0)).1).reverse ++ (leBytes 48 (curveG.getD (0, 0)).2).reverse
    Alive (engine base (.share .doe msg 1)) ∧ Alive (engine base (.agree .doe msg 0)) ∧
      screenPoint (exchangePoint (zeros 136)).1 (exchangePoint (zeros 136)).2 = some (4, false) ∧
      screenPoint (exchangePoint msg).1 (exchangePoint msg).2 = none ∧ scalarMul 0 (some (exchangePoint msg)) = none ∧
      (scalarMul 1 (some (exchangePoint msg))).isSome = true := by delta Alive On; decide +kernel

/-- KEY_ERASE of slot 255. -/
def eraseReq (now : Nat) : Request := req .pf 0x31 8 ([255, 0] ++ leBytes 1 now)

theorem test_KeyErase :
    (∀ now : Fin 2, Turn (asked (keyed xts) (eraseReq now.val)) (eraseReq now.val) [] ∧
      bit (fld (eraseReq now.val).payload 2 1) 0 = (now.val == 1) ∧ (keyed xts).eraseBad (eraseReq now.val) = none) := by
  delta Turn On; decide +kernel
theorem test_KeyEraseNowFrees : (keyed xts).binds = [] ∧ ((keyed xts).keySlot (keSlot (eraseReq 1).payload)).users = [] ∧
    ∀ q ∈ ([] : List Request), erases 255 q = false := ⟨rfl, by decide +kernel, nofun⟩
theorem test_KeyUserEnd :
    (Alive (st (keyed { xts with state := .erasing })) ∧
      ((keyed { xts with state := .erasing }).keySlot (255 : Fin 256).val).state = .erasing ∧
      ((keyed { xts with state := .erasing }).keySlot 255).users = [] ∧
      (keyed { xts with state := .erasing }).eraseHeld 255 = false) ∧
    (let v : KeyVer := { ver := 0, material := [] }
     let m := keyed { xts with retiring := some v }
     Alive (st m) ∧ (m.keySlot 255).state = .loaded ∧ (m.keySlot 255).retiring = some v ∧ (m.keySlot 255).usersOf (some v) = 0) := by
  delta Alive On; decide +kernel
theorem test_EraseHeld :
    let m := { keyed { xts with state := .erasing } with acting := [eraseReq 0], taken := [keyReq 1 1 []] }
    m.eraseHeld 255 = true := by decide +kernel

/-! ### Shards -/

/-- SHARD_ATTACH for context 0: operation, slot, source slot, range, source. -/
def shReq (op slot src loc len from' : Nat) : Request :=
  req .pf 0x40 96 (leBytes 1 op ++ leBytes 1 slot ++ leBytes 2 0 ++ leBytes 1 src ++ zeros 3 ++ leBytes 8 loc ++ leBytes 8 len ++
    leBytes 8 from')

/-- A near shard of context 0. -/
def nearShard (state : ShardState) (arrived : Bool) : Shard :=
  { ctx := 0, loc := 0x300000, len := 4096, digest := slice (Config.sha384 []) 0 48, state := state, move := none, failed := none,
    arrived := arrived, hashed := [], fn := .pf }

/-- A partition with context 0 and a shard in slot 1. -/
def sharded (state : ShardState) (arrived : Bool) : Partition :=
  { Partition.reset with ctxs := [(0, ctxWith [])], shards := [(1, nearShard state arrived)] }

theorem test_ShardFetchAndCopy :
    let m := (withPart (sharded .attached true)).mod
    let f := shReq 1 63 0 0x200000 4096 0
    let c := shReq 2 63 1 0x200000 4096 0
    (Turn (asked m f) f [] ∧ shOp f.payload = 1 ∧ m.shardFields f = none ∧ m.shardBad f = none) ∧
      Turn (asked m c) c [] ∧ shOp c.payload = 2 ∧ m.shardFields c = none ∧ m.shardBad c = none := by
  delta Turn On; decide +kernel
theorem test_ShardDetach :
    let m := (withPart (sharded .attached true)).mod
    let r := shReq 3 1 0 0 0 0
    Turn (asked m r) r [] ∧ shOp r.payload = 3 ∧ m.shardFields r = none ∧ m.shardBad r = none ∧ (m.part 0).scrub = none := by
  delta Turn On; decide +kernel
theorem test_ShardAttachDone : ∀ arrived : Bool,
    let x := { nearShard .pending arrived with failed := if arrived then none else some (stAborted, 0), move := some 2 }
    let s := withPart { sharded .attached true with shards := [(1, x), (2, nearShard .attached true)] }
    Live s ∧ (s.mod.part 0).underReset = false ∧
      ((s.mod.part 0).shards.find? fun e => e.2.state == .pending && (e.2.failed.isSome || e.2.arrived)) = some (1, x) ∧
      slice (Config.sha384 x.hashed) 0 48 = x.digest ∧ (∀ j, x.move = some j → j ≠ 1) := by
  intro arrived
  refine ⟨⟨rfl, rfl⟩, rfl, by cases arrived <;> rfl, rfl, ?_⟩
  intro j h; cases h; decide
theorem test_ShardDigestDiffers (d : List Byte) (h : slice (Config.sha384 []) 0 48 ≠ d) :
    slice (Config.sha384 ({ nearShard .pending true with digest := d } : Shard).hashed) 0 48 ≠
      ({ nearShard .pending true with digest := d } : Shard).digest := h
theorem test_ShardScrubPassStart :
    let s := withPart (sharded .attached true)
    Live s ∧ s.mod.exists? 0 = true ∧ (s.mod.part 0).underReset = false ∧ (s.mod.part 0).scrub = none := by
  delta Live On; decide +kernel
theorem test_ShardScrubHash :
    let s := withPart { sharded .attached true with scrub := some { slot := some 1 } }
    Live s ∧ (s.mod.part 0).underReset = false ∧ (s.mod.part 0).guarPresent = false ∧
      (s.mod.part 0).scrub = some { slot := some 1 } ∧ (s.mod.part 0).shard 1 = some (nearShard .attached true) :=
  ⟨by delta Live On; decide +kernel, rfl, rfl, rfl, rfl⟩
theorem test_ShardScrubFinds : (withPart (sharded .attached true)).mod.nextScrub 0 0 = some 1 ∧
    (withPart (sharded .attached true)).mod.nextScrub 0 2 = none := ⟨rfl, rfl⟩

/-- A landed raise of a queue. -/
def landed (q : Nat) (guar : Bool) (record : List Byte) : Raise :=
  { record := slice record 0 64, q := q, tLand := 0, guar := guar, eventMode := false, serial := 0, voided := none,
    noticed := false, met := false, waitMs := 0 }

/-- A context with a frame under handle 1 and landed raises in queue 0. -/
def queued (img : List Byte) (rs : List Raise) : Context :=
  { ctxWith img with queues := [(0, { landed := rs, taken := rs.length })] }

theorem test_ShardScrubStands :
    let s := withPart { sharded .attached true with scrub := some { slot := some 1 }, ctxs := [(0, queued [] [landed 0 true []])] }
    Alive s ∧ (s.mod.part 0).guarPresent = true ∧ (s.mod.part 0).scrub.isSome = true :=
  ⟨⟨rfl, by decide⟩, rfl, rfl⟩
theorem test_ScrubEnds : ((withPart (sharded .bad true)).mod.nextScrub 0 0) = none := rfl

/-! ### SPDM, IDE, the governor -/

/-- Version, capabilities and algorithms agreed on a port, and a session. -/
def agreed (session : Nat) : Mod :=
  { base with spdm := [(spdmPortIdx .doe, { Spdm.reset with version := true, caps := true, algs := true, session := session })] }

theorem test_Spdm : On (st base) ∧ base.spdmOpen .doe = true ∧ base.spdmOpen .mctp = true ∧
    (base.spdmAt .doe).session ≠ 2 ∧ (base.spdmAt .doe).agreed = false ∧ (base.spdmAt .mctp).version = false ∧
    Mod.reset.spdmOpen .doe = false := by delta On; decide +kernel
theorem test_SpdmAgreed : ∀ n : Fin 3, (agreed n.val).spdmOpen .doe = true ∧ ((agreed n.val).spdmAt .doe).agreed = true ∧
    ((agreed n.val).spdmAt .doe).session = n.val := by decide +kernel
theorem test_SpdmMeasurements :
    bit (fld [0, 0, 0] 2 1) 0 = false ∧ bit (fld [0, 0, 1] 2 1) 0 = true ∧ fld [0, 0, 0] 2 1 = 0 ∧ fld [0, 0, 1] 2 1 ≠ 0 := by
  decide +kernel
theorem test_IdeAct : ({ Ide.reset with key := [1] } : Ide).key ≠ [] := by decide +kernel
theorem test_Ide :
    let m := { base with spdm := [(spdmPortIdx .doe, { Spdm.reset with session := 2 })] }
    Linked (st m) ∧ (m.spdmAt .doe).session = 2 := by delta Linked On; decide +kernel

/-- The module at a thermal level. -/
def level (n : Nat) (flow : Nat) : State :=
  st { base with gov := { Governor.reset with level := n, readings := { Governor.reset.readings with flow := flow } } }

theorem test_Throttle :
    Alive (level 1 60) ∧ (760 : Int) ≤ 760 ∧ (759 : Int) < 760 ∧ (719 : Int) < 720 ∧ (720 : Int) ≤ 720 ∧
      (3 : Fin 4).val < (level 1 60).mod.gov.readings.die.length := by delta Alive On; decide +kernel
theorem test_Trip :
    On (level 1 60) ∧ (level 1 60).mod.gov.level < 2 ∧ ((840 : Int) ≤ 840 ∨ (400 : Int) < 0) ∧
      ((840 : Int) ≤ 0 ∨ (400 : Int) < 401) ∧ (839 : Int) < 840 ∧ (400 : Int) ≤ 400 := by delta On; decide +kernel
theorem test_LowFlow :
    Alive (level 0 29) ∧ (level 0 29).mod.gov.level < 2 ∧ (level 0 29).mod.gov.readings.flow < 30 ∧
      Alive (level 0 30) ∧ 30 ≤ (level 0 30).mod.gov.readings.flow := by delta Alive On; decide +kernel
theorem test_Shutdown :
    On (level 2 60) ∧ Alive (level 2 60) ∧ (level 2 60).mod.gov.level = 2 ∧ (level 2 60).mod.gov.level < 3 ∧
      (920 : Int) ≤ 920 ∧ (919 : Int) < 920 ∧ (level 1 60).mod.gov.level ≠ 2 := by delta Alive On; decide +kernel
theorem test_TripClear :
    Alive (level 2 60) ∧ 2 ≤ (level 2 60).mod.gov.level ∧ (759 : Int) < 760 ∧ (360 : Int) ≤ 360 ∧ 40 ≤ 40 ∧
      (39 < 40 ∨ (level 1 60).mod.gov.level < 2) := by delta Alive On; decide +kernel
theorem test_PwrSet :
    let r (w : Nat) := req .pf 0x80 8 (leBytes 4 w)
    (Turn (asked base (r 1000)) (r 1000) [] ∧ (r 1000).opcode = 0x80 ∧ fld (r 1000).payload 0 4 = 1000 ∧
      fld (r 1000).payload 4 4 = 0 ∧ base.allResvs = []) ∧
      Turn (asked base (r 999)) (r 999) [] ∧ fld (r 999).payload 0 4 < 1000 ∧
      Turn (asked base (r 3301)) (r 3301) [] ∧ 3300 < fld (r 3301).payload 0 4 ∧
      (let q := req .pf 0x80 8 (leBytes 4 3300 ++ [1])
       Turn (asked base q) q [] ∧ fld q.payload 0 4 = 3300 ∧ fld q.payload 4 4 ≠ 0) := by
  delta Turn On; decide +kernel

/-! ### Links -/

/-- A partner behind port 0, link layer 0: the opposite port's link. -/
def partner : LinkPartner :=
  { hash := 5, port := 1, ll := 0, coordValid := false, x := 0, y := 0, z := 0, lanes := 0xF }

/-- Link 0 trained with its live and standby lanes. -/
def trained (live standby : BitVec 4) : Link :=
  { Link.reset with partner := some partner, coordOk := true, live := live, standby := standby }

/-- The booted module with link 0 as `l`. -/
def withLink (l : Link) : Mod := { base with links := [(0, l)] }

theorem test_LinkTrain :
    On (st base) ∧ 4 ≤ base.boot.stage ∧ base.boot.stage ≤ 8 ∧ base.portRule 0 partner = true ∧ (base.link 0).partner = none ∧
      (base.link 0).live = 0 ∧ partner.lanes &&& ~~~(base.link 0).lostLanes ≠ 0 ∧ base.coordsKnown partner = false := by
  delta On; decide +kernel
theorem test_LinkTrainCoordinates :
    let m := { base with chip := [(offCoord, 0x80001000)] }
    let q (x : Fin 16) : LinkPartner := { partner with coordValid := true, x := x }
    m.portRule 0 (q 1) = true ∧ m.coordsKnown (q 1) = true ∧ m.coordRule 0 (q 1) = true ∧ m.coordRule 0 (q 0) = false ∧
      m.portRule 0 { partner with port := 0 } = false := by decide +kernel
theorem test_Lanes :
    let m := withLink (trained 0x7 0x8)
    Alive (st m) ∧ m.linkUp 0 = true ∧ (m.link 0).partner = some partner ∧ bit (m.link 0).live.toNat 2 = true ∧
      bit (m.link 0).live.toNat 3 = false ∧ bit (m.link 0).lostLanes.toNat 3 = false ∧ m.mayWiden 0 = true ∧
      base.mayWiden 0 = false := by
  delta Alive On; decide +kernel
theorem test_LaneHeld :
    let m := withLink { trained 0x7 0 with lostLanes := 0x8 }
    bit (m.link (0 : Fin 96).val).lostLanes.toNat (3 : Fin 4).val = true ∧ Linked (st m) := by delta Linked On; decide +kernel
theorem test_Widening :
    let m := withLink { trained 0x7 0x8 with widening := true }
    Alive (st m) ∧ (m.link 0).widening = true ∧ (base.link 0).widening = false ∧ base.linkUp 0 = false := by
  delta Alive On; decide +kernel
theorem test_LinkReplay :
    let m := withLink { trained 0xF 0 with replay := [({ seq := 0, path := 0, type := 1, body := [], crc := 0 }, 0)] }
    (Alive (st m) ∧ m.linkUp 0 = true ∧ (m.link 0).sendQ = [] ∧ (m.port (portOf 0)).waiting = [] ∧ m.bindOn 0 = none ∧
      (m.link 0).widening = false ∧ ∃ e ∈ (m.link 0).replay, [0#16].contains e.1.seq = true) ∧ base.linkUp 0 = false := by
  delta Alive On; decide +kernel

/-- A data frame on path 9 with its CRC. -/
def frameOf (body : List Byte) : LinkFrame :=
  { seq := 0, path := 9, type := 1, body := body, crc := BitVec.ofNat 32 (frameCrc 0 9 1 body) }

theorem frame_of_256_good (body : List Byte) (h : body.length = 256) : frameGood (frameOf body) = true := by
  simp [frameGood, frameOf, h]

theorem test_PayloadFrame :
    let m := withLink (trained 0xF 0)
    Alive (st m) ∧ (m.link 0).partner.isSome = true ∧ (m.link 0).coordOk = true ∧ bit (m.link 0).live.toNat 3 = true ∧
      frameGood (frameOf (zeros 256)) = true ∧
      (frameOf (zeros 256)).seq = (m.link 0).rxSeq ∧ (m.link 0).ahead = [] ∧
      m.pathDest 0 (frameOf (zeros 256)).path.toNat = .nowhere ∧
      frameGood (frameOf []) = false ∧ bit (base.link 0).live.toNat 3 = false := by
  refine ⟨by delta Alive On; decide +kernel, rfl, rfl, rfl, frame_of_256_good _ (by rw [zeros, List.length_replicate]), rfl, rfl, rfl,
    by decide +kernel, rfl⟩
theorem test_PayloadFrameSequences :
    (∀ s : Fin 2, let l := { trained 0xF 0 with rxSeq := BitVec.ofNat 16 (65535 - s.val) }
      0 < ((frameOf []).seq - l.rxSeq).toNat ∧ ((frameOf []).seq - l.rxSeq).toNat < 32768) ∧
      32768 ≤ ((frameOf []).seq - ({ trained 0xF 0 with rxSeq := 1 } : Link).rxSeq).toNat ∧
      32768 ≤ ((frameOf []).seq - ({ trained 0xF 0 with rxSeq := 32768 } : Link).rxSeq).toNat := by decide +kernel

/-- Path 9, an endpoint on link 0 of partition 0 for job 3. -/
def path9 : Path :=
  { job := 3, kind := 1, link := 0, outLink := 0, cls := 1, hops := 1, owner := 0, fibre := 0, peer := 0, txCount := 0
    rxCount := 0, credit := 65536, arms := [], msgs := [], early := [], tags := [], closed := false, fwdMsgs := [], passed := [] }

/-- Job 3 of partition 0, which holds link 0. -/
def job3 (grant : Option Request) : Job := { parts := 1, tenant := 7, keySlot := 255, links := [0], grant := grant }

/-- The booted module with link 0, path 9 and job 3. -/
def joined : Mod := { withLink (trained 0xF 0) with paths := [(9, path9)], jobs := [(3, job3 none)] }

theorem test_PathArrivals :
    Alive (st joined) ∧ joined.linkUp 0 = true ∧ joined.pathDest 0 (9#12).toNat = .endpoint path9 ∧ path9.arms = [] ∧
      path9.early = [] ∧ 0 < 512 ∧ 512 % 512 = 0 ∧ path9.msgs = [] ∧ Table.find (9#12).toNat joined.paths = some path9 := by
  delta Alive On; decide +kernel
theorem test_Transit :
    let p (passed : Table Nat) := { path9 with kind := pathTransit, outLink := 95, passed := passed }
    let m (passed : Table Nat) := { joined with paths := [(9, p passed)] }
    (m []).pathDest 0 (9#12).toNat = .forward 95 ∧ (m []).linkUp 0 = true ∧ (m []).pathDest 95 9 = .forward 0 ∧
      Table.find (65536 * 0 + (7#16).toNat) (p []).passed = none ∧
      Table.find (65536 * 0 + (7#16).toNat) (p [(7, 3)]).passed = some 3 := by decide +kernel
theorem test_PortArbiter :
    let f : OutFrame := { path := 9, part := 5, body := [], poison := false, msg := none, gtag := none, last := true, send := none, inbound := none }
    let m := { base with ports := [(7, { waiting := [f], holder := some 5, lastLink := 84 })] }
    arbBit (.port 7) = some 20 ∧ (m.port (7 : Fin 8).val).holder = some 5 ∧
      ((m.port 7).waiting.any fun f => f.part == 5) = true := by decide +kernel
theorem test_SequenceNumbers : (base.link 0).live = 0 := by decide +kernel

/-! ### Time -/

/-- The module with a time parent on link 0: enabled, root or not. -/
def timed (l : Link) (ctrl : Word) : State := st { withLink l with chip := [(offTimeCtrl, ctrl)] }

theorem test_TimeExchange :
    let s := timed (trained 0xF 0) 0x80000000
    (Alive s ∧ s.mod.timeEn = true ∧ s.mod.timeRoot = false ∧ s.mod.parentUsable s.mod.timeParent = true ∧
      s.mod.anyResv = false ∧ s.mod.linkUp 0 = true ∧ (s.mod.timeEn && s.mod.linkUp 1) = false) ∧
      (((16002 - 0 : Int) - (0 - 0)) / 2 - 0 = 8001 ∧ ((16000 - 0 : Int) - (0 - 0)) / 2 - 0 = 8000) := by
  delta Alive On; decide +kernel
theorem test_TimeRoot :
    let s := timed Link.reset 0xC0000000
    Linked s ∧ s.mod.timeRoot = true ∧ s.mod.anyResv = false ∧ base.timeRoot = false := by delta Linked On; decide +kernel
theorem test_TimeParentLoss :
    let s := timed Link.reset 0x80000000
    Alive s ∧ s.mod.timeEn = true ∧ s.mod.timeRoot = false ∧ s.mod.parentUsable s.mod.timeParent = false ∧
      s.mod.parentUsable s.mod.timeAlt = false := by delta Alive On; decide +kernel
theorem test_TimeParentReplaced :
    let l := trained 0xF 0
    let m := { base with links := [(0, l)], chip := [(offTimeCtrl, 0x80000001)] }
    m.parentUsable m.timeParent = false ∧ m.parentUsable m.timeAlt = true := by decide +kernel

/-! ### Jobs -/

/-- LINK_PATH_SET for job 3: a grant of path 9, or a release. -/
def grantReq : Request :=
  req .pf 0x50 48 (leBytes 4 1 ++ leBytes 4 3 ++ leBytes 8 1 ++ leBytes 2 255 ++ leBytes 2 1 ++ zeros 12 ++
    ([1, 0, 0, 1] ++ leBytes 2 9 ++ [1, 0]))
def releaseReq : Request := req .pf 0x50 32 (leBytes 4 2 ++ leBytes 4 3 ++ leBytes 8 0 ++ leBytes 2 255)

/-- The joined module with the key of its job in slot 255. -/
def joinedKeyed : Mod := { joined with keys := [(255, { xts with kind := 2 })] }

/-- The module with link 0 and a link key of tenant 7 in slot 255. -/
def linkReady : Mod := { withLink (trained 0xF 0) with keys := [(255, { xts with kind := 2 })] }

theorem test_LinkGrant : Turn (asked linkReady grantReq) grantReq [] ∧ grantReq.opcode = 0x50 ∧
    fld grantReq.payload 0 1 = 1 ∧ pathSetFields grantReq.payload = none ∧ linkReady.pathSetBad grantReq.payload = none := by
  delta Turn On; decide +kernel
theorem test_LinkGrantComplete :
    let m := { joined with jobs := [(3, job3 (some grantReq))] }
    Live (st m) ∧ Table.find (3#32).toNat m.jobs = some (job3 (some grantReq)) ∧
      (∀ n ∈ (job3 (some grantReq)).links, (m.link n).sendQ = []) ∧
      ∀ e ∈ pathEntries grantReq.payload, Table.find (entPath e) m.paths = some path9 := by delta Live On; decide +kernel
theorem test_LinkGrantWaits :
    let f : OutFrame := { path := 9, part := 0, body := [], poison := false, msg := none, gtag := none, last := true, send := none, inbound := none }
    let m := { joined with links := [(0, { trained 0xF 0 with sendQ := [f] })], paths := [(9, { path9 with kind := pathBest })] }
    0 ∈ (job3 (some grantReq)).links ∧ f ∈ (m.link 0).sendQ ∧ m.bestFrame f = true := by decide +kernel
theorem test_LinkRelease : Turn (asked joinedKeyed releaseReq) releaseReq [] ∧ fld releaseReq.payload 0 1 = 2 ∧
    pathSetFields releaseReq.payload = none ∧ joinedKeyed.pathSetBad releaseReq.payload = none := by
  delta Turn On; decide +kernel

/-! ### Sister bindings -/

/-- SISTER_BIND of binding 11 over S link 72 for partition 0, sequence 0. -/
def bindPayload (role mode : Nat) : List Byte :=
  leBytes 1 1 ++ leBytes 1 11 ++ leBytes 1 role ++ leBytes 1 mode ++ leBytes 2 9 ++ leBytes 2 255 ++ leBytes 8 1 ++
    leBytes 2 1 ++ [1, 0] ++ leBytes 4 6 ++ zeros 8
def bindReq (role mode : Nat) : Request := req .pf 0x51 32 (bindPayload role mode)

/-- The module with S link 72 trained and the link key of `linkReady`. -/
def sisterReady : Mod := { linkReady with links := [(72, trained 0xF 0)] }

/-- Binding 11 in a state. -/
def binding (role mode : Nat) (state : BindState) : Binding :=
  { state := state, payload := bindPayload role mode, cause := 0, tenant := 7, applied := 0, queue := [], lastPart := 0
    lastLink := 72, unacked := [(0, 1)], bindReq := none, settling := none }

/-- The module with binding 11 and its path. -/
def bound (x : Binding) : Mod :=
  { sisterReady with binds := [(11, x)], paths := [(9, { path9 with kind := pathSister, job := 0, link := 72 })] }

theorem test_SisterBind : ∀ role : Fin 2,
    Turn (asked sisterReady (bindReq role.val 0)) (bindReq role.val 0) [] ∧ (bindReq role.val 0).opcode = 0x51 ∧
      fld (bindReq role.val 0).payload 0 1 = 1 ∧ bindFields (bindReq role.val 0).payload = none ∧
      sisterReady.bindBad (bindReq role.val 0).payload = none := by delta Turn On; decide +kernel
theorem test_SisterUnbindAndTakeover : ∀ op : Fin 2,
    let r := req .pf 0x51 32 (leBytes 1 (2 + op.val) ++ [11])
    let x := binding 1 0 .orphaned
    Turn (asked (bound x) r) r [] ∧ fld r.payload 0 1 = 2 + op.val ∧ bindFields r.payload = none ∧
      Table.find (fld r.payload 1 1) (bound x).binds = some x ∧ (bound x).partsBusy x.parts = false ∧ x.standby = true ∧
      x.state = .orphaned := by delta Turn On; decide +kernel
theorem test_SisBindTimeout :
    let x := { binding 0 0 .pending with bindReq := some (bindReq 0 0) }
    Live (st (bound x)) ∧ Table.find (11 : Fin 12).val (bound x).binds = some x ∧ x.bindReq.isSome = true ∧
      (binding 0 0 .active).bindReq = none := by delta Live On; decide +kernel
theorem test_SisHeartbeats : ∀ role : Fin 2,
    let x := binding role.val 0 (if role.val = 1 then .waiting else .pending)
    Alive (st (bound x)) ∧ Table.find (11 : Fin 12).val (bound x).binds = some x ∧
      (Table.find x.pathId (bound x).paths).isSome = true ∧ 72 ∈ x.links ∧ (73 : Fin 96).val ∉ x.links ∧
      ((bound x).link 72).canSend = true ∧ (x.state = .waiting ∨ x.state = .pending) ∧ x.epoch = (6#32).toNat ∧
      x.epoch ≠ (7#32).toNat := by delta Alive On; decide +kernel
theorem test_SisStandby :
    let x := { binding 1 0 .active with settling := some 0 }
    Alive (st (bound x)) ∧ Table.find 11 (bound x).binds = some x ∧ x.standby = true ∧ x.epoch = (6#32).toNat ∧
      x.state = .active ∧ x.settling = some 0 ∧ (binding 1 0 .active).settling = none := by delta Alive On; decide +kernel
theorem test_SisPrimary :
    let x := binding 0 0 .active
    Alive (st (bound x)) ∧ x.state = .active ∧ x.standby = false ∧ (binding 0 0 .broken).state ≠ .active := by
  delta Alive On; decide +kernel
theorem test_SisAckLagged :
    let x := binding 0 1 .active
    Alive (st (bound x)) ∧ x.state = .active ∧ x.standby = false ∧ x.lagged = true ∧ Table.get 0 0 x.unacked ≠ 0 := by
  delta Alive On; decide +kernel
theorem test_SisAckAndTimeout :
    let x := binding 0 0 .active
    let w : MirrorWait := { ctx := 0, node := 0, member := 0, seq := 0, lc := 0, lt := 0, shadow := false, count := 0 }
    let m := { bound x with parts := (withPart { Partition.reset with mirrorWait := [w] }).mod.parts }
    Alive (st m) ∧ Table.find 11 m.binds = some x ∧ x.standby = false ∧ x.lagged = false ∧ bit x.parts 0 = true ∧
      (m.part 0).mirrorWait = [w] ∧ ((bound x).part 0).mirrorWait = [] := by delta Alive On; decide +kernel
theorem test_SisCommitUnbound : Alive (st base) ∧ Table.find (11 : Fin 12).val base.binds = none := by delta Alive On; decide +kernel
theorem test_SisCommitUnsealed :
    let x := binding 1 0 .active
    let r : SisterMsg := { len := 64, first := 0, segs := [{ body := [], tag := [], poison := true }] }
    x.standby = true ∧ x.state = .active ∧ (bound x).openSister x r = none := ⟨by decide +kernel, rfl, rfl⟩

/-- A COMMIT that leaves LC of sequence 0 at 0. -/
def commitMsg : List Byte := leBytes 1 1 ++ zeros 11 ++ leBytes 4 6 ++ zeros 48

/-- A sequence entry: valid, LC = LT. -/
def entry0 : List Byte := zeros 35 ++ [1]

/-- What is sealed opens. -/
theorem gcm_opens (key iv bs : List Byte) : gcmApply key iv (gcmApply key iv bs) = bs := by
  apply List.ext_getElem <;> simp [gcmApply]

/-- That COMMIT as it arrives, sealed. -/
def sealedCommit (m : Mod) (x : Binding) : SisterMsg :=
  let p := (Table.find x.pathId m.paths).getD path9
  let iv := gcmIv 0 x.pathId (!m.sendDir p) 3
  let body := gcmApply [] iv commitMsg
  { len := 64, first := 3, segs := [{ body := body, tag := Config.gcmTag [] iv body, poison := false }] }

theorem sealed_commit_opens (m : Mod) (x : Binding) (p : Path) (hp : Table.find x.pathId m.paths = some p)
    (hk : (m.keySlot x.keySlot).current = some { ver := 1, material := [] }) :
    m.openSister x (sealedCommit m x) = some commitMsg := by
  simp [Mod.openSister, sealedCommit, hp, hk, gcm_opens]
  decide +kernel

theorem test_SisCommitApply :
    let x := binding 1 0 .active
    let m := { bound x with parts := (withPart { Partition.reset with near := Cells.write [] 0 entry0 }).mod.parts }
    let en := m.readEntry 0 0 .clean
    Alive (st m) ∧ Table.find 11 m.binds = some x ∧ x.standby = true ∧ x.state = .active ∧
      m.openSister x (sealedCommit m x) = some commitMsg ∧ fld commitMsg 12 4 = x.epoch ∧
      fld commitMsg 1 1 = 0 ∧ fld commitMsg 2 2 = 0 ∧ x.mirrors 0 0 = true ∧
      en.2.1 = false ∧ (m.part 0).underReset = false ∧ applyOk en.1 commitMsg 64 = true ∧
      (en.2.2.applyPages 0 en.1 0 0 ⟨.clean, .clean, .clean⟩).1 = some ([], []) := by
  refine ⟨?_, rfl, by decide +kernel, rfl, ?_, ?_⟩
  · delta Alive On; decide +kernel
  · exact sealed_commit_opens _ _ _ rfl rfl
  · decide +kernel

/-! ### Raises -/

/-- A record that names frame `h`, with its flags. -/
def record (h flags : Nat) : List Byte := slice (leBytes 4 h ++ leBytes 2 flags) 0 64

/-- Partition 0 with the copy frame and some landed raises in context 0, both trusses in service. -/
def raising (rs : List Raise) : Partition :=
  { Partition.reset with regs := [(offTruss, 3)], ctxs := [(0, queued (image 3 0 copyBody) rs)] }

/-- The VF of partition 0 on a module with that partition. -/
def hosted (p : Partition) : State := st { linked with parts := (withPart p).mod.parts }

theorem test_RaiseLands : ∀ bad : Fin 2,
    let s := hosted (raising [])
    let r : Raise :=
      { record := record (1 + bad.val) 0, q := 3, tLand := s.mod.devtime, guar := false, eventMode := false, serial := 0, voided := none,
        noticed := false, met := false, waitMs := getF ((s.mod.part 0).reg offWdogCfg) 31 16 }
    Writes s (.vf 0) 0 ∧ ((s.mod.part 0).ctx 0).created = true ∧ r.record.length = 64 ∧
      (s.mod.part 0).resvOf 0 3 = none ∧ s.mod.shutStands = false ∧ (r.latch s.mod 0).waits = false ∧
      s.mod.landingBad 0 0 (r.latch s.mod 0) = (if bad.val = 0 then none else some (stBadField, 0)) := by delta Writes Linked On; decide +kernel
theorem test_RaiseLandsBound :
    let s := hosted { raising [] with resvs := [(0, resv)] }
    Writes s (.vf 0) 0 ∧ (s.mod.part 0).resvOf 0 0 = some (0, resv) ∧
      s.mod.landingBad 0 0 ((landed 0 true (slice (leBytes 8 1 ++ leBytes 8 2000000) 0 64)).latch s.mod 0) = none := by delta Writes Linked On; decide +kernel
theorem test_RecordOpen : 64 * (3 : Fin 4).val ≤ 192 ∧ 192 + 63 < 64 * (3 : Fin 4).val + 64 ∧
    ((hosted (raising [])).mod.part 0 |>.ctx 1).created = false := by decide +kernel
theorem test_GuarStarts :
    let r := landed 0 true (record 1 0)
    let s := withPart { raising [r] with resvs := [(0, resv)] }
    On s ∧ s.mod.schedules 0 = true ∧ (s.mod.part 0).guarHead = some { c := 0, q := 0, head := .landed r } ∧
      (s.mod.part 0).running = [] ∧ (s.mod.part 0).hold = none ∧
      ({ s.mod.part 0 with hold := none } : Partition).forStart.takeTruss { c := 0, q := 0, head := .landed r } = some 0 := by
  delta On; decide +kernel
theorem test_BestStarts :
    let r := landed 0 false (record 1 0)
    let s := withPart (raising [r])
    let x : Place := { c := 0, q := 0, head := .landed r }
    On s ∧ s.mod.schedules 0 = true ∧ (s.mod.part 0).guarHead = none ∧ (s.mod.part 0).running = [] ∧
      (s.mod.part 0).hold = none ∧ (∀ n : Fin 25, s.mod.draw.2.chooseBest 0 (600 + 50 * n.val) = some x) ∧
      s.mod.draw.2.opensWindow 0 0 r [] = false ∧ s.mod.governorHolds = false ∧ (s.mod.part 0).forStart.takeTruss x = some 0 := by
  delta On; decide +kernel
theorem test_GovernorHolds :
    let m := { base with gov := { Governor.reset with readings := { Governor.reset.readings with pin := 3300 }
                                                      samples := [3300] } }
    m.governorHolds = true := by decide +kernel
theorem test_NothingScheduled : (st Mod.reset).mod.schedules 0 = false ∧ ((st Mod.reset).mod.part 0).hold = none := by decide +kernel
theorem test_HoldEnds :
    let h : Hold := { ctx := 0, q := 0, since := 0, joined := [] }
    let s := withPart { raising [] with hold := some h }
    On s ∧ s.mod.schedules 0 = true ∧ (s.mod.part 0).guarHead = none ∧ (s.mod.part 0).hold = some h ∧
      s.mod.draw.2.holdLeader 0 h = none := by delta On; decide +kernel
theorem test_GatherWindow :
    let r := landed 0 false (record 1 0)
    let img := image 1 0 ([2, 2, 4, 1] ++ leBytes 2 1 ++ [2, 0] ++ leBytes 4 128 ++ leBytes 4 256 ++ zeros 12 ++ leBytes 4 1000)
    let h : Hold := { ctx := 0, q := 0, since := 0, joined := [] }
    let m := (withPart { raising [] with ctxs := [(0, queued img [r])], hold := some h }).mod
    m.draw.2.opensWindow 0 0 r [] = true ∧ m.draw.2.holdLeader 0 h = some r ∧ m.draw.2.governorHolds = false ∧
      (∀ n : Fin 25, m.draw.2.eligible 0 (600 + 50 * n.val) { c := 0, q := 0, head := .landed r } = true) ∧
      ({ m.part 0 with hold := none } : Partition).forStart.takeTruss { c := 0, q := 0, head := .landed r } = some 0 := by decide +kernel
theorem test_RunBegins :
    let r := landed 0 false (record 1 0)
    let m := (withPart (raising [])).mod
    let img := ((m.part 0).ctx 0).frameImage r.frame
    img = image 3 0 copyBody ∧ m.badLinkNode 0 none img = none ∧ (List.range (frameNodes img)).all (fun i => nodeUnit img i != 4) = true := by
  decide +kernel

theorem test_RunForms : ({ Forming.empty with members := [{ raise := landed 0 false [], pegs := [] }] } : Forming).members =
    [{ raise := landed 0 false [], pegs := [] }] := rfl

/-- A member with a peg, and a run of it whose node 0 is in a phase. -/
def member (guar : Bool) (pegs : List Dword) : Member := { raise := landed 0 guar (record 1 0), pegs := pegs }
def runOf (guar : Bool) (phase : NodePhase) : Run :=
  { frame := 1, guar := guar, truss := 0, members := [member guar [0x200000]], nodes := [(0, phase)], ending := none, abort := false
    mhz := 1800, tStart := 0
    kv := [{ peg := 0, member := 0, seq := 0, lt0 := 0, base := some 0, pages := [(0, 0x500000)], shadows := [] }]
    bar2 := 0, retreed := [], sent := [], received := [], lts := [], globs := [], watch := [], beside := []
    recs := [(0, (leBytes 1 1 ++ zeros 447, leBytes 1 1 ++ zeros 11 ++ [1] ++ zeros 435))] }

/-- A run stopped at a node boundary. -/
def stopped (guar : Bool) : Run := { runOf guar .running with nodes := [] }

/-- The partition on which a run of a one-node frame runs. -/
def running (img : List Byte) (u : Run) : Partition :=
  { Partition.reset with regs := [(offTruss, 3)], ctxs := [(0, { ctxWith img with run := some u })] }

/-- The module with such a partition, link 0, path 9, job 3 and its key. -/
def atWork (img : List Byte) (u : Run) : State :=
  st { joined with parts := (withPart (running img u)).mod.parts, keys := [(255, { xts with kind := 2 })] }

theorem test_NodeStart :
    let s := atWork (image 3 0 copyBody) { runOf false .running with nodes := [] }
    On s ∧ s.mod.schedules 0 = true ∧ s.mod.mayStart 0 0 0 0 = true ∧ s.mod.mayStart 0 0 1 0 = false := by delta On; decide +kernel
theorem test_StoppedRuns : ∀ guar : Bool,
    let x := { ctxWith (image 3 0 copyBody) with parked := [(0, stopped guar)] }
    let s := withPart { Partition.reset with regs := [(offTruss, 3)], ctxs := [(0, x)], resvs := if guar then [(0, resv)] else [] }
    let h : Place := { c := 0, q := 0, head := .parked (stopped guar) }
    s.mod.schedules 0 = true ∧ (s.mod.part 0).running = [] ∧ (s.mod.part 0).guarHead = (if guar then some h else none) ∧
      (guar = false → ∀ n : Fin 25, s.mod.draw.2.chooseBest 0 (600 + 50 * n.val) = some h) ∧
      (s.mod.part 0).forStart.takeTruss h = some 0 := by decide +kernel
theorem test_NodeComplete :
    let s := atWork (image 3 0 copyBody) (runOf false .worked)
    Live s ∧ (s.mod.part 0).underReset = false ∧ ((s.mod.part 0).ctx 0).run = some (runOf false .worked) ∧
      (runOf false .worked).phase 0 0 = some .worked ∧ (runOf false .worked).phase 1 0 ≠ some .worked ∧
      nodeUnit (((s.mod.part 0).ctx 0).image (runOf false .worked)) 0 ≠ 4 := by delta Live On; decide +kernel
theorem test_SendComplete :
    let s := atWork (image 4 0 [0, 1, 0, 0]) (runOf false .worked)
    s.mod.sendLeft 0 (runOf false .worked) 0 0 = true := by decide +kernel
theorem test_RaiseComplete :
    let s := atWork (image 3 0 copyBody) (runOf false .done)
    Live s ∧ (s.mod.part 0).underReset = false ∧ ((s.mod.part 0).ctx 0).finishedRun = some (runOf false .done) ∧
      (member false []).raise.sigEn = false ∧ (member false []).raise.q < 4 := by delta Live On; decide +kernel

/-! ### Rings and events -/

theorem test_RingFull :
    ((withPart (raising [])).mod.part 0).cplDepth 0 < 256 ∧
      256 ≤ ((withPart { raising [] with regs := [(offCplPtr 0, 256)] }).mod.part 0).cplDepth 0 := by decide +kernel
theorem test_CplRdWrite :
    let s := hosted { raising [] with regs := [(offCplPtr 0, 2)] }
    Writes s (.vf 0) 0 ∧ ((s.mod.part 0).ctx 0).created = true ∧
      (getF 0x20000 24 16 + 512 - (s.mod.part 0).cplRd 0) % 512 ≤ (s.mod.part 0).cplDepth 0 := by
  delta Writes Linked On; decide +kernel
theorem test_RingHolds :
    ((withPart { raising [] with ctxs := [(0, { ctxWith [] with held := [([1], false), ([2], false), ([3], false), ([4], false)] })] }).mod.part 0
      |>.ctx 0).held.length = 4 ∧ ((withPart (raising [])).mod.part 0).cplDepth 0 < (getF 0x10000 24 16 + 512 - 0) % 512 := by decide +kernel
theorem test_CplRetry :
    let s := withPart { Partition.reset with ctxs := [(0, { ctxWith [] with held := [([1], false)] })] }
    Alive s ∧ ((s.mod.part 0).ctx 0).held = [([1], false)] ∧ (s.mod.part 0).cplDepth 0 < 256 ∧
      ((s.mod.part 0).ctx 1).held = [] := by delta Alive On; decide +kernel
theorem test_Notices :
    let s := hosted { Partition.reset with regs := [(offNoticePtr, 1), (offSuspend, 8)], notices := [[1]] }
    Writes s (.vf 0) 0 ∧ (getF 0x10000 22 16 + 128 - (s.mod.part 0).noticeRd) % 128 ≤ (s.mod.part 0).noticeDepth ∧ Live s ∧
      (s.mod.part 0).notices = [[1]] ∧ (s.mod.part 0).noticeDepth < 64 ∧ getB ((s.mod.part 0).reg offSuspend) 3 = true := by
  delta Writes Live Linked On; decide +kernel
theorem test_NoticesFull : 64 ≤ ((withPart { Partition.reset with regs := [(offNoticePtr, 64)] }).mod.part 0).noticeDepth ∧
    ((withPart Partition.reset).mod.part 0).noticeDepth < (getF 0x10000 22 16 + 128 - 0) % 128 ∧
    getB (((withPart Partition.reset).mod.part 0).reg offSuspend) 3 = false := by decide +kernel
theorem test_SignalsOfOneInstant :
    let m := (withPart { Partition.reset with events := [(5, 7)] }).mod
    (m.part 0).created = true ∧ (m.part 0).event 5 = 7 ∧
      (∃ x ∈ [({ part := 0, event := 5, value := 9 } : Signal), { part := 0, event := 5, value := 8 }],
        x.part = 0 ∧ (m.part 0).event x.event < x.value ∧ x.value < 2 ^ 64) ∧ (7 : Nat) ≤ (m.part 0).event 5 := by decide +kernel
theorem test_WaitMet :
    let r := landed 0 false (slice (zeros 4 ++ [1]) 0 64)
    let m := (withPart Partition.reset).mod
    m.sameTenant 0 r.waitPart = true ∧ r.waitVal ≤ (m.part r.waitPart).event r.waitEvt := by decide +kernel
theorem test_EventUnseen :
    let s := hosted Partition.reset
    (s.mod.writable (.vf 0) 1 && s.mod.seesEvent (.vf 0) 1 0) = false := by decide +kernel
theorem test_EventHostWrite : ∀ arm : Fin 2,
    let s := hosted { Partition.reset with regs := [(offEvtCtrl, BitVec.ofNat 32 arm.val)] }
    Writes s (.vf 0) 0 ∧ s.mod.seesEvent (.vf 0) 0 524280 = true ∧ (zeros 8).length = 8 ∧ 524280 % 8 = 0 ∧
      getB ((s.mod.part 0).reg offEvtCtrl) 0 = (arm.val == 1) ∧ ¬ ((zeros 4).length = 8 ∧ 524284 % 8 = 0) := by
  delta Writes Linked On; decide +kernel

/-! ### Array and vector nodes -/

/-- A truss whose WS word 0 and AS word 0 have bad codes. -/
def spoiled : Truss := { Truss.reset with wsBad := [0], asBad := [0] }

/-- An array pass of one BF16 tile, and an addition of one row of two columns. -/
def passBody : List Byte := [2, 2, 0, 1] ++ leBytes 2 1 ++ [1, 0] ++ leBytes 4 128 ++ leBytes 4 256 ++ zeros 16
def vecBody (op : Nat) : List Byte :=
  leBytes 1 op ++ [0, 0, 2] ++ leBytes 4 1 ++ leBytes 4 2 ++ zeros 20 ++ (leBytes 2 8 ++ [1] ++ zeros 13) ++
    (leBytes 2 0 ++ [1] ++ zeros 13) ++ (leBytes 2 0 ++ [1] ++ zeros 13)

/-- Work that finds nothing. -/
def work (i : Nat) : UnitWork := { index := i, finds := [] }

theorem test_ArrayPass : ∀ bad : Fin 2,
    let img := image 1 0 passBody
    let u := runOf false .running
    let s := withPart { running img u with trusses := if bad.val = 0 then [] else [(0, spoiled)] }
    Runs s 0 0 (work 0).index 0 u img (member false [0x200000]) ∧ u.firstRunning 0 = some 0 ∧ nodeUnit img 0 = 1 ∧
      u.beside.contains 0 = false ∧ u.phys img (nodeTruss img 0) = 0 ∧
      ((parseArray (nodeBody img 0)).footprint 1).bad ((s.mod.part 0).truss 0) = (bad.val == 1) := by
  delta Runs On; decide +kernel
theorem test_VectorOp : ∀ bad : Fin 2,
    let img := image 2 0 (vecBody 0x1B)
    let s := withPart { running img (runOf false .running) with trusses := if bad.val = 0 then [] else [(0, spoiled)] }
    Runs s 0 0 0 (work 0).index (runOf false .running) img (member false [0x200000]) ∧ nodeUnit img 0 = 2 ∧
      (parseVec (nodeBody img 0)).op = 0x1B ∧ (parseVec (nodeBody img 0)).op ≠ 0x01 ∧
      ((parseVec (nodeBody img 0)).footprint 0).bad ((s.mod.part 0).truss 0) = (bad.val == 1) := by delta Runs On; decide +kernel
theorem test_WordFinds :
    let f := (parseArray passBody).footprint 1
    f.meets 0 0 = true ∧ f.meets 2 0 = false ∧ (Truss.reset.bad 0).contains 0 = false := by decide +kernel
theorem test_GroupValue :
    FNum.nan ∈ [FNum.nan] ∧ (FNum.inf true ∈ [.inf true, .inf false] ∧ FNum.inf false ∈ [FNum.inf true, .inf false]) ∧
      (FNum.inf true ∈ [FNum.inf true] ∧ FNum.inf (!true) ∉ [FNum.inf true] ∧ FNum.nan ∉ [FNum.inf true]) ∧
      ∀ x ∈ [FNum.fin true 0 0], ∃ g a e, x = .fin g a e := by
  refine ⟨by decide +kernel, by decide +kernel, by decide +kernel, fun x h => ?_⟩
  rw [List.mem_singleton.mp h]; exact ⟨true, 0, 0, rfl⟩

/-! ### The DMA engine -/

/-- The copy as a descriptor of the host, with its channel's queue. -/
def copyDesc : Desc := literalDesc .host copyBody
def moving (d : Desc) : Partition := { Partition.reset with chans := [(15, { Channel.reset with queue := [d] })] }

theorem test_DmaTransfer :
    let img := image 3 15 copyBody
    let s := withPart (running img (runOf false .running))
    Runs s 0 0 0 0 (runOf false .running) img (member false [0x200000]) ∧ nodeUnit img 0 = 3 ∧
      (s.mod.part 0).hasDesc 0 0 0 = false ∧ getB ((s.mod.part 0).reg (offChCtrl (nodePrio img 0 % 16))) 0 = false ∧
      ((s.mod.part 0).chan (nodePrio img 0 % 16)).waiting = [] := by delta Runs On; decide +kernel
theorem test_DmaNodeDisabled :
    getB (({ running (image 3 15 copyBody) (runOf false .running) with regs := [(offChCtrl 15, 1)] } : Partition).reg
      (offChCtrl (nodePrio (image 3 15 copyBody) 0 % 16))) 0 = true := by decide +kernel
theorem test_DescRetry : ∀ page : Fin 2,
    let g : PageDesc := { loc := 0, mask := [], slot := 0, idx := 0, seq := 0, last := false, zero := true, write := false, shadow := none, lt := 0 }
    let d := { copyDesc with job := if page.val = 0 then .sides else .page g }
    let s := withPart { Partition.reset with chans := [(15, { Channel.reset with queue := List.replicate 15 copyDesc, waiting := [d] })] }
    Alive s ∧ (s.mod.part 0).underReset = false ∧ (d.job = .sides ↔ page.val = 0) ∧
      ((s.mod.part 0).chan 15).waiting = [d] ∧ ((s.mod.part 0).chan 15).queue.length < 16 := by delta Alive On; decide +kernel
theorem test_DescHostPush :
    Writes (hosted (moving copyDesc)) (.vf 0) 0 ∧ hostDescOk copyBody = true ∧ hostDescOk (zeros 32) = false ∧
      getB (((hosted (moving copyDesc)).mod.part 0).reg (offChCtrl 15)) 0 = false ∧
      (((hosted (moving copyDesc)).mod.part 0).chan 15).queue.length < 16 := by delta Writes Linked On; decide +kernel
theorem test_DescHostPush_full :
    let s := hosted { Partition.reset with chans := [(15, { Channel.reset with queue := List.replicate 16 copyDesc })] }
    Writes s (.vf 0) 0 ∧ 16 ≤ ((s.mod.part 0).chan 15).queue.length := by delta Writes Linked On; decide +kernel
theorem test_DmaUnit :
    let s := withPart (moving copyDesc)
    let r := (s.mod.latchKey 0 15 copyDesc).moveUnit 0 15 copyDesc 0 UnitEcc.clean
    On s ∧ ((s.mod.part 0).chan 15).queue.head? = some copyDesc ∧ s.mod.unitMoves 0 15 = true ∧ copyDesc.job = .sides ∧
      s.mod.sidesOk 0 15 copyDesc 0 = true ∧ copyDesc.window = none ∧ copyDesc.srcKind ≠ 3 ∧
      s.mod.unitLen copyDesc 0 = 512 ∧ r.1 = false ∧ r.2.1 = none := by delta On; decide +kernel
theorem test_DmaUnitOfAScratchpad : ∀ bad : Fin 2,
    let d := { copyDesc with srcKind := 1, src := 0 }
    let s := withPart { moving d with trusses := if bad.val = 0 then [] else [(0, spoiled)] }
    ((s.mod.part 0).chan 15).queue.head? = some d ∧ s.mod.unitMoves 0 15 = true ∧ d.job = .sides ∧ d.dstKind = 0 ∧
      compressed d.dst = false ∧ isExt (addrLoc d.dst) = false ∧ s.mod.sidesOk 0 15 d 0 = true ∧
      ((s.mod.part 0).truss (locTruss d.src)).readBad (locStore d.src) 0 (s.mod.unitLen d 0) = (bad.val == 1) ∧
      (s.mod.moveUnit 0 15 d 0 UnitEcc.clean).1 = (bad.val == 1) := by decide +kernel

/-- A descriptor to row 0 of window 0 of partition 1, and both partitions with the window open for writes of partition 0. -/
def winDesc : Desc := { copyDesc with dstKind := 2, dst := 1 }
def windowed : State :=
  st { base with parts := (withPart (moving winDesc)).mod.parts ++
    [(1, { Partition.reset with created := true, tenant := 7, regs := [(offWinCtrl 0, 0x80808000), (offWinRange 0, 0x10000)] })] }

theorem test_WindowUnit :
    On windowed ∧ ((windowed.mod.part 0).chan 15).queue.head? = some winDesc ∧ windowed.mod.issuesNext 0 15 = true ∧
      winDesc.window.isSome = true ∧ winDesc.crosses 0 = none ∧ windowed.mod.sidesOk 0 15 winDesc 0 = true ∧
      windowed.mod.winAccepts 0 winDesc ((windowed.mod.part 0).ofGuar winDesc) 0 (windowed.mod.unitBytes winDesc) = true := by
  delta On; decide +kernel

/-- The same to a window of partition 16, on the next bay, with the path's arbiter held by another channel. -/
def farDesc : Desc := { copyDesc with dstKind := 2, dst := 16 }
def crossing : State :=
  let h : Channel := { Channel.reset with queue := [farDesc] }
  st { base with holders := [(1, (0, 14))],
                 parts := [(0, { Partition.reset with created := true, tenant := 7, chans := [(14, h), (15, h)] }),
    (16, { Partition.reset with created := true, tenant := 7, regs := [(offWinCtrl 0, 0x80808000), (offWinRange 0, 0x10000)] })] }

theorem test_FabricArbiter :
    farDesc.crosses 0 = some 1 ∧ arbBit (.fabric 0 1) = some 1 ∧ Table.find (4 * 0 + 1) crossing.mod.holders = some (0, 14) ∧
      crossing.mod.asksPath 1 0 14 = true ∧ crossing.mod.issuesNext 0 14 = true ∧
      crossing.mod.winAccepts 0 farDesc ((crossing.mod.part 0).ofGuar farDesc) 0 (crossing.mod.unitBytes farDesc) = true ∧
      crossing.mod.winAccepts 0 farDesc true 0 512 = false := by decide +kernel
theorem test_BusError : ∀ valid : Fin 2,
    let d := { copyDesc with src := 32 }
    let s := withPart { moving d with regs := [(offDmaErr, BitVec.ofNat 32 (valid.val * 2 ^ 31))] }
    On s ∧ ((s.mod.part 0).chan 15).queue.head? = some d ∧ d.owner = .host ∧ s.mod.serves 0 15 = true ∧
      s.mod.errorStands 0 15 3 d = true ∧ s.mod.errorStands 0 15 1 d = false ∧ getB ((s.mod.part 0).reg offDmaErr) 31 = (valid.val == 1) := by
  delta On; decide +kernel
theorem test_BusErrorCut :
    let h : Channel := { Channel.reset with cut := some (100000, 0, true) }
    let s := withPart { Partition.reset with chans := [(15, h)] }
    Live s ∧ (s.mod.part 0).underReset = false ∧ ((s.mod.part 0).chan 15).queue = [] ∧
      ((s.mod.part 0).chan 15).cut = some (s.mod.devtime, 0, true) ∧ 1 ≤ (4 : Fin 5).val ∧ s.mod.paths = [] := by
  delta Live On; decide +kernel
theorem test_ChannelDisable :
    let s := hosted (moving copyDesc)
    Writes s (.vf 0) 0 ∧ getB ((s.mod.part 0).reg (offChCtrl 15)) 0 = false ∧
      (∀ d ∈ ((s.mod.part 0).chan 15).queue ++ ((s.mod.part 0).chan 15).waiting, d.owner = .host) ∧
      ((s.mod.part 0).chan 15).queue ≠ [] ∧ (s.mod.part 0).underReset = false := by delta Writes Linked On; decide +kernel
theorem test_Windows :
    let s := hosted Partition.reset
    let t := hosted { Partition.reset with regs := [(offWinCtrl 15, 0xC0000000)] }
    (Writes s (.vf 0) 0 ∧ getB 0x20000000 29 = true ∧ getB 0x20000000 30 = false ∧ winOpen ((s.mod.part 0).win 15) = false) ∧
      (Writes t (.vf 0) 0 ∧ getB 0x40000000 30 = true ∧ winOpen ((t.mod.part 0).win 15) = true) ∧
      Alive t ∧ getB ((t.mod.part 0).win 15) 30 = true ∧ t.mod.winBusy 0 15 = false := by
  delta Writes Alive Linked On; decide +kernel
theorem test_WindowBusy :
    let h : Channel := { Channel.reset with queue := [winDesc], winOk := true }
    (withPart { Partition.reset with chans := [(15, h)] }).mod.winBusy 1 0 = true := by decide +kernel

/-! ### Memory and the host's apertures -/

theorem test_Bar2 :
    let s := hosted Partition.reset
    let off : BitVec 32 := 0x5FFFFFFF
    let data : List Byte := [1]
    Linked s ∧ s.mod.bar2Open 0 = true ∧ 0 < data.length ∧ data.length ≤ 64 ∧ off.toNat + data.length ≤ nearEnd ∧
      off.toNat / 64 = (off.toNat + data.length - 1) / 64 ∧ (s.mod.part 0).poisoned (off.toNat / 64) = false ∧
      (s.mod.part 0).shards = [] ∧ (s.mod.part 0).ctxs = [] := by delta Linked On; decide +kernel
theorem test_HostAperture :
    let s := hosted Partition.reset
    let p := s.mod.part 0
    Linked s ∧ s.mod.bar2Open 0 = true ∧ p.selStore ≠ 3 ∧ 511 % rowBytes p.selStore + 1 ≤ rowBytes p.selStore ∧
      p.selRow + 511 / rowBytes p.selStore < storeRows p.selStore ∧
      (p.truss p.selTruss).readBad p.selStore (p.selRow * rowBytes p.selStore + 511) 1 = false ∧
      507 % rowBytes p.selStore + 1 ≤ rowBytes p.selStore - 4 ∧ p.gather = none ∧ p.apQueue = [] ∧
      p.apFree p.selStore p.selTruss = true ∧ 504 % rowBytes p.selStore = rowBytes p.selStore - 8 ∧ (zeros 8).length = 8 ∧
      Writes s (.vf 0) 0 := by
  delta Writes Linked On; decide +kernel
theorem test_ApertureWaits :
    let p := { Partition.reset with regs := [(offWinCtrl 0, 0x82000000)] }
    p.apFree p.selStore p.selTruss = false := by decide +kernel
theorem test_PatrolScrub :
    let s := withPart Partition.reset
    On s ∧ scrubLoc false 25165823 = some 0x5FFFFFC0 ∧ scrubLoc true 0 = some extStart ∧ s.mod.boot.extTrained = true ∧
      s.mod.boot.nearTrained = true ∧ (s.mod.part 0).poisoned (0x5FFFFFC0 / 64) = false ∧
      (s.mod.part 0).poisoned (extStart / 64) = false := by delta On; decide +kernel
theorem test_CmpRegion : ∀ on : Fin 2,
    let s := hosted { Partition.reset with regs := [(offCmpCtrl 15, BitVec.ofNat 32 (on.val * 0xC0000000))] }
    Writes s (.vf 0) 0 ∧ getB (0x40000000 : Word) 30 = true ∧ getB (0 : Word) 30 = false ∧
      (s.mod.part 0).cmpEn 15 = (on.val == 1) := by delta Writes Linked On; decide +kernel

/-! ### Key-value cache and speculation -/

/-- A sequence entry: LC, LT, pages, with or without shadow pages, of 128 values of format 2. -/
def seqEntry (lc lt pages : Nat) (shadow : Bool) : List Byte :=
  leBytes 8 64 ++ leBytes 4 lc ++ leBytes 4 lt ++ leBytes 4 0 ++ leBytes 4 pages ++ leBytes 8 (if shadow then 128 else 0) ++
    leBytes 2 128 ++ [2, if shadow then 3 else 1]

/-- A one-node frame at work on a partition with a sequence entry. -/
def walking (img : List Byte) (u : Run) (entry : List Byte) : State :=
  withPart { running img u with near := Cells.write [] 0 entry }

/-- A READ of a window of 64, and an APPEND of one token, of 128 values of 2 bytes; the APPEND with or without COMMIT. -/
def readBody : List Byte := [1, 0, 1, 0] ++ leBytes 2 128 ++ leBytes 2 1 ++ leBytes 4 64 ++ zeros 20
def appendBody (flags : Nat) : List Byte := [2, 0, 1] ++ leBytes 1 flags ++ leBytes 2 128 ++ zeros 8 ++ leBytes 2 1 ++ zeros 16

theorem test_KvRead : ∀ page : Fin 2,
    let img := image 5 0 readBody
    let x : KvUse := { peg := 0, member := 0, seq := 0, lt0 := 0, base := some 0, shadows := []
                       pages := if page.val = 1 then [(0, 0x500001)] else [] }
    let u := { runOf false .running with kv := [x] }
    let s := walking img u (seqEntry 0 1 1 false)
    let r := s.mod.readEntry 0 x.seq .clean
    Runs s 0 0 0 0 u img (member false [0x200000]) ∧ nodeUnit img 0 = 5 ∧ kvOp (nodeBody img 0) = 1 ∧
      (s.mod.part 0).hasDesc 0 0 0 = false ∧ u.kvUse (kvPeg (nodeBody img 0)) 0 = some x ∧ ChannelOn s 0 0 img ∧
      r.2.1 = false ∧ x.find r.1 false (kvPages (kvWin (nodeBody img 0)) [] r.1.lt) =
        (if page.val = 1 then ([0x500000], none) else ([], some .absent)) := by delta ChannelOn Runs On; decide +kernel
theorem test_EntryLost : ((walking [] (runOf false .running) []).mod.readEntry 0 0 .uncorrectable).2.1 = true := by decide +kernel
theorem test_KvAppend : ∀ page : Fin 2,
    let img := image 5 0 (appendBody 8)
    let x : KvUse := { peg := 0, member := 0, seq := 0, lt0 := 0, base := some 0, shadows := [(0, 0x100000001)]
                       pages := if page.val = 1 then [(0, 0x500001)] else [] }
    let u := { runOf false .running with kv := [x] }
    let s := walking img u (seqEntry 0 0 1 true)
    let b := nodeBody img 0
    let r := s.mod.readEntry 0 x.seq .clean
    Runs s 0 0 0 0 u img (member false [0x200000]) ∧ nodeUnit img 0 = 5 ∧ kvOp b = 2 ∧
      (s.mod.part 0).hasDesc 0 0 0 = false ∧ (s.mod.part 0).mirrorWait = [] ∧ u.kvUse (kvPeg b) 0 = some x ∧
      kvFlag b 3 = true ∧ r.1.shadow = true ∧ r.1.lt ≤ r.1.lc ∧ r.2.1 = false ∧ r.1.lt + kvApp b ≤ 64 * r.1.pages ∧
      ChannelOn s 0 0 img ∧ x.find r.1 true (pageRange r.1.lt (r.1.lt + kvApp b)) = ([0x100000000], none) ∧
      x.find r.1 false (pageRange r.1.lt (r.1.lt + kvApp b)) =
        (if page.val = 1 then ([0x500000], none) else ([], some .absent)) := by delta ChannelOn Runs On; decide +kernel
theorem test_KvAppendRefused :
    let e (lc lt pages : Nat) : SeqEntry := { raw := seqEntry lc lt pages false }
    kvFlag (appendBody 8) 3 = true ∧ (e 0 1 1).lc < (e 0 1 1).lt ∧ kvFlag (appendBody 0) 3 = false ∧
      64 * (e 64 64 1).pages < (e 64 64 1).lt + kvApp (appendBody 8) := by decide +kernel

/-- A speculation body: operation, NMAX 1, its reference the node itself. -/
def specBody (op : Nat) : List Byte := leBytes 1 op ++ [0, 1, 0] ++ leBytes 2 128 ++ [1] ++ zeros 25

/-- A run of a speculation node with its sequence's pages, and with records of an acceptance of one token and its guess. -/
def specRun (recs : List Byte × List Byte) : Run :=
  { runOf false .running with
    kv := [{ peg := 0, member := 0, seq := 0, lt0 := 0, base := some 0, pages := [(0, 0x500001)], shadows := [(0, 0x100000001)] }]
    recs := [(0, recs)] }
def tokenRec (base : Nat) : List Byte := leBytes 1 1 ++ zeros 11 ++ leBytes 1 base ++ zeros 435

theorem test_SpecMaskAndAccept : ∀ op : Fin 2,
    let img := image 6 0 (specBody (1 + op.val))
    let u := specRun ([], [])
    let s := walking img u (seqEntry 0 1 1 false)
    Acts s 0 0 0 0 (1 + op.val) u img (member false [0x200000]) ∧ ChannelOn s 0 0 img := by
  delta ChannelOn Acts Runs On; decide +kernel
theorem test_SpecChannelOff :
    let img := image 6 0 (specBody 1)
    let s := withPart { running img (specRun ([], [])) with regs := [(offTruss, 3), (offChCtrl 0, 1)] }
    Acts s 0 0 0 0 1 (specRun ([], [])) img (member false [0x200000]) ∧ ¬ ChannelOn s 0 0 img := by
  delta ChannelOn Acts Runs On; decide +kernel

/-- A lane's descriptor at the head of channel 0, so many bytes of it written. -/
def laneAt (op : Nat) (d : Desc) (written : Nat) : State :=
  withPart { running (image 6 0 (specBody op)) (specRun ([], [])) with
    chans := [(0, { Channel.reset with queue := [d], written := written })] }

theorem test_MaskUnit :
    let img := image 6 0 (specBody 1)
    let u := specRun ([], [])
    let d := laneDesc 0 0 0 0 1 0x200000 (ownLoc 1 0 0) 512 .mask
    let s := laneAt 1 d 0
    let mb := member false [0x200000]
    LaneUnit s 0 0 0 0 0 0 d u img mb ∧ d.job = .mask ∧ (u.kvUse (specPeg (nodeBody img 0)) 0).isSome = true ∧
      ((s.mod.latchKey 0 0 d).unitRec 0 0 mb (specTree (nodeBody img 0)) .clean).2.1 = false := by
  delta LaneUnit On; decide +kernel
theorem test_MaskPlace : 511 < 512 ∧ 0 < 1 := by decide +kernel
theorem test_AcceptUnits : ∀ second : Fin 2,
    let img := image 6 0 (specBody 2)
    let d := laneDesc 0 0 0 1 0 (ownLoc 1 0 0) 0x200000 1024 .accept
    let s := laneAt 2 d (512 * second.val)
    let mb := member false [0x200000]
    let tr := (s.mod.latchKey 0 0 d).unitRec 0 0 mb (specTree (nodeBody img 0)) .clean
    LaneUnit s 0 0 0 0 0 (512 * second.val) d (specRun ([], [])) img mb ∧ d.job = .accept ∧ d.len = 1024 ∧ tr.2.1 = false ∧
      (tr.2.2.scratchRead 0 0 (specStore (nodeBody img 0)) 0 (8 * treeN tr.1) .clean).1.err = false := by
  intro second; fin_cases second <;> delta LaneUnit On <;> exact ⟨by decide +kernel, rfl, rfl, by decide +kernel⟩
theorem test_SpecCommit : ∀ shadow : Bool,
    let img := image 6 0 (specBody 3)
    let u := specRun (tokenRec 0, [])
    let s := walking img u (seqEntry 0 1 1 shadow)
    let b := nodeBody img 0
    let en := s.mod.readEntry 0 0 .clean
    let r := (u.rec' (specRef b) 0).1
    Acts s 0 0 0 0 3 u img (member false [0x200000]) ∧ (u.kvUse (specPeg b) 0).isSome = true ∧ en.2.1 = false ∧ en.1.lc = 0 ∧
      en.1.lt = 0 + specNmax b ∧ en.1.shadow = shadow ∧ (∀ j, j < recA r → recPath r j = j) ∧ recA r = 1 ∧ s.mod.binds = [] ∧
      (∀ x, u.kvUse (specPeg b) 0 = some x → x.find en.1 false (pageRange 0 1) = ([0x500000], none) ∧
        x.find en.1 true (pageRange 0 1) = ([0x100000000], none)) ∧ ChannelOn s 0 0 img := by
  intro shadow
  refine ⟨?_, ?_, ?_, ?_, ?_, ?_, ?_, ?_, rfl, ?_, ?_⟩
  case refine_9 => intro x h; cases h; cases shadow <;> decide +kernel
  all_goals (cases shadow <;> (try delta ChannelOn) <;> (try delta Acts Runs On) <;> decide +kernel)
theorem test_SpecCommitRefused : ({ raw := seqEntry 1 1 1 false } : SeqEntry).lc ≠ 0 := by decide +kernel
theorem test_SpecReconcile : ∀ right : Bool,
    let img := image 6 0 (specBody 5)
    let u := specRun (tokenRec 0, tokenRec (if right then 0 else 1))
    let s := walking img u (seqEntry 0 1 1 true)
    let r := u.rec' 0 0
    let en := s.mod.readEntry 0 0 .clean
    let z := reconcile en.1.lc en.1.lt r.1 r.2
    Acts s 0 0 0 0 5 u img (member false [0x200000]) ∧ en.2.1 = false ∧ en.1.shadow = true ∧
      (if right then en.1.lc < z.1 ∧ pageRange en.1.lc z.1 = [0] else z.1 ≤ en.1.lc) ∧ ChannelOn s 0 0 img := by
  delta ChannelOn Acts Runs On; decide +kernel
theorem test_SpecRollback :
    let img := image 6 0 (specBody 4)
    let u := specRun ([], [])
    let s := withPart { running img u with regs := [(offTruss, 3), (offKvBase + 4, 1)] }
    Acts s 0 0 0 0 4 u img (member false [0x200000]) ∧ (u.kvUse (specPeg (nodeBody img 0)) 0).isSome = true ∧
      (s.mod.readEntry 0 0 .clean).2.1 = false ∧ isExt ((s.mod.part 0).seqLoc 0) = true := by delta Acts Runs On; decide +kernel
theorem test_AcceptedPath :
    let tree : List Byte := leBytes 1 2 ++ zeros 64 ++ [0] ++ zeros 382
    1 ≤ treeN tree ∧ treeN tree ≤ 64 ∧ ∀ i, 1 ≤ i → i < treeN tree → treeParent tree i < i := by decide +kernel

/-! ### Link nodes -/

/-- A link body of an operation: one unit of near memory over path 9. -/
def linkBody (op : Nat) : List Byte :=
  leBytes 1 op ++ [0, 0, 0] ++ leBytes 4 512 ++ leBytes 8 0x200000 ++ leBytes 8 0x300000 ++ zeros 8 ++ leBytes 2 9 ++ zeros 14

theorem test_LinkSend :
    let img := image 4 0 (linkBody 1)
    let u := runOf false .running
    let mb := member false [0x200000]
    let s := atWork img u
    let l := s.mod.sendLatch 0 0 0 0 3
    let d := l.2.linkDesc u img mb 0 0 0 false
    Runs s 0 0 0 0 u img mb ∧ nodeUnit img 0 = 4 ∧ linkOp (nodeBody img 0) = 1 ∧ u.sent = [] ∧
      Table.find (linkPath (nodeBody img 0)) s.mod.paths = some path9 ∧ path9.closed = false ∧
      s.mod.linkIssues 0 u = true ∧ ChannelOn s 0 0 img ∧ l.1 = some (255, 1) ∧ l.2.linkSideOk 0 d false = true ∧
      l.2.linkSideOk 0 { d with fault := true } false = false ∧ d.len ≤ path9.credit ∧
      path9.txCount + segments d.len ≤ 2 ^ 43 ∧ (s.mod.link path9.link).sendQ = [] ∧ (s.mod.link path9.link).canSend = true := by
  delta ChannelOn Runs On; decide +kernel
theorem test_LinkSendHeldBack :
    let s := atWork (image 4 0 (linkBody 1)) (runOf false .running)
    ({ path9 with credit := 511 } : Path).credit < 512 ∧ 2 ^ 43 < ({ path9 with txCount := 2 ^ 43 } : Path).txCount + segments 512 ∧
      ({ s.mod with keys := [] }.sendLatch 0 0 0 0 3).1 = none := by decide +kernel
theorem test_LinkSeal :
    let img := image 4 0 (linkBody 1)
    let s := atWork img (runOf false .running)
    let l := s.mod.sendLatch 0 0 0 0 3
    let d := l.2.linkDesc (runOf false .running) img (member false [0x200000]) 0 0 0 false
    let x := l.2.sealMessage 0 d 9 0 (0, 0) (l.2.keyBytes 255 1) (fun i => gcmIv 3 9 (l.2.sendDir path9) i) UnitEcc.clean
    x.1.err = false ∧ x.1.poison = none ∧ x.1.frames ≠ [] := by decide +kernel
theorem test_LinkRecvAndExchange : ∀ op : Fin 2,
    let img := image 4 0 (linkBody (2 + op.val))
    let u := runOf false .running
    Runs (atWork img u) 0 0 0 0 u img (member false [0x200000]) ∧ nodeUnit img 0 = 4 ∧ linkOp (nodeBody img 0) = 2 + op.val := by
  delta Runs On; decide +kernel
theorem test_LinkReceived :
    let img := image 4 0 (linkBody 2)
    let u := { runOf false .running with received := [0] }
    (atWork img u).mod.nodeAt 0 0 0 0 = some (u, img, member false [0x200000]) ∧ u.received.contains (0 * 64 + 0) = true := by
  decide +kernel

/-! ### Watchdogs, resets, trusses -/

theorem test_WaitWatchdog :
    let r := { landed 3 false (slice (leBytes 4 1 ++ leBytes 2 1 ++ zeros 10 ++ leBytes 8 1) 0 64) with waitMs := 1 }
    let s := withPart { Partition.reset with
      ctxs := [(0, { ctxWith [] with queues := [(3, { landed := [r], taken := 1 })] })] }
    Live s ∧ (s.mod.part 0).underReset = false ∧ s.mod.waitingRaise 0 0 3 = some r ∧ s.mod.waitingRaise 0 0 2 = none := by
  delta Live On; decide +kernel
theorem test_LinkWatchdog :
    let img := image 4 0 (linkBody 2)
    let u := { runOf false .running with watch := [(1, 10)] }
    let s := atWork img u
    On s ∧ s.mod.nodeAt 0 0 0 0 = some (u, img, member false [0x200000]) ∧ u.watched 0 0 = true ∧
      (runOf false .running).watched 0 0 = false := by
  delta On; decide +kernel
theorem test_PeerLate :
    let img := image 4 0 (linkBody 2)
    let u := runOf true .running
    let s := st { joined with parts := (withPart { running img u with resvs := [(15, resv)] }).mod.parts }
    On s ∧ s.mod.nodeAt 0 0 0 0 = some (u, img, member true [0x200000]) ∧ u.guar = true ∧
      (member true [0x200000]).raise.voided = none ∧ u.awaits (nodeBody img 0) 0 0 = true ∧
      s.mod.frameArrived 0 0 u.q (nodeBody img 0) 0 0 = false ∧ (s.mod.part 0).resvOf 0 u.q = some (15, resv) ∧
      Table.find (linkPath (nodeBody img 0)) s.mod.paths = some path9 := by delta On; decide +kernel
theorem test_PeerNotLate :
    let a : Arm := { c := 0, q := 0, node := 0, member := 0, tag := 0, len := 512, slot := 255, ver := 1 }
    let g : LinkMsg := { tag := 0, len := 512, arm := some a, frames := [], got := 1, segs := 0, base := 0, drop := false }
    let m := { joined with paths := [(9, { path9 with msgs := [g] })] }
    m.frameArrived 0 0 0 (linkBody 2) 0 0 = true := by decide +kernel
theorem test_NodeHang :
    let img := image 3 0 copyBody
    let u := runOf false .running
    Live (atWork img u) ∧ (atWork img u).mod.nodeAt 0 0 0 0 = some (u, img, member false [0x200000]) ∧ nodeUnit img 0 ≠ 4 := by
  delta Live On; decide +kernel
theorem test_BayWatchdog :
    let s := st { base with devtime := 1000000 }
    Live s ∧ (Table.get (0 : Dword) 0 s.mod.beats).toNat + 1000000 ≤ s.mod.devtime.toNat ∧ s.mod.exists? 0 = true := by
  delta Live On; decide +kernel

/-- PART_RESET of partition 0. -/
def resetReq : Request := req .pf 0x11 8 [0]

theorem test_PartReset : Turn (asked base resetReq) resetReq [] ∧ resetReq.opcode = 0x11 ∧ base.partResetBad resetReq = none ∧
    base.exists? (fld resetReq.payload 0 1) = true ∧ (base.part (fld resetReq.payload 0 1)).resetting = none := by
  delta Turn On; decide +kernel
theorem test_ResetPhases : ∀ n : Fin 7,
    Live (withPart (resetting n.val)) ∧ ∃ z, ((withPart (resetting n.val)).mod.part 0).resetting = some z ∧ z.phase = n.val ∧
      (withPart (resetting n.val)).mod.boot.paused = false ∧ ((withPart (resetting n.val)).mod.part 0).extPoison = [] :=
  fun _ => ⟨⟨rfl, rfl⟩, _, rfl, rfl, rfl, rfl⟩
theorem test_Trusses :
    let s := hosted { Partition.reset with regs := [(offTruss, 0x21)] }
    Live s ∧ Linked s ∧ (s.mod.part 0).created = true ∧ (s.mod.part 0).underReset = false ∧
      getB ((s.mod.part 0).reg offTruss) (4 + 1) = true ∧ s.mod.boot.paused = false := by delta Live Linked On; decide +kernel
theorem test_TrussRejoin :
    let s := withPart { raising [landed 0 true (record 1 0)] with regs := [(offTruss, 9)], resvs := [(0, resv)] }
    On s ∧ s.mod.schedules 0 = true ∧ (s.mod.part 0).atFrameBoundary = true ∧ s.mod.aboutToStart 0 = true := by
  delta On; decide +kernel

/-! ### Registers -/

theorem test_RegisterAccess : ∀ off ∈ plainRegs,
    let a := blockBase 0 + off
    Linked (st linked) ∧ linked.target .pf .chip a = some (.part 0 off) ∧ a % 4 = 0 ∧ (linked.part 0).created = true ∧
      (linked.part 0).underReset = false ∧ (zeros 4).length = 4 := by delta Linked On; decide +kernel
theorem test_RegisterAccess_size :
    linked.target .pf .chip 4 = some (.chip 4) ∧ Target.area (.chip 4) = false ∧
      ¬ (((zeros 8).length = 4 ∨ (zeros 8).length = 8) ∧ 4 % (zeros 8).length = 0) ∧
      ¬ (((zeros 512).length = 4 ∨ (zeros 512).length = 8) ∧ 0 % (zeros 512).length = 0) ∧
      linked.target .pf .chip 0x60000 = some .nothing := by decide +kernel
theorem test_PairReads : Linked (st linked) := by delta Linked On; decide +kernel
theorem test_PartitionsStandApart : ∃ t, exec (.evtCtrlArm .pf 0) (st linked) = .next t := ⟨_, rfl⟩
end Sys2Proof.Tests
end

section
/-!
PROOFS. The statements about late completions (02 R48) and message times (02 R58), with the lemmas they rest on.
-/

namespace Sys2Proof.Machine
open Claims

/-! ### How a command with power, or over a PCIe link that is up, acts -/

theorem Mod.host_of_pcieUp {m : Mod} (h : m.pcieUp = true) (f : Mod → Mod) : m.host f = f m := by
  simp [Mod.host, h]

theorem gives_of_act {c : Instr} {s : State} {f : Mod → Mod} (hon : On s) (hc : exec c s = s.act f) :
    Gives c s (f s.mod) :=
  hc.trans (State.act_on hon f)

theorem gives_of_host {c : Instr} {s : State} {f : Mod → Mod} (hl : Linked s) (hc : exec c s = s.act fun m => m.host f) :
    Gives c s (f s.mod) :=
  Mod.host_of_pcieUp hl.2 f ▸ gives_of_act hl.1 hc

/-! ### Late completions (02 R48) -/

/-- The value that `FLT_LATE_CPL` takes from `v` on a late completion of a tag. -/
def lateCplValue (v : Word) (tag : Nat) : Word :=
  setF (if getB v 31 then setB v 30 true else setB v 31 true) 13 0 tag

theorem Mod.lateCompletion_eq (m : Mod) (tag : Nat) :
    m.lateCompletion tag =
      (m.setChip offLateCpl (lateCplValue (m.chipReg offLateCpl) tag)).send (.aer "Unexpected Completion" tag) := rfl

theorem Mod.completion_of_no_read {m : Mod} {tag : Nat} (h : (m.pcie.reads.find? fun q => q.tag == tag) = none)
    (st : CplStatus) (data : List Byte) : m.completion tag st data = m.lateCompletion tag := by
  simp [Mod.completion, h]

@[simp] theorem Mod.chipReg_send (m : Mod) (x : Sent) (off : Nat) : (m.send x).chipReg off = m.chipReg off := rfl

theorem lateCplValue_seen (v : Word) (tag : Nat) : getB (lateCplValue v tag) 31 = true := by
  rw [lateCplValue, getB_setF_other _ 13 0 tag 31 (by omega) (by omega) (by omega)]
  split
  next hseen => rw [getB_setB_other v true (by omega) (by omega), hseen]
  next => exact getB_setB_same v 31 true (by omega)

/-- `MULTI` is set by a second late completion and kept by every other. -/
theorem lateCplValue_multi (v : Word) (tag : Nat) : getB (lateCplValue v tag) 30 = (getB v 31 || getB v 30) := by
  rw [lateCplValue, getB_setF_other _ 13 0 tag 30 (by omega) (by omega) (by omega)]
  split
  next hseen => rw [getB_setB_same v 30 true (by omega), hseen, Bool.true_or]
  next hseen => rw [getB_setB_other v true (by omega) (by omega), Bool.eq_false_of_not_eq_true hseen, Bool.false_or]

theorem lateCplValue_tag (v : Word) (tag : BitVec 14) : getF (lateCplValue v tag.toNat) 13 0 = tag.toNat := by
  rw [lateCplValue, getF_setF_same _ 13 0 _ (by omega) (by omega)]
  exact Nat.mod_eq_of_lt tag.isLt

/-! ### Message times and the acceptance of requests (02 R52, R54, R58) -/

theorem Mod.mtime_eq_iff (m : Mod) (t : Nat) :
    m.mtime = t ↔ t * 16384 ≤ m.devtime.toNat ∧ m.devtime.toNat < (t + 1) * 16384 := by
  unfold Mod.mtime
  omega

/-- A GO on an idle mailbox is accepted: its request arrives with the message time of now, and the mailbox waits for it. -/
theorem Mod.go_of_idle {m : Mod} {f : Fn} (h : (m.mailbox (fnIdx f)).cur = none) :
    m.go f = { m with
      mbx := Table.set (fnIdx f) { m.mailbox (fnIdx f) with cur := some m.reqSerial, done := false } m.mbx
      arrived := m.arrived ++ [requestOf m.reqSerial f m.mtime (Cells.read (m.mailbox (fnIdx f)).reqBuf 0 4096)]
      reqSerial := m.reqSerial + 1 } := by
  simp [Mod.go, h]

theorem Mod.arrived_go_of_idle {m : Mod} {f : Fn} (h : (m.mailbox (fnIdx f)).cur = none) :
    (m.go f).arrived =
      m.arrived ++ [requestOf m.reqSerial f m.mtime (Cells.read (m.mailbox (fnIdx f)).reqBuf 0 4096)] := by
  rw [Mod.go_of_idle h]

theorem Mod.mailbox_go_of_idle {m : Mod} {f : Fn} (h : (m.mailbox (fnIdx f)).cur = none) :
    (m.go f).mailbox (fnIdx f) = { m.mailbox (fnIdx f) with cur := some m.reqSerial, done := false } := by
  rw [Mod.go_of_idle h]
  exact Table.get_set_same ..

theorem gives_mbxGo {s : State} {f : Fn} (hl : Linked s) (hf : s.mod.hasMailbox f = true) :
    Gives (.mbxGo f) s (s.mod.go f) := by
  have hg := gives_of_host hl (exec_mbxGo f s)
  rwa [if_pos hf] at hg

/-- A whole sideband message is accepted while no management request stands, from the end of stage 0x0 until HALTED. -/
theorem Mod.mctpRx_of_idle {m : Mod} {msg : List Byte} (hboot : 1 ≤ m.boot.stage) (hhalt : m.boot.stage ≤ 8)
    (hlen : 16 ≤ msg.length) (hbusy : m.mgmtBusy = none) :
    m.mctpRx msg = { m with
      mgmtBusy := some m.reqSerial
      arrived := m.arrived ++ [requestOf m.reqSerial .mgmt m.mtime msg]
      reqSerial := m.reqSerial + 1 } := by
  have hacts : ¬ (m.boot.stage = 0 ∨ msg.length < 16 ∨ (m.boot.stage = 0xF ∧ fld msg 0 2 ≠ 1)) := by omega
  simp [Mod.mctpRx, hacts, hbusy]

theorem gives_mctpMessageRx {s : State} {msg : SidebandMsg} (hon : On s) (hmsg : forMailbox msg = true) :
    Gives (.mctpMessageRx msg) s (s.mod.mctpRx msg.body) := by
  have hg := gives_of_act hon (exec_mctpMessageRx msg s)
  rwa [if_pos hmsg] at hg

/-! ### The statements -/

/-- Settles O12: with no read of the tag outstanding the completion acts as a late one, which writes `FLT_LATE_CPL` and
sends the AER report. -/
theorem lateCompletions : Obligations.LateCompletions := by
  intro s tag st data hl hnone
  have hg : Gives (.pcieCompletionRx tag st data) s (s.mod.lateCompletion tag.toNat) :=
    Mod.completion_of_no_read hnone st data ▸ gives_of_host hl (exec_pcieCompletionRx tag st data s)
  refine ⟨_, hg, ?_⟩
  rw [Mod.lateCompletion_eq]
  simp only [Mod.chipReg_send, Mod.chipReg_setChip]
  exact ⟨rfl, lateCplValue_seen _ _, lateCplValue_multi _ _, lateCplValue_tag _ _,
    fun off hoff => Mod.chipReg_setChip_other _ hoff _, rfl⟩

/-- Settles O14: a message time is 16,384 ns of DEVTIME, and both ways of accepting a request stamp it with the present one. -/
theorem messageTimes : Obligations.MessageTimes := by
  refine ⟨Mod.mtime_eq_iff, ?mailbox, ?sideband⟩
  case mailbox =>
    intro s f hl hf hidle
    have hbox := Mod.mailbox_go_of_idle hidle
    exact ⟨_, _, gives_mbxGo hl hf, Mod.arrived_go_of_idle hidle, rfl, rfl, rfl, by rw [hbox]; rfl, by rw [hbox]⟩
  case sideband =>
    intro s msg hon hboot hhalt hmsg hlen hbusy
    have hg := gives_mctpMessageRx hon hmsg
    rw [Mod.mctpRx_of_idle hboot hhalt hlen hbusy] at hg
    exact ⟨_, _, hg, rfl, rfl, rfl, rfl, rfl⟩

end Sys2Proof.Machine
end

section
/-!
PROOFS. The figures that a reservation's response holds: W, the kerf, and their sum, the demand of a raise in the
time test (03 R74, R82).
-/

namespace Sys2Proof.Machine
open Claims

/-! ### A little-endian field of a structure (00 R8) -/

@[simp] theorem length_leBytes (n v : Nat) : (leBytes n v).length = n := by
  induction n generalizing v with
  | zero => rfl
  | succ n ih => simp [leBytes, ih]

@[simp] theorem length_zeros (n : Nat) : (zeros n).length = n := List.length_replicate

/-- Encoding a number in `n` bytes and reading it back keeps its low `n` bytes. -/
theorem leNat_leBytes (n v : Nat) : leNat (leBytes n v) = v % 256 ^ n := by
  induction n generalizing v with
  | zero => simp [leBytes, leNat, Nat.mod_one]
  | succ n ih =>
    rw [leBytes, leNat, ih, BitVec.toNat_ofNat, Nat.pow_succ' (m := 256)]
    exact Nat.mod_mul.symm

theorem fld_append_leBytes {pre : List Byte} {a n v : Nat} (ha : pre.length = a) (hv : v < 256 ^ n) (post : List Byte) :
    fld (pre ++ (leBytes n v ++ post)) a n = v := by
  rw [fld, List.drop_left' ha, List.take_left' (length_leBytes n v), leNat_leBytes, Nat.mod_eq_of_lt hv]

/-! ### The response of a new reservation (03 R74, R78, R82) -/

/-- W of the reservation that a request would open: the fixed term, the skew, the longest path and the lane allowance
(03 R78). -/
def Mod.newResvW (m : Mod) (pl img : List Byte) (slots : Table Nat) : Nat :=
  let l := m.longestPath (roCtx pl / 16) img { mhz := 1800, hostBw := fld pl 32 4, slots := slots }
  1200 + fld pl 24 4 + l.1 + m.laneAllowance (roCtx pl / 16) img l.2

/-- The response has W in bytes 8 to 15 and the kerf of W in bytes 16 to 23 (03 R74). -/
theorem Mod.newResv_response (m : Mod) (pl img : List Byte) (slots : Table Nat) :
    ∃ pre post : List Byte, pre.length = 8 ∧ (m.newResv pl img slots).1.response =
      pre ++ (leBytes 8 (m.newResvW pl img slots) ++ (leBytes 8 (kerfOf (m.newResvW pl img slots)) ++ post)) :=
  ⟨leBytes 4 (16 * (roCtx pl / 16) + (m.part (roCtx pl / 16)).freeResv) ++ zeros 4, _, by simp, by
    simp only [Mod.newResv, Mod.newResvW, List.append_assoc]; rfl⟩

/-- The ceiling of 03 R82, written out. -/
theorem kerfOf_eq (w : Nat) : kerfOf w = 1000 + (w + 63) / 64 := rfl

theorem kerfOf_lt {w : Nat} (h : w < 2 ^ 63) : kerfOf w < 256 ^ 8 := by
  rw [kerfOf_eq]
  omega

theorem Mod.newResv_w {m : Mod} {pl img : List Byte} {slots : Table Nat} (h : m.newResvW pl img slots < 2 ^ 63) :
    (m.newResv pl img slots).1.w = m.newResvW pl img slots := by
  obtain ⟨pre, post, hpre, hresp⟩ := m.newResv_response pl img slots
  rw [Reservation.w, hresp]
  exact fld_append_leBytes hpre (h.trans (by decide)) _

theorem Mod.newResv_kerf {m : Mod} {pl img : List Byte} {slots : Table Nat} (h : m.newResvW pl img slots < 2 ^ 63) :
    (m.newResv pl img slots).1.kerf = kerfOf (m.newResvW pl img slots) := by
  obtain ⟨pre, post, hpre, hresp⟩ := m.newResv_response pl img slots
  have hlen : (pre ++ leBytes 8 (m.newResvW pl img slots)).length = 16 := by simp [hpre]
  rw [Reservation.kerf, hresp, ← List.append_assoc]
  exact fld_append_leBytes hlen (kerfOf_lt h) post

/-- Settles O23: the response holds W and its kerf in two fields of 8 bytes, wide enough for both, and the demand that the
time test takes is read from these fields. -/
theorem kerfOfReservation : Obligations.KerfOfReservation := by
  intro m pl img slots r l w hw
  have hrw : r.w = w := Mod.newResv_w hw
  have hkerf : r.kerf = kerfOf w := Mod.newResv_kerf hw
  exact ⟨hrw, by rw [hkerf, hrw, kerfOf_eq], rfl⟩

end Sys2Proof.Machine
end

section
/-!
PROOFS. The statement about a ROLLBACK (13 R309): what a write of one whole external granule leaves and gives back, the
read and the write of a sequence entry, and the node that acts through them.
-/

namespace Sys2Proof.Machine
open Claims

/-! ### A field put back where it was read (00 R8) -/

/-- Reading a number from bytes and encoding it again gives the bytes. -/
theorem leBytes_leNat (bs : List Byte) : leBytes bs.length (leNat bs) = bs := by
  induction bs with
  | nil => rfl
  | cons b bs ih =>
    have hb := b.isLt
    have hlow : BitVec.ofNat 8 (leNat (b :: bs)) = b := BitVec.eq_of_toNat_eq (by
      rw [leNat, BitVec.toNat_ofNat]; omega)
    have hhigh : leNat (b :: bs) / 256 = leNat bs := by rw [leNat]; omega
    rw [List.length_cons, leBytes, hlow, hhigh, ih]

theorem length_putFld {bs : List Byte} {a n : Nat} (h : a + n ≤ bs.length) (v : Nat) :
    (putFld bs a n v).length = bs.length := by
  simp [putFld]
  omega

theorem putFld_fld {bs : List Byte} {a n : Nat} (h : a + n ≤ bs.length) : putFld bs a n (fld bs a n) = bs := by
  have hlen : ((bs.drop a).take n).length = n := by simp; omega
  have henc : leBytes n (fld bs a n) = (bs.drop a).take n := by
    conv_lhs => rw [← hlen]
    exact hlen.symm ▸ leBytes_leNat _
  rw [putFld, henc, ← List.drop_drop, List.append_assoc, List.take_append_drop, List.take_append_drop]

/-! ### Bytes of a partition -/

theorem Cells.read_eq_map (m : Cells) (a n : Nat) :
    Cells.read m a n = (List.range n).map fun i => Sparse.get (a + i) m := by
  induction n generalizing a with
  | zero => rfl
  | succ n ih =>
    rw [Cells.read, ih, List.range_succ_eq_map, List.map_cons, List.map_map]
    simp [Function.comp_def, Nat.add_comm, Nat.add_left_comm]

@[simp] theorem Partition.length_bytesAt (p : Partition) (k key loc n : Nat) : (p.bytesAt k key loc n).length = n := by
  simp [Partition.bytesAt]

@[simp] theorem Partition.bytesAt_modCtx (p : Partition) (c : Nat) (f : Context → Context) (k key loc n : Nat) :
    (p.modCtx c f).bytesAt k key loc n = p.bytesAt k key loc n := rfl

@[simp] theorem Partition.near_setPoison (p : Partition) (g : Nat) (b : Bool) : (p.setPoison g b).near = p.near := by
  rw [Partition.setPoison]; split <;> rfl

@[simp] theorem Partition.ext_setPoison (p : Partition) (g : Nat) (b : Bool) : (p.setPoison g b).ext = p.ext := by
  rw [Partition.setPoison]; split <;> rfl

@[simp] theorem Partition.trusses_setPoison (p : Partition) (g : Nat) (b : Bool) :
    (p.setPoison g b).trusses = p.trusses := by
  rw [Partition.setPoison]; split <;> rfl

@[simp] theorem Partition.bytesAt_setPoison (p : Partition) (g : Nat) (b : Bool) (k key loc n : Nat) :
    (p.setPoison g b).bytesAt k key loc n = p.bytesAt k key loc n := by
  rw [Partition.setPoison]; split <;> rfl

/-! ### One whole granule of external memory (11 R255) -/

section
variable {p : Partition} {k key loc : Nat} {bs : List Byte} (hloc : 64 ∣ loc) (hext : isExt loc = true)
include hloc hext

/-- A granule that stands under the key of the read is delivered as it is stored. -/
theorem Partition.bytesAt_of_extKey (hkey : Table.get 0 (loc / 64) p.extKey = key) :
    p.bytesAt k key loc 64 = Cells.read p.ext loc 64 := by
  rw [Partition.bytesAt, Cells.read_eq_map]
  refine List.map_congr_left fun i hi => ?_
  have hi : i < 64 := List.mem_range.mp hi
  have hgran : (loc + i) / 64 = loc / 64 := by omega
  have hexti : isExt (loc + i) = true := by
    simp only [isExt, decide_eq_true_eq] at hext ⊢
    omega
  simp [Partition.byteAt, hexti, hgran, hkey]

/-- What a write from a granule's start leaves of the partition: the bytes written over external memory, whether or
not the granule was first encrypted anew, and the granule under the key of the write. -/
theorem Partition.putBytes_ext_eq (p : Partition) (k key : Nat) (bs : List Byte) :
    ∃ old keys, old.length ≤ 64 ∧ Table.get 0 (loc / 64) keys = key ∧
      p.putBytes k key loc bs = { p with ext := Cells.write (Cells.write p.ext loc old) loc bs, extKey := keys } := by
  have hgran : 64 * (loc / 64) = loc := Nat.mul_div_cancel' hloc
  by_cases hkey : Table.get 0 (loc / 64) p.extKey = key
  · exact ⟨[], p.extKey, by simp, hkey, by simp [Partition.putBytes, hext, hkey, Cells.write]⟩
  · exact ⟨p.bytesAt k key loc 64, Table.set (loc / 64) key p.extKey, by simp, by simp,
      by simp [Partition.putBytes, hext, hgran, hkey]⟩

/-- A granule written whole reads back under the key of the write. -/
theorem Partition.bytesAt_putBytes_granule (hbs : bs.length = 64) :
    (p.putBytes k key loc bs).bytesAt k key loc 64 = bs := by
  obtain ⟨old, keys, -, hkey, hput⟩ := Partition.putBytes_ext_eq hloc hext p k key bs
  rw [hput, Partition.bytesAt_of_extKey hloc hext hkey, ← hbs]
  exact Cells.read_write_same _ _ bs

/-- Every other external byte is stored as before. -/
theorem Partition.ext_putBytes_granule_out (hbs : bs.length = 64) {a : Nat} (ha : a < loc ∨ loc + 64 ≤ a) :
    Sparse.get a (p.putBytes k key loc bs).ext = Sparse.get a p.ext := by
  obtain ⟨old, keys, hold, -, hput⟩ := Partition.putBytes_ext_eq hloc hext p k key bs
  rw [hput, Cells.get_write_out _ _ _ _ (by omega), Cells.get_write_out _ _ _ _ (by omega)]

end

theorem Partition.near_putBytes_ext {loc : Nat} (hext : isExt loc = true) (p : Partition) (k key : Nat)
    (bs : List Byte) : (p.putBytes k key loc bs).near = p.near := by
  rw [Partition.putBytes, if_pos hext]
  dsimp only
  split <;> rfl

@[simp] theorem Partition.trusses_putBytes (p : Partition) (k key loc : Nat) (bs : List Byte) :
    (p.putBytes k key loc bs).trusses = p.trusses := by
  simp only [Partition.putBytes]
  split
  · split <;> rfl
  · rfl

/-- 64 bytes from a granule's start touch that granule alone. -/
theorem granules_granule (g : Nat) : granules (64 * g) 64 = [g] := by
  have hcount : (64 * g + 64 - 1) / 64 + 1 - 64 * g / 64 = 1 := by omega
  have hfirst : 64 * g / 64 = g := by omega
  rw [granules, hcount]
  simp [hfirst]

/-- A write that covers a granule, in bytes that are not poisoned, puts them there and takes the granule's poison away, whatever
the code finds (11 R257). -/
theorem Mod.memWrite_granule (m : Mod) (k key : Nat) {loc : Nat} (hloc : 64 ∣ loc) {bs : List Byte}
    (hbs : bs.length = 64) (e : Ecc) :
    m.memWrite k key loc bs [] e = m.modPart k fun p => (p.putBytes k key loc bs).setPoison (loc / 64) false := by
  obtain ⟨g, rfl⟩ := hloc
  have hne : bs.isEmpty = false := List.isEmpty_eq_false_iff.mpr (List.ne_nil_of_length_pos (by omega))
  have htake : bs.take 64 = bs := List.take_of_length_le hbs.le
  simp [Mod.memWrite, Mod.writeGranule, hne, hbs, htake, granules_granule]

/-! ### The entry of a sequence (12 R277, R279) -/

theorem Partition.dvd_seqLoc (p : Partition) (h : Nat) : 64 ∣ p.seqLoc h := by
  rw [Partition.seqLoc]
  omega

/-- A clean read delivers the bytes as they stand, and without a poisoned granule it changes nothing. -/
theorem Mod.readEntry_clean (m : Mod) (k h : Nat) (hlost : (m.readEntry k h .clean).2.1 = false) :
    m.readEntry k h .clean = ({ raw := (m.part k).bytesAt k (m.memKey k) ((m.part k).seqLoc h) 64 }, false, m) := by
  simp only [Mod.readEntry, Mod.memRead, Bool.not_eq_false', List.isEmpty_iff] at hlost ⊢
  rw [hlost]
  rfl

/-- The bytes of an entry with `LC` and `LT` put in their places. -/
def putCounts (raw : List Byte) (lc lt : Nat) : List Byte := putFld (putFld raw 8 4 lc) 12 4 lt

theorem length_putCounts {raw : List Byte} (h : raw.length = 64) (lc lt : Nat) : (putCounts raw lc lt).length = 64 := by
  have h8 : (putFld raw 8 4 lc).length = 64 := by rw [length_putFld (by omega), h]
  rw [putCounts, length_putFld (by omega), h8]

/-- An entry without tentative rows, its `LC` put in both places, stands as it was. -/
theorem putCounts_same {en : SeqEntry} (h : en.raw.length = 64) (hno : en.lc = en.lt) :
    putCounts en.raw en.lc en.lc = en.raw := by
  have hlc : putFld en.raw 8 4 en.lc = en.raw := putFld_fld (by omega)
  rw [putCounts, hlc, hno]
  exact putFld_fld (by omega)

/-- The partition with the granule of entry `h` written: `LC` and `LT`, and nothing else of the entry. -/
def Partition.putEntry (p : Partition) (k key h lc lt : Nat) : Partition :=
  (p.putBytes k key (p.seqLoc h) (putCounts (p.bytesAt k key (p.seqLoc h) 64) lc lt)).setPoison (p.seqLoc h / 64) false

/-- The entry's one write is that of a whole granule. -/
theorem Mod.writeEntry_eq (m : Mod) (k h lc lt : Nat) :
    m.writeEntry k h lc lt none = m.modPart k fun p =>
      (p.putBytes k (m.memKey k) ((m.part k).seqLoc h)
        (putCounts ((m.part k).bytesAt k (m.memKey k) ((m.part k).seqLoc h) 64) lc lt)).setPoison
          ((m.part k).seqLoc h / 64) false :=
  m.memWrite_granule k (m.memKey k) (Partition.dvd_seqLoc ..) (length_putCounts (Partition.length_bytesAt ..) lc lt) .clean

theorem Mod.part_writeEntry (m : Mod) (k h lc lt : Nat) :
    (m.writeEntry k h lc lt none).part k = (m.part k).putEntry k (m.memKey k) h lc lt := by
  rw [Mod.writeEntry_eq, Mod.part_modPart]
  rfl

theorem Mod.part_writeEntry_other (m : Mod) {j k : Nat} (hj : j ≠ k) (h lc lt : Nat) :
    (m.writeEntry k h lc lt none).part j = m.part j := by
  rw [Mod.writeEntry_eq, Mod.part_modPart_other m hj]

section
variable {p : Partition} {k key h : Nat} (hext : isExt (p.seqLoc h) = true) (lc lt : Nat)
include hext

theorem Partition.bytesAt_putEntry :
    (p.putEntry k key h lc lt).bytesAt k key (p.seqLoc h) 64 = putCounts (p.bytesAt k key (p.seqLoc h) 64) lc lt := by
  rw [Partition.putEntry, Partition.bytesAt_setPoison]
  exact Partition.bytesAt_putBytes_granule (p.dvd_seqLoc h) hext (length_putCounts (Partition.length_bytesAt ..) lc lt)

theorem Partition.ext_putEntry_out {a : Nat} (ha : a < p.seqLoc h ∨ p.seqLoc h + 64 ≤ a) :
    Sparse.get a (p.putEntry k key h lc lt).ext = Sparse.get a p.ext := by
  rw [Partition.putEntry, Partition.ext_setPoison]
  exact Partition.ext_putBytes_granule_out (p.dvd_seqLoc h) hext (length_putCounts (Partition.length_bytesAt ..) lc lt) ha

theorem Partition.near_putEntry : (p.putEntry k key h lc lt).near = p.near := by
  rw [Partition.putEntry, Partition.near_setPoison, Partition.near_putBytes_ext hext]

end

@[simp] theorem Partition.trusses_putEntry (p : Partition) (k key h lc lt : Nat) :
    (p.putEntry k key h lc lt).trusses = p.trusses := by
  rw [Partition.putEntry, Partition.trusses_setPoison, Partition.trusses_putBytes]

/-! ### The node (13 R299, R309) -/

/-- A speculation node that may act does so. -/
theorem Mod.specAct_of_acts {s : State} {k c node member op : Nat} {u : Run} {img : List Byte} {mb : Member}
    (h : Acts s k c node member op u img mb) (f : Mod → Run → List Byte → Member → Mod) :
    s.mod.specAct k c node member op f = f s.mod u img mb := by
  obtain ⟨⟨-, hshut, hnode⟩, hunit, hop, hdesc, hwait⟩ := h
  simp [Mod.specAct, hnode, hunit, hop, hshut, hdesc, hwait]

/-- The end of a node's work is marked in its context. -/
theorem Mod.part_worked (m : Mod) (k c node member : Nat) :
    ∃ f, (m.worked k c node member).part k = (m.part k).modCtx c f :=
  ⟨_, m.part_modPart k _⟩

theorem Mod.part_worked_other (m : Mod) {j k : Nat} (hj : j ≠ k) (c node member : Nat) :
    (m.worked k c node member).part j = m.part j :=
  m.part_modPart_other hj _

theorem Mod.specRollback_of_entry {m : Mod} {k node member : Nat} {u : Run} {img : List Byte} {x : KvUse}
    (hx : u.kvUse (specPeg (nodeBody img node)) member = some x) (hlost : (m.readEntry k x.seq .clean).2.1 = false)
    (c : Nat) :
    m.specRollback k c node member u img =
      (m.writeEntry k x.seq (m.readEntry k x.seq .clean).1.lc (m.readEntry k x.seq .clean).1.lc none).worked k c node
        member := by
  have hread := m.readEntry_clean k x.seq hlost
  simp [Mod.specRollback, hx, hread]

theorem gives_specRollback {s : State} {k : Fin 64} {c : Fin 16} {node member : Nat} {u : Run} {img : List Byte}
    {mb : Member} (hacts : Acts s k.val c.val node member 4 u img mb) :
    Gives (.specRollback k c node member) s (s.mod.specRollback k.val c.val node member u img) := by
  have ⟨⟨hon, _⟩, _⟩ := hacts
  have hact := gives_of_act hon (exec_specRollback k c node member s)
  rwa [Mod.specAct_of_acts hacts] at hact

/-- What a ROLLBACK gives: the partition with the entry's granule written and the node's end marked in its context, and every
other partition as before. -/
theorem exists_gives_specRollback {s : State} {k : Fin 64} {c : Fin 16} {node member : Nat} {u : Run} {img : List Byte}
    {mb : Member} {x : KvUse} (hacts : Acts s k.val c.val node member 4 u img mb)
    (hx : u.kvUse (specPeg (nodeBody img node)) member = some x)
    (hlost : (s.mod.readEntry k.val x.seq .clean).2.1 = false) {lc : Nat}
    (hlc : (s.mod.readEntry k.val x.seq .clean).1.lc = lc) :
    ∃ m f, Gives (.specRollback k c node member) s m ∧
      m.part k.val = ((s.mod.part k.val).putEntry k.val (s.mod.memKey k.val) x.seq lc lc).modCtx c.val f ∧
      ∀ j, j ≠ k.val → m.part j = s.mod.part j := by
  have hgives := gives_specRollback hacts
  rw [Mod.specRollback_of_entry hx hlost, hlc] at hgives
  obtain ⟨f, hpart⟩ := (s.mod.writeEntry k.val x.seq lc lc none).part_worked k.val c.val node member
  rw [Mod.part_writeEntry] at hpart
  exact ⟨_, f, hgives, hpart, fun j hj => by rw [Mod.part_worked_other _ hj, Mod.part_writeEntry_other _ hj]⟩

/-- No row at or above `LT` is delivered (12 R287). -/
theorem kvDelivered_of_le {lt p : Nat} (h : lt ≤ p) (win : Nat) (globs : List Nat) : kvDelivered win globs lt p = false := by
  simp [kvDelivered, Nat.not_lt.mpr h]

/-- Settles O52: the node's one effect on memory is the write of the entry's granule, a whole external granule under the
partition's key, with `LC` in the places of `LC` and `LT`; `LC` in its own place is the entry as it was. -/
theorem rollback : Obligations.Rollback := by
  intro s k c node member u img mb x hacts hx key loc en hlost hext
  obtain ⟨m, f, hgives, hpart, hothers⟩ := exists_gives_specRollback hacts hx hlost rfl
  have hraw : en.1.raw = (s.mod.part k.val).bytesAt k.val key loc 64 :=
    congrArg (fun r => r.1.raw) (s.mod.readEntry_clean k.val x.seq hlost)
  have hlen : en.1.raw.length = 64 := by rw [hraw, Partition.length_bytesAt]
  have hbytes : (m.part k.val).bytesAt k.val key loc 64 = putCounts en.1.raw en.1.lc en.1.lc := by
    rw [hpart, Partition.bytesAt_modCtx, hraw]
    exact Partition.bytesAt_putEntry hext en.1.lc en.1.lc
  refine ⟨m, hgives, hbytes, ?noTentative, fun win globs p hp => kvDelivered_of_le hp win globs, ?outside, ?near,
    ?trusses, hothers⟩
  case noTentative => exact fun hno => hbytes.trans (putCounts_same hlen hno)
  case outside =>
    intro a ha
    rw [hpart, Partition.ext_modCtx]
    exact Partition.ext_putEntry_out hext _ _ ha
  case near => rw [hpart, Partition.near_modCtx, Partition.near_putEntry hext]
  case trusses => rw [hpart, Partition.trusses_modCtx, Partition.trusses_putEntry]

end Sys2Proof.Machine
end

section
/-!
PROOFS. The figures that the invariant bounds, and how they pass through the generic operations.
-/

namespace Sys2Proof.Machine
open Claims

/-- The figures that the invariant bounds. -/
def Mod.bounds (m : Mod) : Nat × Nat × Nat × Nat × Nat × Nat × Nat :=
  (m.boot.stage, m.pcie.numVfs, m.gov.level, m.gov.cap, m.gov.samples.length, m.modRecords.length, m.supersede.length)

/-- The requests that wait for their turn, and the figures that the invariant bounds: what all but a few operations leave. -/
def Mod.figures (m : Mod) : List Request × Nat × Nat × Nat × Nat × Nat × Nat × Nat := (m.taken, m.bounds)

theorem Mod.bounds_of_figures {m n : Mod} (h : n.figures = m.figures) : n.bounds = m.bounds := congrArg Prod.snd h

theorem Mod.taken_of_figures {m n : Mod} (h : n.figures = m.figures) : n.taken = m.taken := congrArg Prod.fst h

section
variable (m : Mod) (out : List Sent) (fresh : Nat) (read : Option ReadData) (power : Power) (devtime : Dword)
  (time : TimeSync) (fwLoad : Option FwLoad) (fw : Option FwImage) (chip : RegFile) (shadows staged : Table Word)
  (mbx : Table Mailbox) (mgmtBusy : Option Nat) (reqSerial : Nat) (arrived acting : List Request)
  (parts : Table Partition) (keys : Table KeySlot) (pke : List PkeJob) (wrapped : List WrappedDone) (kaScalar : Nat)
  (spdm : Table Spdm) (links : Table Link) (jobs : Table Job) (paths : Table Path) (binds : Table Binding)
  (fabric : Table Nat) (holders : Table (Nat × Nat)) (ports : Table Port) (beats : Table Dword) (resvSerial : Nat)

/-- Whatever else a record update replaces, the figures stand where their six fields do. -/
@[simp] theorem Mod.figures_mk (pcie : Pcie) (hvfs : pcie.numVfs = m.pcie.numVfs) : Mod.figures
    { out, fresh, read, power, devtime, time, boot := m.boot, fwLoad, fw, pcie, chip, shadows, staged, mbx, mgmtBusy,
      reqSerial, arrived, taken := m.taken, acting, supersede := m.supersede, parts, keys, pke, wrapped, kaScalar, spdm, links, jobs,
      paths, binds, gov := m.gov, modRecords := m.modRecords, fabric, holders, ports, beats, resvSerial } = m.figures := by
  simp only [Mod.figures, Mod.bounds, hvfs]

end

@[simp] theorem Mod.figures_ite (c : Prop) [Decidable c] (a b : Mod) :
    (if c then a else b).figures = if c then a.figures else b.figures := apply_ite ..

@[simp] theorem Mod.figures_snd_ite {α : Type} (c : Prop) [Decidable c] (a b : α × Mod) :
    (if c then a else b).2.figures = if c then a.2.figures else b.2.figures := apply_ite (fun x : α × Mod => x.2.figures) ..

@[simp] theorem Mod.figures_forAll {α : Type} {f : Mod → α → Mod} (h : ∀ m x, (f m x).figures = m.figures) (xs : List α) (m : Mod) :
    (m.forAll f xs).figures = m.figures :=
  Mod.forAll_keeps (P := fun n => n.figures = m.figures) (fun n x hn => (h n x).trans hn) xs m rfl

theorem Mod.figures_foldl {α β : Type} (get : β → Mod) {f : β → α → β}
    (h : ∀ b x, (get (f b x)).figures = (get b).figures) (xs : List α) (b : β) :
    (get (xs.foldl f b)).figures = (get b).figures := by
  induction xs generalizing b with
  | nil => rfl
  | cons x xs ih => exact (ih _).trans (h b x)

section
variable {α β γ δ : Type}

theorem Mod.figures_foldl₂ {f : β × Mod → α → β × Mod} (h : ∀ b x, (f b x).2.figures = b.2.figures) (xs : List α)
    (b : β × Mod) : (xs.foldl f b).2.figures = b.2.figures :=
  Mod.figures_foldl (fun a => a.2) h xs b

theorem Mod.figures_foldl₃ {f : β × γ × Mod → α → β × γ × Mod} (h : ∀ b x, (f b x).2.2.figures = b.2.2.figures)
    (xs : List α) (b : β × γ × Mod) : (xs.foldl f b).2.2.figures = b.2.2.figures :=
  Mod.figures_foldl (fun a => a.2.2) h xs b

theorem Mod.figures_foldl₄ {f : β × γ × δ × Mod → α → β × γ × δ × Mod}
    (h : ∀ b x, (f b x).2.2.2.figures = b.2.2.2.figures) (xs : List α) (b : β × γ × δ × Mod) :
    (xs.foldl f b).2.2.2.figures = b.2.2.2.figures :=
  Mod.figures_foldl (fun a => a.2.2.2) h xs b

end

/-- A module that stands in the result of an operation has the figures that the operation leaves. -/
theorem Mod.figures_of_snd {α : Type} {m n : Mod} {a : α} {x : α × Mod} (h : x = (a, n)) (hx : x.2.figures = m.figures) :
    n.figures = m.figures := by
  subst h
  exact hx

theorem Mod.figures_of_snd₃ {α β : Type} {m n : Mod} {a : α} {b : β} {x : α × β × Mod} (h : x = (a, b, n))
    (hx : x.2.2.figures = m.figures) : n.figures = m.figures := by
  subst h
  exact hx

end Sys2Proof.Machine
end

section
/-!
PROOFS. What each operation of the module leaves of these figures: all but a few leave every one.
-/

namespace Sys2Proof.Machine
open Claims

/-! ### Ops -/

@[simp] theorem Mod.figures_modPart (m : Mod) (k : Nat) (f : Partition → Partition) :
    (m.modPart k f).figures = m.figures := by
  simp [Mod.modPart]
@[simp] theorem Mod.figures_modCtx (m : Mod) (k c : Nat) (f : Context → Context) : (m.modCtx k c f).figures = m.figures := by
  simp [Mod.modCtx]
@[simp] theorem Mod.figures_setChip (m : Mod) (off : Nat) (v : Word) : (m.setChip off v).figures = m.figures := by
  simp [Mod.setChip]
@[simp] theorem Mod.figures_setChipFld (m : Mod) (off hi lo v : Nat) : (m.setChipFld off hi lo v).figures = m.figures := by
  simp [Mod.setChipFld]
@[simp] theorem Mod.figures_chipFlag (m : Mod) (off i : Nat) : (m.chipFlag off i).figures = m.figures := by
  simp [Mod.chipFlag]
@[simp] theorem Mod.figures_chipCount (m : Mod) (off hi lo : Nat) (n : Nat) :
    (m.chipCount off hi lo n).figures = m.figures := by
  simp [Mod.chipCount]
@[simp] theorem Mod.figures_modPort (m : Mod) (p : Nat) (f : Port → Port) : (m.modPort p f).figures = m.figures := by
  simp [Mod.modPort]
@[simp] theorem Mod.figures_modLink (m : Mod) (n : Nat) (f : Link → Link) : (m.modLink n f).figures = m.figures := by
  simp [Mod.modLink]
@[simp] theorem Mod.figures_modKey (m : Mod) (i : Nat) (f : KeySlot → KeySlot) : (m.modKey i f).figures = m.figures := by
  simp [Mod.modKey]
@[simp] theorem Mod.figures_send (m : Mod) (x : Sent) : (m.send x).figures = m.figures := by simp [Mod.send]
@[simp] theorem Mod.figures_draw (m : Mod) : (m.draw).2.figures = m.figures := by simp [Mod.draw]
@[simp] theorem Mod.figures_chipCountSome (m : Mod) (off hi lo : Nat) : (m.chipCountSome off hi lo).figures = m.figures := by
  simp [Mod.chipCountSome]
@[simp] theorem Mod.figures_msix (m : Mod) (f : Fn) (v : Nat) : (m.msix f v).figures = m.figures := by simp [Mod.msix]
@[simp] theorem Mod.figures_msixPart (m : Mod) (k v : Nat) : (m.msixPart k v).figures = m.figures := by simp [Mod.msixPart]
@[simp] theorem Mod.figures_latchWaits (m : Mod) : (m.latchWaits).figures = m.figures := by simp [Mod.latchWaits]
@[simp] theorem Mod.figures_signals (m : Mod) (xs : List Signal) : (m.signals xs).figures = m.figures := by
  simp [Mod.signals]
@[simp] theorem Mod.figures_signal (m : Mod) (k e v : Nat) : (m.signal k e v).figures = m.figures := by simp [Mod.signal]
@[simp] theorem Mod.figures_pushRecord (m : Mod) (k c : Nat) (body : List Byte) (notify : Bool) :
    (m.pushRecord k c body notify).figures = m.figures := by
  simp [Mod.pushRecord]
@[simp] theorem Mod.figures_completeAll (m : Mod) (k c : Nat) (xs : List Ending) :
    (m.completeAll k c xs).figures = m.figures := by
  simp [Mod.completeAll]
@[simp] theorem Mod.figures_complete (m : Mod) (k c : Nat) (r : Raise) (status detail : Nat) :
    (m.complete k c r status detail).figures = m.figures := by
  simp [Mod.complete]
@[simp] theorem Mod.figures_releaseResv (m : Mod) (k c q : Nat) : (m.releaseResv k c q).figures = m.figures := by
  (unfold Mod.releaseResv; dsimp only; repeat' split) <;> simp
@[simp] theorem Mod.figures_setReadings (m : Mod) (r : Readings) : (m.setReadings r).figures = m.figures := by
  simp [Mod.setReadings, Mod.figures, Mod.bounds]
@[simp] theorem Mod.figures_noticePush (m : Mod) (k : Nat) (body : List Byte) :
    (m.noticePush k body).figures = m.figures := by
  simp [Mod.noticePush]
@[simp] theorem Mod.figures_notice (m : Mod) (k code resv obj state : Nat) :
    (m.notice k code resv obj state).figures = m.figures := by
  simp [Mod.notice]
@[simp] theorem Mod.figures_noticeAll (m : Mod) (code state : Nat) : (m.noticeAll code state).figures = m.figures := by
  simp [Mod.noticeAll]
@[simp] theorem Mod.figures_noticeLink (m : Mod) (n state : Nat) : (m.noticeLink n state).figures = m.figures := by
  simp [Mod.noticeLink]
@[simp] theorem Mod.figures_voidTrip (m : Mod) : (m.voidTrip).figures = m.figures := by simp [Mod.voidTrip]
@[simp] theorem Mod.figures_voidLane (m : Mod) (n : Nat) : (m.voidLane n).figures = m.figures := by simp [Mod.voidLane]
@[simp] theorem Mod.figures_keyUse (m : Mod) (slot ver : Nat) (u : KeyUse) : (m.keyUse slot ver u).figures = m.figures := by
  simp [Mod.keyUse]
@[simp] theorem Mod.figures_keyRelease (m : Mod) (f : KeyUse → Bool) : (m.keyRelease f).figures = m.figures := by
  simp [Mod.keyRelease]
@[simp] theorem Mod.figures_dropRun (m : Mod) (k c q : Nat) : (m.dropRun k c q).figures = m.figures := by simp [Mod.dropRun]
@[simp] theorem Mod.figures_within (m : Mod) (k c q : Nat) {f : Mod → Mod} (hf : ∀ n, (f n).figures = n.figures) :
    (m.within k c q f).figures = m.figures := by
  unfold Mod.within
  dsimp only
  split
  · exact hf m
  · split <;> simp [hf]
@[simp] theorem Mod.figures_noticeRaiseEnd (m : Mod) (k c : Nat) (r : Raise) :
    (m.noticeRaiseEnd k c r).figures = m.figures := by
  unfold Mod.noticeRaiseEnd; split <;> simp
@[simp] theorem Mod.figures_completeRun (m : Mod) (k c : Nat) (u : Run) (ending : Option (Nat × Nat)) :
    (m.completeRun k c u ending).figures = m.figures := by
  simp [Mod.completeRun]
@[simp] theorem Mod.figures_endRun (m : Mod) (k c status detail : Nat) :
    (m.endRun k c status detail).figures = m.figures := by
  unfold Mod.endRun; split <;> simp
@[simp] theorem Mod.figures_endQueue (m : Mod) (k c q status detail : Nat) :
    (m.endQueue k c q status detail).figures = m.figures := by
  simp [Mod.endQueue]
@[simp] theorem Mod.figures_endStarted (m : Mod) (k c status detail : Nat) :
    (m.endStarted k c status detail).figures = m.figures := by
  simp [Mod.endStarted]
@[simp] theorem Mod.figures_endCtx (m : Mod) (k c status detail : Nat) :
    (m.endCtx k c status detail).figures = m.figures := by
  simp [Mod.endCtx]
@[simp] theorem Mod.figures_markRun (m : Mod) (k c status detail : Nat) :
    (m.markRun k c status detail).figures = m.figures := by
  simp [Mod.markRun]

/-! ### Mailbox -/

@[simp] theorem Mod.figures_host (m : Mod) {f : Mod → Mod} (hf : ∀ n, (f n).figures = n.figures) :
    (m.host f).figures = m.figures := by simp [Mod.host, hf]
@[simp] theorem Mod.figures_config (m : Mod) {f : Mod → Mod} (hf : ∀ n, (f n).figures = n.figures) :
    (m.config f).figures = m.figures := by simp [Mod.config, hf]
@[simp] theorem Mod.figures_molique (m : Mod) {f : Mod → Mod} (hf : ∀ n, (f n).figures = n.figures) :
    (m.molique f).figures = m.figures := by simp [Mod.molique, hf]
@[simp] theorem Mod.figures_alive (m : Mod) {f : Mod → Mod} (hf : ∀ n, (f n).figures = n.figures) :
    (m.alive f).figures = m.figures := by simp [Mod.alive, hf]
@[simp] theorem Mod.figures_respond (m : Mod) (r : Request) (status detail : Nat) (payload : List Byte) :
    (m.respond r status detail payload).figures = m.figures := by
  unfold Mod.respond; split <;> simp
@[simp] theorem Mod.figures_finish (m : Mod) (r : Request) (status detail : Nat) (payload : List Byte) :
    (m.finish r status detail payload).figures = m.figures := by
  simp [Mod.finish]
@[simp] theorem Mod.figures_hold (m : Mod) (r : Request) : (m.hold r).figures = m.figures := by simp [Mod.hold]
@[simp] theorem Mod.figures_judge (m : Mod) (r : Request) (bad : Option (Nat × Nat)) {ok : Mod → Mod}
    (hf : ∀ n, (ok n).figures = n.figures) : (m.judge r bad ok).figures = m.figures := by
  unfold Mod.judge
  split <;> simp [hf]
@[simp] theorem Mod.figures_go (m : Mod) (f : Fn) : (m.go f).figures = m.figures := by simp [Mod.go]
@[simp] theorem Mod.figures_mctpRx (m : Mod) (msg : List Byte) : (m.mctpRx msg).figures = m.figures := by simp [Mod.mctpRx]

/-! ### ResetStart -/

@[simp] theorem Mod.figures_endWaiters (m : Mod) (k : Nat) : (m.endWaiters k).figures = m.figures := by
  refine Mod.figures_forAll (fun n j => Mod.figures_forAll (fun n e => Mod.figures_forAll (fun n q => ?_) ..) ..) ..
  simp
@[simp] theorem Mod.figures_apAbandon (m : Mod) (k : Nat) : (m.apAbandon k).figures = m.figures := by
  (unfold Mod.apAbandon; dsimp only; repeat' split) <;> simp
@[simp] theorem Mod.figures_startReset (m : Mod) (k cause cdetail : Nat) :
    (m.startReset k cause cdetail).figures = m.figures := by
  simp [Mod.startReset]

/-! ### Pcie -/

@[simp] theorem Mod.figures_issueRead (m : Mod) (fn : Fn) (dest : ReadUse) (addr len : Nat) :
    (m.issueRead fn dest addr len).figures = m.figures := by
  simp [Mod.issueRead]
@[simp] theorem Mod.figures_dropRead (m : Mod) (tag : Nat) : (m.dropRead tag).figures = m.figures := by simp [Mod.dropRead]
@[simp] theorem Mod.figures_orphanReads (m : Mod) (k ch : Nat) : (m.orphanReads k ch).figures = m.figures := by
  simp [Mod.orphanReads]
@[simp] theorem Mod.figures_lateCompletion (m : Mod) (tag : Nat) : (m.lateCompletion tag).figures = m.figures := by
  simp [Mod.lateCompletion]

/-! ### Boot -/

@[simp] theorem Mod.figures_bistResult (m : Mod) (failed : List Nat) : (m.bistResult failed).figures = m.figures := by
  simp [Mod.bistResult]
@[simp] theorem Mod.figures_fwReadNext (m : Mod) (l : FwLoad) : (m.fwReadNext l).figures = m.figures := by
  simp [Mod.fwReadNext]
@[simp] theorem Mod.figures_fwLoadPf (m : Mod) (r : Request) : (m.fwLoadPf r).figures = m.figures := by simp [Mod.fwLoadPf]

/-! ### Frames -/

@[simp] theorem Mod.figures_modRun (m : Mod) (k c : Nat) (f : Run → Run) : (m.modRun k c f).figures = m.figures := by
  simp [Mod.modRun]
@[simp] theorem Mod.figures_worked (m : Mod) (k c node member : Nat) : (m.worked k c node member).figures = m.figures := by
  simp [Mod.worked]
@[simp] theorem Mod.figures_ctxCreate (m : Mod) (r : Request) : (m.ctxCreate r).figures = m.figures := by
  simp [Mod.ctxCreate]

/-! ### Queues -/

@[simp] theorem Mod.figures_cplRetry (m : Mod) (k c : Nat) : (m.cplRetry k c).figures = m.figures := by simp [Mod.cplRetry]
@[simp] theorem Mod.figures_cplRdWrite (m : Mod) (k c : Nat) (value : Word) :
    (m.cplRdWrite k c value).figures = m.figures := by
  simp [Mod.cplRdWrite]
@[simp] theorem Mod.figures_noticeRdWrite (m : Mod) (k : Nat) (value : Word) :
    (m.noticeRdWrite k value).figures = m.figures := by
  simp [Mod.noticeRdWrite]
@[simp] theorem Mod.figures_noticeRetry (m : Mod) (k : Nat) : (m.noticeRetry k).figures = m.figures := by
  simp [Mod.noticeRetry]
@[simp] theorem Mod.figures_memClear (m : Mod) (k : Nat) : (m.memClear k).figures = m.figures := by simp [Mod.memClear]
@[simp] theorem Mod.figures_resvClose (m : Mod) (r : Request) : (m.resvClose r).figures = m.figures := by
  (unfold Mod.resvClose; dsimp only; repeat' split) <;> simp

/-! ### Governor -/

@[simp] theorem Mod.figures_setSuspended (m : Mod) (k i : Nat) (r : Reservation) (b : Bool) :
    (m.setSuspended k i r b).figures = m.figures := by
  simp [Mod.setSuspended]
@[simp] theorem Mod.figures_applyCap (m : Mod) : (m.applyCap).figures = m.figures := by simp [Mod.applyCap]

/-! ### Scratch -/

@[simp] theorem Mod.figures_scratchFinds (m : Mod) (k ti : Nat) (f : Footprint) (xs : List WordFind) :
    (m.scratchFinds k ti f xs).figures = m.figures := by
  simp [Mod.scratchFinds]
@[simp] theorem Mod.figures_scratchError (m : Mod) (k c : Nat) : (m.scratchError k c).figures = m.figures := by
  simp [Mod.scratchError]

/-! ### Array -/

@[simp] theorem Mod.figures_stalls (m : Mod) (k t : Nat) (beside : Bool) : (m.stalls k t beside).figures = m.figures := by
  simp [Mod.stalls]
@[simp] theorem Mod.figures_arrayPass (m : Mod) (k c : Nat) (w : UnitWork) : (m.arrayPass k c w).figures = m.figures := by
  (unfold Mod.arrayPass; dsimp only; repeat' split) <;> simp

/-! ### Vector -/

@[simp] theorem Mod.figures_vectorNode (m : Mod) (op k c node : Nat) (w : UnitWork) :
    (m.vectorNode op k c node w).figures = m.figures := by
  (unfold Mod.vectorNode; dsimp only; repeat' split) <;> simp

/-! ### Memory -/

@[simp] theorem Mod.figures_memCondition (m : Mod) (k chan : Nat) : (m.memCondition k chan).figures = m.figures := by
  simp [Mod.memCondition]
@[simp] theorem Mod.figures_eccError (m : Mod) (k g chan : Nat) (scrub : Bool) :
    (m.eccError k g chan scrub).figures = m.figures := by
  simp [Mod.eccError]
@[simp] theorem Mod.figures_memRead (m : Mod) (k key loc n : Nat) (e : Ecc) (unit : Bool) (chan : Option Nat) :
    (m.memRead k key loc n e unit chan).2.figures = m.figures := by
  (unfold Mod.memRead; dsimp only; repeat' split) <;> simp
@[simp] theorem Mod.figures_writeGranule (m : Mod) (k key loc : Nat) (bs : List Byte) (poison : Bool) (e : Ecc) :
    (m.writeGranule k key loc bs poison e).figures = m.figures := by
  (unfold Mod.writeGranule; dsimp only; repeat' split) <;> simp
@[simp] theorem Mod.figures_memWrite (m : Mod) (k key loc : Nat) (bs : List Byte) (bad : List Nat) (e : Ecc) :
    (m.memWrite k key loc bs bad e).figures = m.figures := by
  simp [Mod.memWrite]
@[simp] theorem Mod.figures_voidOwn (m : Mod) (k c : Nat) (r : Raise) (code obj : Nat) :
    (m.voidOwn k c r code obj).figures = m.figures := by
  unfold Mod.voidOwn; split <;> simp
@[simp] theorem Mod.figures_hostTraffic (m : Mod) (k n : Nat) : (m.hostTraffic k n).figures = m.figures := by
  refine (Mod.figures_forAll (fun n e => Mod.figures_forAll (fun n u => Mod.figures_forAll (fun n mb => ?_) ..) ..) ..).trans ?_ <;>
    simp
@[simp] theorem Mod.figures_bar2Read (m : Mod) (k off n : Nat) (e : Ecc) : (m.bar2Read k off n e).figures = m.figures := by
  refine (Mod.figures_hostTraffic ..).trans ((Mod.figures_mk _ (hvfs := rfl) ..).trans ?_)
  refine Mod.figures_foldl₄ (fun acc c => ?_) ..
  simp
@[simp] theorem Mod.figures_bar2Write (m : Mod) (k off : Nat) (data : List Byte) (e : Ecc) :
    (m.bar2Write k off data e).figures = m.figures := by
  refine (Mod.figures_hostTraffic ..).trans (Mod.figures_foldl₂ (fun acc c => ?_) ..)
  dsimp only
  split <;> simp
@[simp] theorem Mod.figures_patrolScrub (m : Mod) (k loc : Nat) (e : Ecc) : (m.patrolScrub k loc e).figures = m.figures := by
  unfold Mod.patrolScrub; split <;> simp

/-! ### Compress -/

@[simp] theorem Mod.figures_cmpEnable (m : Mod) (k r : Nat) (e : Ecc) : (m.cmpEnable k r e).figures = m.figures := by
  generalize hF : @Mod.cmpEnable = F
  delta Mod.cmpEnable at hF
  subst hF
  beta_reduce
  extract_lets p g there
  generalize hx : (if there = true then m.memRead k (m.memKey k) g.tbl 128 e true else ({ bytes := [], bad := [] }, m)) = x
  have hm : x.2.figures = m.figures := by
    subst hx
    split
    · simp
    · rfl
  obtain ⟨rd, n⟩ := x
  exact (Mod.figures_modPart n k _).trans hm
@[simp] theorem Mod.figures_cmpCtrlWrite (m : Mod) (k r : Nat) (value : Word) (e : Ecc) :
    (m.cmpCtrlWrite k r value e).figures = m.figures := by
  simp [Mod.cmpCtrlWrite]
@[simp] theorem Mod.figures_readBlock (m : Mod) (k key r b : Nat) (e de : Ecc) :
    (m.readBlock k key r b e de).2.figures = m.figures := by
  generalize hx : m.readBlock k key r b e de = x
  rw [Mod.readBlock.eq_unfold] at hx
  beta_reduce at hx
  extract_lets g slot chan dirAt at hx
  split at hx
  next ent m1 h1 =>
    rw [← Mod.figures_of_snd h1 (Mod.figures_memRead ..)]
    clear h1
    extract_lets n at hx
    split at hx
    next st m2 h2 =>
      rw [← Mod.figures_of_snd h2 (Mod.figures_memRead ..)]
      clear h2
      split at hx
      · rw [← hx]
      · split at hx
        · simp [← hx]
        · split at hx <;> simp [← hx]
@[simp] theorem Mod.figures_writeBlock (m : Mod) (k key r b : Nat) (bs : List Byte) (poison : Bool) (e : Ecc) :
    (m.writeBlock k key r b bs poison e).2.figures = m.figures := by
  simp [Mod.writeBlock]

/-! ### Sides -/

@[simp] theorem Mod.figures_scratchRead (m : Mod) (k t st a n : Nat) (e : Ecc) :
    (m.scratchRead k t st a n e).2.figures = m.figures := by
  (unfold Mod.scratchRead; dsimp only; repeat' split) <;> simp
@[simp] theorem Mod.figures_scratchWrite (m : Mod) (k t st a : Nat) (pc : Piece) :
    (m.scratchWrite k t st a pc).figures = m.figures := by
  simp [Mod.scratchWrite]
@[simp] theorem Mod.figures_readLocal (m : Mod) (k key kind v at' n : Nat) (e : UnitEcc) :
    (m.readLocal k key kind v at' n e).2.figures = m.figures := by
  rw [Mod.readLocal.eq_unfold]
  beta_reduce
  split
  · extract_lets loc r
    split
    · split
      next b n h => exact Mod.figures_of_snd h (Mod.figures_readBlock ..)
    · split
      next rd n h => exact Mod.figures_of_snd h (Mod.figures_memRead ..)
  · exact Mod.figures_scratchRead ..
@[simp] theorem Mod.figures_writeLocal (m : Mod) (k key kind v at' : Nat) (pc : Piece) (de : Ecc) :
    (m.writeLocal k key kind v at' pc de).2.figures = m.figures := by
  (unfold Mod.writeLocal; dsimp only; repeat' split) <;> simp
@[simp] theorem Mod.figures_hostWrites (m : Mod) (addr : Nat) (pc : Piece) : (m.hostWrites addr pc).figures = m.figures := by
  simp [Mod.hostWrites]

/-! ### Pages -/

@[simp] theorem Mod.figures_readPage (m : Mod) (k t : Nat) (b : List Byte) (member : Nat) (g : PageDesc) (at' n : Nat) (e : Ecc) :
    (m.readPage k t b member g at' n e).2.figures = m.figures := by
  refine (Mod.figures_foldl₃ (fun acc i => ?_) ..).trans ?_ <;> simp
@[simp] theorem Mod.figures_writePage (m : Mod) (k t key : Nat) (b : List Byte) (member : Nat) (g : PageDesc)
    (at' n : Nat) (e : Ecc) :
    (m.writePage k t key b member g at' n e).2.figures = m.figures := by
  (unfold Mod.writePage; dsimp only; repeat' split) <;> simp

/-! ### Trees -/

@[simp] theorem Mod.figures_unitRec (m : Mod) (k key : Nat) (mb : Member) (peg : Nat) (e : Ecc) :
    (m.unitRec k key mb peg e).2.2.figures = m.figures := by
  simp [Mod.unitRec]
@[simp] theorem Mod.figures_maskUnit (m : Mod) (k key : Nat) (d : Desc) (at' n : Nat) (e : Ecc) :
    (m.maskUnit k key d at' n e).2.figures = m.figures := by
  (unfold Mod.maskUnit; dsimp only; repeat' split) <;> simp
@[simp] theorem Mod.figures_acceptUnit (m : Mod) (k key : Nat) (d : Desc) (at' : Nat) (e : UnitEcc) :
    (m.acceptUnit k key d at' e).2.2.figures = m.figures := by
  (unfold Mod.acceptUnit; dsimp only; repeat' split) <;> simp

/-! ### Dma -/

@[simp] theorem Mod.figures_winCtrlWrite (m : Mod) (k w : Nat) (value : Word) :
    (m.winCtrlWrite k w value).figures = m.figures := by
  simp [Mod.winCtrlWrite]
@[simp] theorem Mod.figures_readSide (m : Mod) (k ch : Nat) (d : Desc) (at' n : Nat) (e : UnitEcc) :
    (m.readSide k ch d at' n e).2.figures = m.figures := by
  unfold Mod.readSide; split <;> simp
@[simp] theorem Mod.figures_writeSide (m : Mod) (k ch : Nat) (d : Desc) (at' : Nat) (pc : Piece) (e : UnitEcc) :
    (m.writeSide k ch d at' pc e).2.figures = m.figures := by
  unfold Mod.writeSide; split <;> simp
@[simp] theorem Mod.figures_moveSides (m : Mod) (k ch : Nat) (d : Desc) (at' n : Nat) (e : UnitEcc) :
    (m.moveSides k ch d at' n e).2.2.figures = m.figures := by
  (unfold Mod.moveSides; dsimp only; repeat' split) <;> simp
@[simp] theorem Mod.figures_moveUnit (m : Mod) (k ch : Nat) (d : Desc) (at' : Nat) (e : UnitEcc) :
    (m.moveUnit k ch d at' e).2.2.figures = m.figures := by
  (unfold Mod.moveUnit; dsimp only; repeat' split) <;> simp
@[simp] theorem Mod.figures_dmaKeyEnd (m : Mod) (k ch : Nat) : (m.dmaKeyEnd k ch).figures = m.figures := by
  simp [Mod.dmaKeyEnd]
@[simp] theorem Mod.figures_ownerFails (m : Mod) (k ch : Nat) (d : Desc) (status detail : Nat) :
    (m.ownerFails k ch d status detail).figures = m.figures := by
  unfold Mod.ownerFails; split <;> simp
@[simp] theorem Mod.figures_descDone (m : Mod) (k ch : Nat) (d : Desc) : (m.descDone k ch d).figures = m.figures := by
  unfold Mod.descDone; split <;> simp
@[simp] theorem Mod.figures_poisonRaise (m : Mod) (k : Nat) (d : Desc) (detail : Nat) :
    (m.poisonRaise k d detail).figures = m.figures := by
  unfold Mod.poisonRaise; split <;> simp
@[simp] theorem Mod.figures_issueAhead (m : Mod) (k ch : Nat) : (m.issueAhead k ch).figures = m.figures := by
  (unfold Mod.issueAhead; dsimp only; repeat' split) <;> simp
@[simp] theorem Mod.figures_dropHead (m : Mod) (k ch : Nat) (stuck : Bool) : (m.dropHead k ch stuck).figures = m.figures := by
  unfold Mod.dropHead
  extract_lets m1 h m2
  have h1 : m1.figures = m.figures := by
    unfold m1
    split <;> simp
  split
  · exact h1
  next d _ =>
    extract_lets n free
    have h2 : m2.figures = m.figures := (Mod.figures_orphanReads ..).trans h1
    clear_value m2
    generalize hx : (if free = 0 then (0, m2) else m2.draw) = x
    have h3 : x.2.figures = m2.figures := by
      subst hx
      split <;> simp
    obtain ⟨y, m3⟩ := x
    refine (Mod.figures_modPart _ _ _).trans ((Mod.figures_dmaKeyEnd _ _ _).trans ?_)
    refine (Mod.figures_foldl₃ (fun acc i => ?_) _ _).trans (h3.trans h2)
    dsimp only
    split
    · exact Mod.figures_moveUnit ..
    · rfl
@[simp] theorem Mod.figures_engineStops (m : Mod) (k ch cause : Nat) (host : Bool) (unit : Nat) :
    (m.engineStops k ch cause host unit).figures = m.figures := by
  simp [Mod.engineStops]
@[simp] theorem Mod.figures_busError (m : Mod) (k ch cause : Nat) : (m.busError k ch cause).figures = m.figures := by
  (unfold Mod.busError; dsimp only; repeat' split) <;> simp
@[simp] theorem Mod.figures_latchKey (m : Mod) (k ch : Nat) (d : Desc) : (m.latchKey k ch d).figures = m.figures := by
  unfold Mod.latchKey
  split
  · split <;> simp
  · rfl
@[simp] theorem Mod.figures_unitStep (m : Mod) (k ch : Nat) (d : Desc) (e : UnitEcc) :
    (m.unitStep k ch d e).2.figures = m.figures := by
  (unfold Mod.unitStep; dsimp only; repeat' split) <;> simp
@[simp] theorem Mod.figures_pushDesc (m : Mod) (k ch : Nat) (d : Desc) : (m.pushDesc k ch d).figures = m.figures := by
  simp [Mod.pushDesc]
@[simp] theorem Mod.figures_chDisable (m : Mod) (k ch : Nat) : (m.chDisable k ch).figures = m.figures := by
  simp [Mod.chDisable]

/-! ### Seq -/

@[simp] theorem Mod.figures_readEntry (m : Mod) (k h : Nat) (e : Ecc) : (m.readEntry k h e).2.2.figures = m.figures := by
  simp [Mod.readEntry]
@[simp] theorem Mod.figures_writeEntry (m : Mod) (k h lc lt : Nat) (slc : Option Nat) :
    (m.writeEntry k h lc lt slc).figures = m.figures := by
  simp [Mod.writeEntry]
@[simp] theorem Mod.figures_readTable (m : Mod) (k : Nat) (s : SeqEntry) (shadow : Bool) (idxs : List Nat) (e : Ecc) :
    (m.readTable k s shadow idxs e).2.figures = m.figures := by
  refine Mod.figures_foldl₄ (fun acc i => ?_) ..
  simp
@[simp] theorem Mod.figures_tokenRows (m : Mod) (k : Nat) (en : SeqEntry) (pages : List Nat) (a b : Nat) :
    (m.tokenRows k en pages a b).2.2.figures = m.figures := by
  refine Mod.figures_foldl₃ (fun acc i => ?_) ..
  simp

/-! ### LinkBase -/

@[simp] theorem Mod.figures_modPath (m : Mod) (pid : Nat) (f : Path → Path) : (m.modPath pid f).figures = m.figures := by
  simp [Mod.modPath]
@[simp] theorem Mod.figures_fecCount (m : Mod) (n : Nat) : (m.fecCount n).figures = m.figures := by simp [Mod.fecCount]
@[simp] theorem Mod.figures_frameMsg (m : Mod) (n : Nat) (f : OutFrame) : (m.frameMsg n f).2.figures = m.figures := by
  unfold Mod.frameMsg; split <;> simp
@[simp] theorem Mod.figures_placeFrame (m : Mod) (n : Nat) (f : OutFrame) : (m.placeFrame n f).figures = m.figures := by
  (unfold Mod.placeFrame; dsimp only; repeat' split) <;> simp
@[simp] theorem Mod.figures_linkPump (m : Mod) (n : Nat) : (m.linkPump n).figures = m.figures := by
  refine Mod.figures_forAll (fun m _ => ?_) ..
  dsimp only
  split
  · rfl
  · split <;> simp
@[simp] theorem Mod.figures_portPump (m : Mod) (p : Nat) : (m.portPump p).figures = m.figures := by
  refine Mod.figures_forAll (fun m _ => ?_) ..
  dsimp only
  split
  · split <;> simp
  · rfl
@[simp] theorem Mod.figures_bindStep (m : Mod) (i b : Nat) : (m.bindStep i b).figures = m.figures := by
  unfold Mod.bindStep
  split
  · rfl
  · split
    · split <;> simp
    · rfl
@[simp] theorem Mod.figures_bindPump (m : Mod) (i : Nat) : (m.bindPump i).figures = m.figures := by
  unfold Mod.bindPump; split <;> simp
@[simp] theorem Mod.figures_pump (m : Mod) (n : Nat) : (m.pump n).figures = m.figures := by
  (unfold Mod.pump; dsimp only; repeat' split) <;> simp
@[simp] theorem Mod.figures_queueFrames (m : Mod) (n : Nat) (fs : List OutFrame) :
    (m.queueFrames n fs).figures = m.figures := by
  simp [Mod.queueFrames]
@[simp] theorem Mod.figures_pathFrames (m : Mod) (p : Path) (fs : List OutFrame) :
    (m.pathFrames p fs).figures = m.figures := by
  simp [Mod.pathFrames]
@[simp] theorem Mod.figures_dropFrames (m : Mod) (f : OutFrame → Bool) : (m.dropFrames f).figures = m.figures := by
  simp [Mod.dropFrames]
@[simp] theorem Mod.figures_resend (m : Mod) (n : Nat) (f : LinkFrame × Nat → Bool) :
    (m.resend n f).figures = m.figures := by
  simp [Mod.resend]
@[simp] theorem Mod.figures_resumeLink (m : Mod) (n : Nat) : (m.resumeLink n).figures = m.figures := by simp [Mod.resumeLink]
@[simp] theorem Mod.figures_arbRecord (m : Mod) (a : Arbiter) : (m.arbRecord a).figures = m.figures := by
  unfold Mod.arbRecord; split <;> simp
@[simp] theorem Mod.figures_sendLane (m : Mod) (n : Nat) (widen ack quiet : Bool) :
    (m.sendLane n widen ack quiet).figures = m.figures := by
  simp [Mod.sendLane]
@[simp] theorem Mod.figures_endTransfers (m : Mod) (sel : Nat → Bool) (status : Nat) (detail : Nat → Nat) :
    (m.endTransfers sel status detail).figures = m.figures := by
  refine Mod.figures_forAll (fun m p => Mod.figures_forAll (fun m x => Mod.figures_forAll (fun m u => ?_) ..) ..) ..
  dsimp only
  split
  · rfl
  · exact Mod.figures_within _ _ _ _ fun n => by simp
@[simp] theorem Mod.figures_closePath (m : Mod) (pid : Nat) : (m.closePath pid).figures = m.figures := by
  simp [Mod.closePath]
@[simp] theorem Mod.figures_watchLinks (m : Mod) (k : Nat) : (m.watchLinks k).figures = m.figures := by simp [Mod.watchLinks]
@[simp] theorem Mod.figures_rewatch (m : Mod) (k c node member : Nat) : (m.rewatch k c node member).figures = m.figures := by
  simp [Mod.rewatch]

/-! ### Jobs -/

@[simp] theorem Mod.figures_linkGrant (m : Mod) (r : Request) : (m.linkGrant r).figures = m.figures := by
  simp [Mod.linkGrant]
@[simp] theorem Mod.figures_grantComplete (m : Mod) (job : Nat) : (m.grantComplete job).figures = m.figures := by
  (unfold Mod.grantComplete; dsimp only; repeat' split) <;> simp
@[simp] theorem Mod.figures_linkRelease (m : Mod) (r : Request) : (m.linkRelease r).figures = m.figures := by
  refine Mod.figures_judge _ _ _ fun m => ?_
  dsimp only
  split <;> simp

/-! ### Transfers -/

@[simp] theorem Mod.figures_linkBusError (m : Mod) (k c node member ch cause : Nat) :
    (m.linkBusError k c node member ch cause).figures = m.figures := by
  simp [Mod.linkBusError]
@[simp] theorem Mod.figures_linkHalves (m : Mod) (k c node member : Nat) :
    (m.linkHalves k c node member).figures = m.figures := by
  unfold Mod.linkHalves; split <;> simp
@[simp] theorem Mod.figures_sealMessage (m : Mod) (k : Nat) (d : Desc) (pid first : Nat) (send : Nat × Nat) (key : List Byte)
    (iv : Nat → List Byte) (e : UnitEcc) : (m.sealMessage k d pid first send key iv e).2.figures = m.figures := by
  refine Mod.figures_foldl₂ (fun acc i => ?_) ..
  split
  · rfl
  · dsimp only
    split <;> simp
@[simp] theorem Mod.figures_sendLatch (m : Mod) (k c node member job : Nat) :
    (m.sendLatch k c node member job).2.figures = m.figures := by
  (unfold Mod.sendLatch; dsimp only; repeat' split) <;> simp
@[simp] theorem Mod.figures_sendStart (m : Mod) (k c node member : Nat) (b : List Byte) :
    (m.sendStart k c node member b).figures = m.figures := by
  unfold Mod.sendStart
  split
  · rfl
  next p _ =>
    have hlatch := m.figures_sendLatch k c node member p.job
    split
    next n h => exact Mod.figures_of_snd h hlatch
    next n h => simpa using Mod.figures_of_snd h hlatch
@[simp] theorem Mod.figures_sendFrames (m : Mod) (k c node member : Nat) (p : Path) (b : List Byte) (d : Desc) (x : Sealed) :
    (m.sendFrames k c node member p b d x).figures = m.figures := by
  unfold Mod.sendFrames; split <;> simp
@[simp] theorem Mod.figures_sendHalf (m : Mod) (k c node member : Nat) (u : Run) (img : List Byte) (mb : Member) (e : UnitEcc) :
    (m.sendHalf k c node member u img mb e).figures = m.figures := by
  unfold Mod.sendHalf
  dsimp only
  split
  · rfl
  · split
    · rfl
    next p _ =>
      have hlatch := m.figures_sendLatch k c node member p.job
      split
      · rfl
      · split
        · simp
        · split
          next n h => simpa using Mod.figures_of_snd h hlatch
          next v n h =>
            rw [← Mod.figures_of_snd h hlatch]
            repeat' split
            all_goals simp
@[simp] theorem Mod.figures_armEnds (m : Mod) (k : Nat) (a : Arm) (status detail : Nat) :
    (m.armEnds k a status detail).figures = m.figures := by
  simp [Mod.armEnds]
@[simp] theorem Mod.figures_matchOne (m : Mod) (pid : Nat) : (m.matchOne pid).figures = m.figures := by
  (unfold Mod.matchOne; dsimp only; repeat' split) <;> simp
@[simp] theorem Mod.figures_dirFinds (m : Mod) (d : Desc) : (m.dirFinds d).2.figures = m.figures := by
  unfold Mod.dirFinds; split <;> simp
@[simp] theorem Mod.figures_writeSegment (m : Mod) (k : Nat) (a : Arm) (i : Nat) (bs : List Byte) (bad : Option Nat) :
    (m.writeSegment k a i bs bad).figures = m.figures := by
  (unfold Mod.writeSegment; dsimp only; repeat' split) <;> simp
@[simp] theorem Mod.figures_openOne (m : Mod) (pid : Nat) : (m.openOne pid).figures = m.figures := by
  (unfold Mod.openOne; dsimp only; repeat' split) <;> simp
@[simp] theorem Mod.figures_pathAdvance (m : Mod) (pid : Nat) : (m.pathAdvance pid).figures = m.figures := by
  (unfold Mod.pathAdvance; dsimp only; repeat' split) <;> simp
@[simp] theorem Mod.figures_advanceAll (m : Mod) (k : Nat) : (m.advanceAll k).figures = m.figures := by simp [Mod.advanceAll]
@[simp] theorem Mod.figures_armReceive (m : Mod) (k c q node member : Nat) (b : List Byte) :
    (m.armReceive k c q node member b).figures = m.figures := by
  (unfold Mod.armReceive; dsimp only; repeat' split) <;> simp
@[simp] theorem Mod.figures_deliver (m : Mod) (n : Nat) (f : LinkFrame) : (m.deliver n f).figures = m.figures := by
  (unfold Mod.deliver; dsimp only; repeat' split) <;> simp
@[simp] theorem Mod.figures_drainAhead (m : Mod) (n : Nat) : (m.drainAhead n).figures = m.figures := by
  refine Mod.figures_forAll (fun m _ => ?_) ..
  dsimp only
  split <;> simp
@[simp] theorem Mod.figures_frameRx (m : Mod) (n : Nat) (f : LinkFrame) : (m.frameRx n f).figures = m.figures := by
  simp [Mod.frameRx]
@[simp] theorem Mod.figures_msgRx (m : Mod) (n pid tag len seq : Nat) : (m.msgRx n pid tag len seq).figures = m.figures := by
  (unfold Mod.msgRx; dsimp only; repeat' split) <;> simp

/-! ### Sister -/

@[simp] theorem Mod.figures_modBind (m : Mod) (b : Nat) (f : Binding → Binding) : (m.modBind b f).figures = m.figures := by
  simp [Mod.modBind]
@[simp] theorem Mod.figures_commitEntry (m : Mod) (k : Nat) (w : MirrorWait) : (m.commitEntry k w).figures = m.figures := by
  simp [Mod.commitEntry]
@[simp] theorem Mod.figures_releaseWaits (m : Mod) (mask : Nat) : (m.releaseWaits mask).figures = m.figures := by
  simp [Mod.releaseWaits]
@[simp] theorem Mod.figures_bindSignal (m : Mod) (b : Binding) (t : Dword) : (m.bindSignal b t).figures = m.figures := by
  simp [Mod.bindSignal]
@[simp] theorem Mod.figures_sisterSend (m : Mod) (b part : Nat) (msg : List Byte) (bad : List Nat)
    {put : Mod → List OutFrame → Mod} (hf : ∀ n fs, (put n fs).figures = n.figures) :
    (m.sisterSend b part msg bad put).figures = m.figures := by
  unfold Mod.sisterSend
  split
  · rfl
  · split <;> simp [hf]
@[simp] theorem Mod.figures_sisterQueue (m : Mod) (b part : Nat) (msg : List Byte) (bad : List Nat) :
    (m.sisterQueue b part msg bad).figures = m.figures := by
  simp [Mod.sisterQueue]
@[simp] theorem Mod.figures_breakBind (m : Mod) (b cause : Nat) (tell : Bool) :
    (m.breakBind b cause tell).figures = m.figures := by
  unfold Mod.breakBind; split <;> simp
@[simp] theorem Mod.figures_endBind (m : Mod) (b status : Nat) : (m.endBind b status).figures = m.figures := by
  (unfold Mod.endBind; dsimp only; repeat' split) <;> simp
@[simp] theorem Mod.figures_sisterBind (m : Mod) (r : Request) : (m.sisterBind r).figures = m.figures := by
  simp [Mod.sisterBind]
@[simp] theorem Mod.figures_flushBind (m : Mod) (b : Nat) : (m.flushBind b).figures = m.figures := by
  unfold Mod.flushBind; split <;> simp
@[simp] theorem Mod.figures_sisterUnbind (m : Mod) (r : Request) : (m.sisterUnbind r).figures = m.figures := by
  (unfold Mod.sisterUnbind; dsimp only; repeat' split) <;> simp
@[simp] theorem Mod.figures_settle (m : Mod) (b : Nat) : (m.settle b).figures = m.figures := by
  unfold Mod.settle
  split
  · rfl
  · split <;> simp
@[simp] theorem Mod.figures_sisterTakeover (m : Mod) (r : Request) : (m.sisterTakeover r).figures = m.figures := by
  simp [Mod.sisterTakeover]
@[simp] theorem Mod.figures_heartbeatRx (m : Mod) (b : Nat) (epoch : Word) :
    (m.heartbeatRx b epoch).figures = m.figures := by
  (unfold Mod.heartbeatRx; dsimp only; repeat' split) <;> simp
@[simp] theorem Mod.figures_mirrorCommit (m : Mod) (k : Nat) (w : MirrorWait) (old : Nat) (en : SeqEntry)
    (pages : List Nat) (acc : Option (Nat × List Byte)) :
    (m.mirrorCommit k w old en pages acc).figures = m.figures := by
  unfold Mod.mirrorCommit; split <;> simp
@[simp] theorem Mod.figures_ackRx (m : Mod) (b k : Nat) : (m.ackRx b k).figures = m.figures := by
  (unfold Mod.ackRx; dsimp only; repeat' split) <;> simp
@[simp] theorem Mod.figures_applyPages (m : Mod) (k : Nat) (en : SeqEntry) (old new : Nat) (e : ApplyEcc) :
    (m.applyPages k en old new e).2.figures = m.figures := by
  rw [Mod.applyPages.eq_unfold]
  beta_reduce
  extract_lets idxs find
  split
  next near n h =>
    rw [← Mod.figures_of_snd h (Mod.figures_readTable ..)]
    generalize hx : (if en.shadow = true then n.readTable k en true idxs e.shadow else (some [], n)) = x
    have hm : x.2.figures = n.figures := by
      subst hx
      split
      · simp
      · rfl
    rw [← hm]
    obtain ⟨shad, n⟩ := x
    dsimp only
    split <;> rfl
@[simp] theorem Mod.figures_writeRows (m : Mod) (k tw a : Nat) (pages : List Nat) (rows : List Byte) :
    (m.writeRows k tw a pages rows).figures = m.figures := by
  simp [Mod.writeRows]
@[simp] theorem Mod.figures_applyWrites (m : Mod) (b k : Nat) (en : SeqEntry) (msg : List Byte) (near shad : List Nat) :
    (m.applyWrites b k en msg near shad).figures = m.figures := by
  simp [Mod.applyWrites]
@[simp] theorem Mod.figures_commitApply (m : Mod) (b : Nat) (r : SisterMsg) (e : ApplyEcc) :
    (m.commitApply b r e).figures = m.figures := by
  rw [Mod.commitApply.eq_unfold]
  beta_reduce
  extract_lets discard
  have hdiscard (n : Mod) : (discard n).figures = n.figures := by simp [discard]
  clear_value discard
  split
  · exact hdiscard m
  · split
    · exact hdiscard m
    · split
      · simp
      next msg _ =>
        extract_lets k seq
        split
        · exact hdiscard m
        · split
          · simp
          · split
            next en lost m1 h1 =>
              rw [← Mod.figures_of_snd₃ h1 (Mod.figures_readEntry ..)]
              split
              · simp
              · split
                next n h => simpa using Mod.figures_of_snd h (Mod.figures_applyPages ..)
                next n h => simpa using Mod.figures_of_snd h (Mod.figures_applyPages ..)

/-! ### Lanes -/

@[simp] theorem Mod.figures_placeLink (m : Mod) (n : Nat) : (m.placeLink n).figures = m.figures := by
  unfold Mod.placeLink; split <;> simp
@[simp] theorem Mod.figures_sendIdentity (m : Mod) (n : Nat) : (m.sendIdentity n).figures = m.figures := by
  simp [Mod.sendIdentity]
@[simp] theorem Mod.figures_placeAll (m : Mod) : (m.placeAll).figures = m.figures := by simp [Mod.placeAll]
@[simp] theorem Mod.figures_lanesChanged (m : Mod) (n : Nat) (was : Bool) : (m.lanesChanged n was).figures = m.figures := by
  simp [Mod.lanesChanged]
@[simp] theorem Mod.figures_linkTrain (m : Mod) (n : Nat) (q : LinkPartner) : (m.linkTrain n q).figures = m.figures := by
  (unfold Mod.linkTrain; dsimp only; repeat' split) <;> simp
@[simp] theorem Mod.figures_sendNaks (m : Mod) (n : Nat) (seqs : List Nat) : (m.sendNaks n seqs).figures = m.figures := by
  simp [Mod.sendNaks]
@[simp] theorem Mod.figures_laneLoss (m : Mod) (n i : Nat) : (m.laneLoss n i).figures = m.figures := by simp [Mod.laneLoss]
@[simp] theorem Mod.figures_laneBad (m : Mod) (n i : Nat) : (m.laneBad n i).figures = m.figures := by simp [Mod.laneBad]
@[simp] theorem Mod.figures_linkWiden (m : Mod) (n : Nat) : (m.linkWiden n).figures = m.figures := by simp [Mod.linkWiden]
@[simp] theorem Mod.figures_heldRelease (m : Mod) (n : Nat) : (m.heldRelease n).figures = m.figures := by
  simp [Mod.heldRelease]

/-! ### TimeSync -/

@[simp] theorem Mod.figures_chooseParent (m : Mod) : (m.chooseParent).figures = m.figures := by simp [Mod.chooseParent]
@[simp] theorem Mod.figures_timeExchange (m : Mod) (t1 t2 t3 t4 skew : Int) :
    (m.timeExchange t1 t2 t3 t4 skew).figures = m.figures := by
  simp [Mod.timeExchange]
@[simp] theorem Mod.figures_timeAnswer (m : Mod) (n : Nat) (t1 t2 t3 : Int) :
    (m.timeAnswer n t1 t2 t3).figures = m.figures := by
  simp [Mod.timeAnswer]
@[simp] theorem Mod.figures_timeSetCommit (m : Mod) (f : Fn) (hi : Word) : (m.timeSetCommit f hi).figures = m.figures := by
  simp [Mod.timeSetCommit]

/-! ### Kv -/

@[simp] theorem Mod.figures_walkFails (m : Mod) (k c node member status detail : Nat) :
    (m.walkFails k c node member status detail).figures = m.figures := by
  simp [Mod.walkFails]
@[simp] theorem Mod.figures_pageFails (m : Mod) (k c node member : Nat) (f : PageFind) (isRead : Bool) :
    (m.pageFails k c node member f isRead).figures = m.figures := by
  unfold Mod.pageFails; split <;> simp
@[simp] theorem Mod.figures_pushAll (m : Mod) (k ch c node member : Nat) (ds : List Desc) :
    (m.pushAll k ch c node member ds).figures = m.figures := by
  simp [Mod.pushAll]
@[simp] theorem Mod.figures_kvRead (m : Mod) (k c node member : Nat) (u : Run) (img : List Byte) (e : Ecc) :
    (m.kvRead k c node member u img e).figures = m.figures := by
  rw [Mod.kvRead.eq_unfold]
  beta_reduce
  extract_lets b
  split
  · rfl
  · split
    next en lost m1 h1 =>
      rw [← Mod.figures_of_snd₃ h1 (Mod.figures_readEntry ..)]
      extract_lets globs
      split
      · simp
      · split <;> simp
@[simp] theorem Mod.figures_kvAppend (m : Mod) (k c node member : Nat) (u : Run) (img : List Byte) (e : Ecc) :
    (m.kvAppend k c node member u img e).figures = m.figures := by
  rw [Mod.kvAppend.eq_unfold]
  beta_reduce
  extract_lets b ch commit
  split
  · rfl
  · split
    next en lost m1 h1 =>
      rw [← Mod.figures_of_snd₃ h1 (Mod.figures_readEntry ..)]
      extract_lets n full
      split
      · simp
      · split
        · simp
        · split
          · exact Mod.figures_pageFails ..
          · split <;> simp
@[simp] theorem Mod.figures_appendDone (m : Mod) (k c node member : Nat) (u : Run) (b : List Byte) (g : PageDesc) :
    (m.appendDone k c node member u b g).figures = m.figures := by
  simp [Mod.appendDone]
@[simp] theorem Mod.figures_pageEnd (m : Mod) (k c node member : Nat) (g : PageDesc) :
    (m.pageEnd k c node member g).figures = m.figures := by
  unfold Mod.pageEnd; split <;> simp

/-! ### Spec -/

@[simp] theorem Mod.figures_badRecord (m : Mod) (k peg : Nat) : (m.badRecord k peg).2.figures = m.figures := by
  simp [Mod.badRecord]
@[simp] theorem Mod.figures_recordStart (m : Mod) (k c i : Nat) (img : List Byte) (mb : Member) (peg n : Nat)
    (write : Bool) :
    (m.recordStart k c i img mb peg n write).2.figures = m.figures := by
  (unfold Mod.recordStart; dsimp only; repeat' split) <;> simp
theorem Mod.figures_firstFails {fs : List (Mod → Option (Nat × Nat) × Mod)}
    (hf : ∀ f ∈ fs, ∀ n, (f n).2.figures = n.figures) (m : Mod) : (m.firstFails fs).2.figures = m.figures := by
  induction fs generalizing m with
  | nil => rfl
  | cons f fs ih =>
    have hm := hf f (by simp) m
    rw [Mod.firstFails]
    split
    next n h => exact (ih (fun g hg => hf g (by simp [hg])) n).trans (Mod.figures_of_snd h hm)
    · exact hm
@[simp] theorem Mod.figures_treeStart (m : Mod) (k c : Nat) (img : List Byte) (mb : Member) (e : Ecc) :
    (m.treeStart k c img mb e).2.2.figures = m.figures := by
  generalize hx : m.treeStart k c img mb e = x
  rw [Mod.treeStart.eq_unfold] at hx
  beta_reduce at hx
  split at hx
  · rw [← hx]
  · extract_lets b acc at hx
    clear_value acc
    split at hx
    next f n h =>
      rw [← hx]
      refine Mod.figures_of_snd h (Mod.figures_firstFails ?_ m)
      cases acc <;> simp
    next n h =>
      have hn : n.figures = m.figures := by
        refine Mod.figures_of_snd h (Mod.figures_firstFails ?_ m)
        cases acc <;> simp
      rw [← hn]
      clear h hn
      extract_lets key at hx
      generalize hprev : (if specChain b = true then n.unitRec k key mb (specPrev b) e else ([], false, n)) = y at hx
      have hy : y.2.2.figures = n.figures := by
        subst hprev
        split
        · exact Mod.figures_unitRec ..
        · rfl
      clear hprev
      generalize (if specChain b = true then Ecc.clean else e) = e' at hx
      split at hx
      next prev lost1 n1 =>
      rw [← hy]
      split at hx
      next tree lost2 n2 h =>
        rw [← Mod.figures_of_snd₃ h (Mod.figures_unitRec ..)]
        clear h
        split at hx
        · rw [← hx]
        · split at hx
          · rw [← hx]
            exact Mod.figures_badRecord n2 k (specPrev b)
          · split at hx
            · rw [← hx]
              exact Mod.figures_badRecord n2 k (specTree b)
            · rw [← hx]
              dsimp only
              split <;> simp
@[simp] theorem Mod.figures_reconcileStart (m : Mod) (k c : Nat) (img : List Byte) (mb : Member) (member : Nat) (e : Ecc) :
    (m.reconcileStart k c img mb member e).2.2.figures = m.figures := by
  refine Mod.figures_foldl₃ (fun acc i => ?_) ..
  extract_lets b
  split
  · rfl
  · split
    next f n h => exact Mod.figures_of_snd h (Mod.figures_firstFails (by simp) _)
    next n h =>
      rw [← Mod.figures_of_snd h (Mod.figures_firstFails (by simp) _)]
      clear h
      extract_lets key
      split
      next a lost1 n1 h1 =>
        rw [← Mod.figures_of_snd₃ h1 (Mod.figures_unitRec ..)]
        clear h1
        split
        next g lost2 n2 h2 =>
          rw [← Mod.figures_of_snd₃ h2 (Mod.figures_unitRec ..)]
          clear h2
          split
          · rfl
          · split
            · exact Mod.figures_badRecord n2 k (specPrev b)
            · split
              · exact Mod.figures_badRecord n2 k (specAcc b)
              · rfl
@[simp] theorem Mod.figures_specAct (m : Mod) (k c node member op : Nat) {f : Mod → Run → List Byte → Member → Mod}
    (hf : ∀ n u img mb, (f n u img mb).figures = n.figures) : (m.specAct k c node member op f).figures = m.figures := by
  unfold Mod.specAct
  split
  · rfl
  · split
    · rfl
    · exact hf ..
@[simp] theorem Mod.figures_specMask (m : Mod) (k c node member : Nat) (u : Run) (img : List Byte) (mb : Member) :
    (m.specMask k c node member u img mb).figures = m.figures := by
  simp [Mod.specMask]
@[simp] theorem Mod.figures_specAccept (m : Mod) (k c node member : Nat) (u : Run) (img : List Byte) (mb : Member) :
    (m.specAccept k c node member u img mb).figures = m.figures := by
  simp [Mod.specAccept]
@[simp] theorem Mod.figures_commitEnd (m : Mod) (k c node member : Nat) (u : Run) (img : List Byte) (mb : Member) :
    (m.commitEnd k c node member u img mb).figures = m.figures := by
  (unfold Mod.commitEnd; dsimp only; repeat' split) <;> simp
@[simp] theorem Mod.figures_specCommit (m : Mod) (k c node member : Nat) (u : Run) (img : List Byte) (mb : Member) (e : Ecc) :
    (m.specCommit k c node member u img mb e).figures = m.figures := by
  rw [Mod.specCommit.eq_unfold]
  beta_reduce
  extract_lets b
  split
  · rfl
  next x _ =>
    split
    next en lost m1 h1 =>
      rw [← Mod.figures_of_snd₃ h1 (Mod.figures_readEntry ..)]
      split
      next base r _ =>
        extract_lets n moves top
        split
        · simp
        · split
          · simp
          · split
            · simp
            · simp
            · extract_lets copies
              split <;> simp
@[simp] theorem Mod.figures_specRollback (m : Mod) (k c node member : Nat) (u : Run) (img : List Byte) :
    (m.specRollback k c node member u img).figures = m.figures := by
  unfold Mod.specRollback; split <;> simp
@[simp] theorem Mod.figures_reconcileEnd (m : Mod) (k c node member : Nat) (u : Run) (img : List Byte) :
    (m.reconcileEnd k c node member u img).figures = m.figures := by
  unfold Mod.reconcileEnd; split <;> simp
@[simp] theorem Mod.figures_specReconcile (m : Mod) (k c node member : Nat) (u : Run) (img : List Byte) (e : Ecc) :
    (m.specReconcile k c node member u img e).figures = m.figures := by
  rw [Mod.specReconcile.eq_unfold]
  beta_reduce
  split
  · rfl
  next x _ =>
    split
    next a g _ =>
      split
      next en lost m1 h1 =>
        rw [← Mod.figures_of_snd₃ h1 (Mod.figures_readEntry ..)]
        extract_lets lc idxs
        split
        · simp
        · split
          · simp
          · simp
          · extract_lets copies
            split <;> simp
@[simp] theorem Mod.figures_rowEnd (m : Mod) (k c node member : Nat) : (m.rowEnd k c node member).figures = m.figures := by
  unfold Mod.rowEnd; split <;> simp
@[simp] theorem Mod.figures_laneEnd (m : Mod) (k : Nat) (d : Desc) : (m.laneEnd k d).figures = m.figures := by
  unfold Mod.laneEnd; split <;> simp

/-! ### Aperture -/

@[simp] theorem Mod.figures_apRead (m : Mod) (k st t base off n : Nat) (e : Ecc) :
    (m.apRead k st t base off n e).figures = m.figures := by
  refine (Mod.figures_mk _ (hvfs := rfl) ..).trans ?_
  refine Mod.figures_foldl₄ (fun acc c => ?_) ..
  simp
@[simp] theorem Mod.figures_apCommit (m : Mod) (k st t row : Nat) (bytes : Table Byte) (e : Ecc) :
    (m.apCommit k st t row bytes e).figures = m.figures := by
  (unfold Mod.apCommit; dsimp only; repeat' split) <;> simp
@[simp] theorem Mod.figures_apAct (m : Mod) (k : Nat) (a : ApWait) : (m.apAct k a).figures = m.figures := by
  unfold Mod.apAct; split <;> simp
@[simp] theorem Mod.figures_apRequest (m : Mod) (k : Nat) (a : ApWait) : (m.apRequest k a).figures = m.figures := by
  simp [Mod.apRequest]
@[simp] theorem Mod.figures_apDrain (m : Mod) (k : Nat) : (m.apDrain k).figures = m.figures := by
  refine Mod.figures_forAll (fun m _ => ?_) ..
  dsimp only
  split
  · split <;> simp
  · rfl
@[simp] theorem Mod.figures_apWriteRow (m : Mod) (k row lo : Nat) (data : List Byte) (e : Ecc) :
    (m.apWriteRow k row lo data e).figures = m.figures := by
  simp [Mod.apWriteRow]
@[simp] theorem Mod.figures_apWrite (m : Mod) (k off : Nat) (data : List Byte) (e : Ecc) :
    (m.apWrite k off data e).figures = m.figures := by
  simp [Mod.apWrite]

/-! ### Shards -/

@[simp] theorem Mod.figures_shardAttach (m : Mod) (r : Request) : (m.shardAttach r).figures = m.figures := by
  simp [Mod.shardAttach]
@[simp] theorem Mod.figures_scrubFrom (m : Mod) (k i : Nat) : (m.scrubFrom k i).figures = m.figures := by
  (unfold Mod.scrubFrom; dsimp only; repeat' split) <;> simp
@[simp] theorem Mod.figures_freeShard (m : Mod) (k slot : Nat) : (m.freeShard k slot).figures = m.figures := by
  simp [Mod.freeShard]
@[simp] theorem Mod.figures_shardDetach (m : Mod) (r : Request) : (m.shardDetach r).figures = m.figures := by
  simp [Mod.shardDetach]
@[simp] theorem Mod.figures_dropShardDescs (m : Mod) (k slot : Nat) : (m.dropShardDescs k slot).figures = m.figures := by
  simp [Mod.dropShardDescs]
@[simp] theorem Mod.figures_shardFinish (m : Mod) (k slot status detail : Nat) (payload : List Byte) :
    (m.shardFinish k slot status detail payload).figures = m.figures := by
  unfold Mod.shardFinish; split <;> simp
@[simp] theorem Mod.figures_attachDone (m : Mod) (k : Nat) : (m.attachDone k).figures = m.figures := by
  (unfold Mod.attachDone; dsimp only; repeat' split) <;> simp
@[simp] theorem Mod.figures_shardGoesBad (m : Mod) (k slot : Nat) (s : Shard) :
    (m.shardGoesBad k slot s).figures = m.figures := by
  simp [Mod.shardGoesBad]
@[simp] theorem Mod.figures_scrubHash (m : Mod) (k : Nat) (e : Ecc) : (m.scrubHash k e).figures = m.figures := by
  (unfold Mod.scrubHash; dsimp only; repeat' split) <;> simp

/-! ### Keys -/

@[simp] theorem Mod.figures_slotFree (m : Mod) (slot : Nat) : (m.slotFree slot).figures = m.figures := by simp [Mod.slotFree]
@[simp] theorem Mod.figures_settleErases (m : Mod) : (m.settleErases).figures = m.figures := by simp [Mod.settleErases]
@[simp] theorem Mod.figures_keyInstall (m : Mod) (r : Request) (mat : List Byte) :
    (m.keyInstall r mat).figures = m.figures := by
  simp [Mod.keyInstall]
@[simp] theorem Mod.figures_keyPlain (m : Mod) (r : Request) : (m.keyPlain r).figures = m.figures := by simp [Mod.keyPlain]
@[simp] theorem Mod.figures_keyQueue (m : Mod) (r : Request) : (m.keyQueue r).figures = m.figures := by simp [Mod.keyQueue]
@[simp] theorem Mod.figures_keyBind (m : Mod) (r : Request) : (m.keyBind r).figures = m.figures := by simp [Mod.keyBind]
@[simp] theorem Mod.figures_keyUnbind (m : Mod) (r : Request) : (m.keyUnbind r).figures = m.figures := by
  simp [Mod.keyUnbind]
@[simp] theorem Mod.figures_pkeReason (m : Mod) (f : Fn) (reason : Nat) : (m.pkeReason f reason).figures = m.figures := by
  unfold Mod.pkeReason; split <;> simp
@[simp] theorem Mod.figures_wrappedDone (m : Mod) (r : Request) : (m.wrappedDone r).figures = m.figures := by
  (unfold Mod.wrappedDone; dsimp only; repeat' split) <;> simp
@[simp] theorem Mod.figures_generateDone (m : Mod) (r : Request) (draw : Nat) :
    (m.generateDone r draw).figures = m.figures := by
  unfold Mod.generateDone; split <;> simp
@[simp] theorem Mod.figures_eraseBegin (m : Mod) (slot : Nat) : (m.eraseBegin slot).figures = m.figures := by
  simp [Mod.eraseBegin]
@[simp] theorem Mod.figures_endUser (m : Mod) (slot : Nat) (u : KeyUse) : (m.endUser slot u).figures = m.figures := by
  unfold Mod.endUser
  split
  case h_1 =>
    split
    · rfl
    · split <;> simp
  case h_2 => simp
  case h_3 =>
    refine (Mod.figures_within _ _ _ _ fun m => ?_).trans (by simp)
    dsimp only
    split
    · split <;> simp
    · simp
  case h_4 => split <;> simp
  case h_5 => split <;> simp
@[simp] theorem Mod.figures_eraseNow (m : Mod) (slot : Nat) : (m.eraseNow slot).figures = m.figures := by simp [Mod.eraseNow]
@[simp] theorem Mod.figures_keyErase (m : Mod) (r : Request) : (m.keyErase r).figures = m.figures := by simp [Mod.keyErase]
@[simp] theorem Mod.figures_keyEraseNow (m : Mod) (r : Request) : (m.keyEraseNow r).figures = m.figures := by
  simp [Mod.keyEraseNow]
@[simp] theorem Mod.figures_userEnd (m : Mod) (slot : Nat) : (m.userEnd slot).figures = m.figures := by simp [Mod.userEnd]

/-! ### Attest -/

@[simp] theorem Mod.figures_verifyDone (m : Mod) : (m.verifyDone).figures = m.figures := by
  (unfold Mod.verifyDone; dsimp only; repeat' split) <;> simp
@[simp] theorem Mod.figures_attest (m : Mod) (r : Request) : (m.attest r).figures = m.figures := by
  refine Mod.figures_judge _ _ _ fun m => ?_
  split
  · simp
  · dsimp only
    split <;> simp
@[simp] theorem Mod.figures_attestDone (m : Mod) (r : Request) (body : List Byte) (key : Option (Nat × Nat))
    (idSig : Option (List Byte)) :
    (m.attestDone r body key idSig).figures = m.figures := by
  unfold Mod.attestDone; split <;> simp
@[simp] theorem Mod.figures_spdmSend (m : Mod) (t : SpdmPort) (msg : List Byte) (a : SpdmAnswer) (next : Spdm → Spdm) :
    (m.spdmSend t msg a next).figures = m.figures := by
  simp [Mod.spdmSend]
@[simp] theorem Mod.figures_spdmMsg (m : Mod) (t : SpdmPort) (code : Nat) (msg : List Byte) (ready : Spdm → Bool)
    {act : Mod → Mod} (hf : ∀ n, (act n).figures = n.figures) : (m.spdmMsg t code msg ready act).figures = m.figures := by
  simp [Mod.spdmMsg, hf]
@[simp] theorem Mod.figures_signDone (m : Mod) (t : SpdmPort) (msg : List Byte) (a : SpdmAnswer) (secret : Option Nat) :
    (m.signDone t msg a secret).figures = m.figures := by
  simp [Mod.signDone]
@[simp] theorem Mod.figures_agreeDone (m : Mod) (t : SpdmPort) (msg : List Byte) (scalar : Nat) :
    (m.agreeDone t msg scalar).figures = m.figures := by
  (unfold Mod.agreeDone; dsimp only; repeat' split) <;> simp
@[simp] theorem Mod.figures_pkeEnds (m : Mod) (j : PkeJob) : (m.pkeEnds j).figures = m.figures := by
  unfold Mod.pkeEnds; split <;> simp

/-! ### Partitions -/

@[simp] theorem Mod.figures_clearPairs (m : Mod) (k : Nat) : (m.clearPairs k).figures = m.figures := by simp [Mod.clearPairs]
@[simp] theorem Mod.figures_partCreate (m : Mod) (r : Request) : (m.partCreate r).figures = m.figures := by
  simp [Mod.partCreate]
@[simp] theorem Mod.figures_dropResvs (m : Mod) (k : Nat) : (m.dropResvs k).figures = m.figures := by simp [Mod.dropResvs]
@[simp] theorem Mod.figures_partLeave (m : Mod) (k : Nat) : (m.partLeave k).figures = m.figures := by simp [Mod.partLeave]
@[simp] theorem Mod.figures_partDelete (m : Mod) (r : Request) : (m.partDelete r).figures = m.figures := by
  simp [Mod.partDelete]

/-! ### Load -/

@[simp] theorem Mod.figures_tenantRead (m : Mod) (k loc n : Nat) (e : Ecc) :
    (m.tenantRead k loc n e).2.figures = m.figures := by
  unfold Mod.tenantRead; split <;> simp
@[simp] theorem Mod.figures_tenantWrite (m : Mod) (k loc : Nat) (bs : List Byte) :
    (m.tenantWrite k loc bs).figures = m.figures := by
  simp [Mod.tenantWrite]
@[simp] theorem Mod.figures_storeFrame (m : Mod) (r : Request) (img : List Byte) :
    (m.storeFrame r img).figures = m.figures := by
  simp [Mod.storeFrame]
@[simp] theorem Mod.figures_frameLoad (m : Mod) (r : Request) (e : Ecc) : (m.frameLoad r e).figures = m.figures := by
  simp [Mod.frameLoad]

/-! ### Resv -/

@[simp] theorem Mod.figures_drawSlots (m : Mod) (paths : List Nat) : (m.drawSlots paths).2.figures = m.figures := by
  refine Mod.figures_foldl₂ (fun acc path => ?_) ..
  simp
@[simp] theorem Mod.figures_resvStand (m : Mod) (k : Nat) (r : Reservation) : (m.resvStand k r).figures = m.figures := by
  simp [Mod.resvStand]
@[simp] theorem Mod.figures_resvOpen (m : Mod) (r : Request) : (m.resvOpen r).figures = m.figures := by
  refine Mod.figures_judge _ _ _ fun m => ?_
  split <;> simp

/-! ### Sched -/

@[simp] theorem Mod.figures_settleHold (m : Mod) (k : Nat) : (m.settleHold k).figures = m.figures := by
  unfold Mod.settleHold; split <;> simp
@[simp] theorem Mod.figures_settleHolds (m : Mod) : (m.settleHolds).figures = m.figures := by simp [Mod.settleHolds]

/-! ### Landing -/

@[simp] theorem Mod.figures_land (m : Mod) (k c q : Nat) (body : List Byte) : (m.land k c q body).figures = m.figures := by
  (unfold Mod.land; dsimp only; repeat' split) <;> simp
@[simp] theorem Mod.figures_launchWrite (m : Mod) (k c off : Nat) (data : List Byte) :
    (m.launchWrite k c off data).figures = m.figures := by
  simp [Mod.launchWrite]
@[simp] theorem Mod.figures_eventWrite (m : Mod) (k off : Nat) (data : List Byte) :
    (m.eventWrite k off data).figures = m.figures := by
  simp [Mod.eventWrite]

/-! ### Run -/

@[simp] theorem Mod.figures_patchPegs (m : Mod) (k : Nat) (img : List Byte) (r : Raise) (e : Ecc) :
    (m.patchPegs k img r e).2.2.figures = m.figures := by
  (unfold Mod.patchPegs; dsimp only; repeat' split) <;> simp
@[simp] theorem Mod.figures_kvPeg (m : Mod) (k : Nat) (img : List Byte) (peg v : Nat) (mine : List Nat) (e : Ecc) :
    (m.kvPeg k img peg v mine e).2.2.figures = m.figures := by
  (unfold Mod.kvPeg; dsimp only; repeat' split) <;> simp
@[simp] theorem Mod.figures_checkPegs (m : Mod) (k c : Nat) (img : List Byte) (pegs : List Dword) (member : Nat) (held : List KvUse) (e : Ecc) :
    (m.checkPegs k c img pegs member held e).2.2.figures = m.figures := by
  refine Mod.figures_foldl₃ (fun acc i => ?_) ..
  extract_lets n v fail
  split
  · rfl
  · split
    · split <;> rfl
    · split <;> rfl
    · split
      next fin' flag s n' h =>
        refine Eq.trans ?_ (Mod.figures_of_snd₃ h (Mod.figures_kvPeg ..))
        dsimp only
        split <;> simp
      next s n' h => exact Mod.figures_of_snd₃ h (Mod.figures_kvPeg ..)
    · rfl
@[simp] theorem Mod.figures_globStart (m : Mod) (k c i : Nat) (img : List Byte) (mb : Member) (e : Ecc) :
    (m.globStart k c i img mb e).2.2.figures = m.figures := by
  (unfold Mod.globStart; dsimp only; repeat' split) <;> simp
@[simp] theorem Mod.figures_globsStart (m : Mod) (k c : Nat) (img : List Byte) (mb : Member) (member : Nat) (e : Ecc) :
    (m.globsStart k c img mb member e).2.2.figures = m.figures := by
  refine Mod.figures_foldl₃ (fun acc i => ?_) ..
  dsimp only
  split <;> simp
@[simp] theorem Mod.figures_tablesStart (m : Mod) (k : Nat) (img : List Byte) (member : Nat) (globs : Table (List Nat)) (e : Ecc)
    (kv : List (KvUse × SeqEntry)) : (m.tablesStart k img member globs e kv).2.2.figures = m.figures := by
  refine Mod.figures_foldl₃ (fun acc x => ?_) ..
  split
  · rfl
  · split
    next u s =>
    extract_lets mine
    split
    next n h => exact Mod.figures_of_snd h (Mod.figures_readTable ..)
    next pages n h =>
      rw [← Mod.figures_of_snd h (Mod.figures_readTable ..)]
      split
      next n' h' => exact Mod.figures_of_snd h' (Mod.figures_readTable ..)
      next shadows n' h' => exact Mod.figures_of_snd h' (Mod.figures_readTable ..)
@[simp] theorem Mod.figures_formMember (m : Mod) (k c : Nat) (img : List Byte) (e : StartEcc) (f : Forming) (r : Raise) :
    (m.formMember k c img e f r).2.2.figures = m.figures := by
  rw [Mod.formMember.eq_unfold]
  beta_reduce
  extract_lets i e
  split
  next x ps n h => exact Mod.figures_of_snd₃ h (Mod.figures_patchPegs ..)
  next ps n h =>
    rw [← Mod.figures_of_snd₃ h (Mod.figures_patchPegs ..)]
    split
    next x ps n h => exact Mod.figures_of_snd₃ h (Mod.figures_checkPegs ..)
    next kv n h =>
      rw [← Mod.figures_of_snd₃ h (Mod.figures_checkPegs ..)]
      extract_lets mb
      split
      next x ps n h => exact Mod.figures_of_snd₃ h (Mod.figures_globsStart ..)
      next globs n h =>
        rw [← Mod.figures_of_snd₃ h (Mod.figures_globsStart ..)]
        split
        next x ps n h => exact Mod.figures_of_snd₃ h (Mod.figures_tablesStart ..)
        next kv n h =>
          rw [← Mod.figures_of_snd₃ h (Mod.figures_tablesStart ..)]
          split
          next x ps n h => exact Mod.figures_of_snd₃ h (Mod.figures_treeStart ..)
          next retreed n h =>
            rw [← Mod.figures_of_snd₃ h (Mod.figures_treeStart ..)]
            split
            next x ps n h => exact Mod.figures_of_snd₃ h (Mod.figures_reconcileStart ..)
            next recs n h => exact Mod.figures_of_snd₃ h (Mod.figures_reconcileStart ..)
@[simp] theorem Mod.figures_formRun (m : Mod) (k c : Nat) (img : List Byte) (e : StartEcc) (rs : List Raise) :
    (m.formRun k c img e rs).2.figures = m.figures := by
  refine Mod.figures_foldl₂ (fun acc r => ?_) ..
  split
  next x f n h => simpa using Mod.figures_of_snd₃ h (Mod.figures_formMember ..)
  next f n h => exact Mod.figures_of_snd₃ h (Mod.figures_formMember ..)
@[simp] theorem Mod.figures_armAll (m : Mod) (k c q : Nat) (img : List Byte) (n : Nat) :
    (m.armAll k c q img n).figures = m.figures := by
  simp [Mod.armAll]
@[simp] theorem Mod.figures_beginRun (m : Mod) (k c : Nat) (lead : Raise) (f : Forming) (truss mhz : Nat) :
    (m.beginRun k c lead f truss mhz).figures = m.figures := by
  (unfold Mod.beginRun; dsimp only; repeat' split) <;> simp
@[simp] theorem Mod.figures_launch (m : Mod) (k c : Nat) (lead : Raise) (joined : List Nat) (truss mhz : Nat)
    (e : StartEcc) :
    (m.launch k c lead joined truss mhz e).figures = m.figures := by
  simp [Mod.launch]
@[simp] theorem Mod.figures_resumeRun (m : Mod) (k c : Nat) (u : Run) : (m.resumeRun k c u).figures = m.figures := by
  simp [Mod.resumeRun]
@[simp] theorem Mod.figures_startHead (m : Mod) (k : Nat) (x : Place) (joined : List Nat) (truss mhz : Nat) (e : StartEcc) :
    (m.startHead k x joined truss mhz e).figures = m.figures := by
  unfold Mod.startHead; split <;> simp
@[simp] theorem Mod.figures_raiseComplete (m : Mod) (k c : Nat) : (m.raiseComplete k c).figures = m.figures := by
  (unfold Mod.raiseComplete; dsimp only; repeat' split) <;> simp
@[simp] theorem Mod.figures_parkAll (m : Mod) (k : Nat) : (m.parkAll k).figures = m.figures := by simp [Mod.parkAll]
@[simp] theorem Mod.figures_startGuar (m : Mod) (k : Nat) (x : Place) (e : StartEcc) :
    (m.startGuar k x e).figures = m.figures := by
  (unfold Mod.startGuar; dsimp only; repeat' split) <;> simp
@[simp] theorem Mod.figures_startBest (m : Mod) (k : Nat) (x : Place) (joined : List Nat) (mhz : Nat) (e : StartEcc) :
    (m.startBest k x joined mhz e).figures = m.figures := by
  (unfold Mod.startBest; dsimp only; repeat' split) <;> simp
@[simp] theorem Mod.figures_startChosen (m : Mod) (k : Nat) (x : Place) (mhz : Nat) (e : StartEcc) :
    (m.startChosen k x mhz e).figures = m.figures := by
  (unfold Mod.startChosen; dsimp only; repeat' split) <;> simp
@[simp] theorem Mod.figures_endHold (m : Mod) (k : Nat) (h : Hold) (e : StartEcc) :
    (m.endHold k h e).figures = m.figures := by
  (unfold Mod.endHold; dsimp only; repeat' split) <;> simp
@[simp] theorem Mod.figures_parkLong (m : Mod) (k : Nat) : (m.parkLong k).figures = m.figures := by simp [Mod.parkLong]
@[simp] theorem Mod.figures_schedule (m : Mod) (k : Nat) (e : StartEcc) : (m.schedule k e).figures = m.figures := by
  (unfold Mod.schedule; dsimp only; repeat' split) <;> simp
@[simp] theorem Mod.figures_nodeComplete (m : Mod) (k c node member : Nat) :
    (m.nodeComplete k c node member).figures = m.figures := by
  (unfold Mod.nodeComplete; dsimp only; repeat' split) <;> simp

/-! ### Watch -/

@[simp] theorem Mod.figures_waitWatchdog (m : Mod) (k c q : Nat) : (m.waitWatchdog k c q).figures = m.figures := by
  unfold Mod.waitWatchdog; split <;> simp
@[simp] theorem Mod.figures_linkWatchdog (m : Mod) (k c node member : Nat) :
    (m.linkWatchdog k c node member).figures = m.figures := by
  unfold Mod.linkWatchdog; split <;> simp
@[simp] theorem Mod.figures_peerLate (m : Mod) (k c node member : Nat) :
    (m.peerLate k c node member).figures = m.figures := by
  (unfold Mod.peerLate; dsimp only; repeat' split) <;> simp
@[simp] theorem Mod.figures_nodeHang (m : Mod) (k c node member : Nat) :
    (m.nodeHang k c node member).figures = m.figures := by
  unfold Mod.nodeHang; split <;> simp

/-! ### Reset -/

@[simp] theorem Mod.figures_partReset (m : Mod) (r : Request) : (m.partReset r).figures = m.figures := by
  simp [Mod.partReset]
@[simp] theorem Mod.figures_flightUnit (m : Mod) (k ch : Nat) (d : Desc) : (m.flightUnit k ch d).figures = m.figures := by
  simp [Mod.flightUnit]
@[simp] theorem Mod.figures_freezeChan (m : Mod) (k ch : Nat) : (m.freezeChan k ch).figures = m.figures := by
  (unfold Mod.freezeChan; dsimp only; repeat' split) <;> simp
@[simp] theorem Mod.figures_resetRow (m : Mod) (k n : Nat) {act : Mod → ResetState → Mod}
    (hf : ∀ n z, (act n z).figures = n.figures) : (m.resetRow k n act).figures = m.figures := by
  refine Mod.figures_molique m fun m => ?_
  split
  · split <;> simp [hf]
  · rfl
@[simp] theorem Mod.figures_setPhase (m : Mod) (k : Nat) (z : ResetState) : (m.setPhase k z).figures = m.figures := by
  simp [Mod.setPhase]
@[simp] theorem Mod.figures_landAccepted (m : Mod) (k : Nat) : (m.landAccepted k).figures = m.figures := by
  refine Mod.figures_forAll (fun m e => Mod.figures_forAll (fun m h => ?_) ..) ..
  split
  · split
    · split <;> simp
    · rfl
  · rfl
@[simp] theorem Mod.figures_dropChans (m : Mod) (k : Nat) : (m.dropChans k).figures = m.figures := by simp [Mod.dropChans]
@[simp] theorem Mod.figures_dropAttachments (m : Mod) (k : Nat) : (m.dropAttachments k).figures = m.figures := by
  simp [Mod.dropAttachments]
@[simp] theorem Mod.figures_dropBinds (m : Mod) (k : Nat) : (m.dropBinds k).figures = m.figures := by simp [Mod.dropBinds]
@[simp] theorem Mod.figures_endRaises (m : Mod) (k : Nat) (z : ResetState) : (m.endRaises k z).figures = m.figures := by
  simp [Mod.endRaises]
@[simp] theorem Mod.figures_lostEvents (m : Mod) (k : Nat) : (m.lostEvents k).figures = m.figures := by simp [Mod.lostEvents]
@[simp] theorem Mod.figures_restore (m : Mod) (k : Nat) (z : ResetState) : (m.restore k z).figures = m.figures := by
  simp [Mod.restore]
@[simp] theorem Mod.figures_recordScan (m : Mod) (k slot : Nat) (e : Ecc) :
    (m.recordScan k slot e).2.figures = m.figures := by
  (unfold Mod.recordScan; dsimp only; repeat' split) <;> simp
@[simp] theorem Mod.figures_faultReadPart (m : Mod) (r : Request) (e : Ecc) : (m.faultReadPart r e).figures = m.figures := by
  simp [Mod.faultReadPart]
@[simp] theorem Mod.figures_faultReadList (m : Mod) (r : Request) (xs : List (List Byte)) (most : Nat) :
    (m.faultReadList r xs most).figures = m.figures := by
  simp [Mod.faultReadList]

/-! ### Registers -/

@[simp] theorem Mod.figures_readClear (m : Mod) (t : Target) : (m.readClear t).figures = m.figures := by
  unfold Mod.readClear
  split
  · split <;> simp
  · dsimp only
    split <;> simp
  · rfl
@[simp] theorem Mod.figures_wordReadEffect (m : Mod) (a : Agent) (t : Target) : (m.wordReadEffect a t).figures = m.figures := by
  unfold Mod.wordReadEffect
  split <;> simp
@[simp] theorem Mod.figures_coreRead (m : Mod) (i : Fin 5) (t : Target) : (m.coreRead i t).2.figures = m.figures := by
  simp [Mod.coreRead]
@[simp] theorem Mod.figures_pairCommit (m : Mod) (f : Fn) (k lo : Nat) (hi : Word) :
    (m.pairCommit f k lo hi).figures = m.figures := by
  simp [Mod.pairCommit]
@[simp] theorem Mod.figures_doorWrite (m : Mod) (k c r : Nat) (v : Word) : (m.doorWrite k c r v).figures = m.figures := by
  simp [Mod.doorWrite]
@[simp] theorem Mod.figures_chWrite (m : Mod) (k ch r : Nat) (v : Word) : (m.chWrite k ch r v).figures = m.figures := by
  simp [Mod.chWrite]
@[simp] theorem Mod.figures_partWrite (m : Mod) (f : Fn) (k off : Nat) (v : Word) :
    (m.partWrite f k off v).figures = m.figures := by
  simp [Mod.partWrite]
@[simp] theorem Mod.figures_partWordWrite (m : Mod) (f : Fn) (k off : Nat) (v : Word) :
    (m.partWordWrite f k off v).figures = m.figures := by
  simp [Mod.partWordWrite]
@[simp] theorem Mod.figures_chipWrite (m : Mod) (f : Fn) (off : Nat) (v : Word) :
    (m.chipWrite f off v).figures = m.figures := by
  simp [Mod.chipWrite]
@[simp] theorem Mod.figures_mbxWrite (m : Mod) (f : Fn) (off : Nat) (v : Word) :
    (m.mbxWrite f off v).figures = m.figures := by
  simp [Mod.mbxWrite]
@[simp] theorem Mod.figures_msixWrite (m : Mod) (f : Fn) (off : Nat) (v : Word) :
    (m.msixWrite f off v).figures = m.figures := by
  simp [Mod.msixWrite]
@[simp] theorem Mod.figures_wordWrite (m : Mod) (f : Fn) (t : Target) (v : Word) :
    (m.wordWrite f t v).figures = m.figures := by
  unfold Mod.wordWrite; split <;> simp
@[simp] theorem Mod.figures_areaRead (m : Mod) (t : Target) (n : Nat) : (m.areaRead t n).figures = m.figures := by
  unfold Mod.areaRead; split <;> simp
@[simp] theorem Mod.figures_areaWrite (m : Mod) (t : Target) (data : List Byte) :
    (m.areaWrite t data).figures = m.figures := by
  unfold Mod.areaWrite; split <;> simp
@[simp] theorem Mod.figures_regRead (m : Mod) (f : Fn) (sp : RegSpace) (off n : Nat) :
    (m.regRead f sp off n).figures = m.figures := by
  unfold Mod.regRead
  dsimp only
  split
  · refine (Mod.figures_mk _ (hvfs := rfl) ..).trans ?_
    exact Mod.figures_foldl₂ (fun acc _ => Mod.figures_wordReadEffect ..) ..
  · simp
@[simp] theorem Mod.figures_regWrite (m : Mod) (f : Fn) (sp : RegSpace) (off : Nat) (data : List Byte) :
    (m.regWrite f sp off data).figures = m.figures := by
  simp [Mod.regWrite]
@[simp] theorem Mod.figures_regAccess (m : Mod) (f : Fn) (sp : RegSpace) (off : Nat) (op : RegOp) :
    (m.regAccess f sp off op).figures = m.figures := by
  unfold Mod.regAccess
  split
  · rfl
  · split <;> simp
end Sys2Proof.Machine
end

section
/-!
PROOFS. The operations that move a bounded figure keep the invariant.
-/

namespace Sys2Proof.Machine
open Claims

/-- The invariant speaks of the bounded figures alone. -/
theorem modInv_of_bounds {m n : Mod} (h : n.bounds = m.bounds) (hm : ModInv m) : ModInv n := by
  obtain ⟨hstage, hvfs, hlevel, hcap, hsamples, hrecords, hlog⟩ := hm
  simp only [Mod.bounds, Prod.mk.injEq] at h
  obtain ⟨estage, evfs, elevel, ecap, esamples, erecords, elog⟩ := h
  rw [← estage] at hstage
  rw [← evfs] at hvfs
  rw [← elevel] at hlevel
  rw [← ecap] at hcap
  exact ⟨hstage, hvfs, hlevel, hcap, esamples.trans_le hsamples, erecords.trans_le hrecords, elog.trans_le hlog⟩

theorem modInv_of_figures {m n : Mod} (h : n.figures = m.figures) (hm : ModInv m) : ModInv n :=
  modInv_of_bounds (Mod.bounds_of_figures h) hm

theorem capOk_of_fieldBad {w : Nat} {bad : Bool} {at' : Nat}
    (h : fieldBad [(!(decide (1000 ≤ w) && decide (w ≤ 3300)), 0), (bad, at')] = none) : 1000 ≤ w ∧ w ≤ 3300 := by
  simp only [fieldBad, Option.map_eq_none_iff, List.find?_eq_none] at h
  simpa using h _ (List.mem_cons_self ..)

theorem b2n_le_one (b : Bool) : b2n b ≤ 1 := by
  cases b <;> decide

theorem modInv_forAll {α : Type} {f : Mod → α → Mod} (h : ∀ m x, ModInv m → ModInv (f m x)) (xs : List α) {m : Mod}
    (hm : ModInv m) : ModInv (m.forAll f xs) :=
  Mod.forAll_keeps h xs m hm

theorem modInv_ite {c : Prop} [Decidable c] {m n : Mod} (hm : ModInv m) (hn : ModInv n) : ModInv (if c then m else n) := by
  split
  · exact hm
  · exact hn

section
variable {m : Mod} (hm : ModInv m)
include hm

/-! Guards: what they let act keeps the invariant, and they change nothing else. -/

theorem modInv_alive {f : Mod → Mod} (hf : ∀ n, ModInv n → ModInv (f n)) : ModInv (m.alive f) :=
  modInv_ite hm (hf m hm)

theorem modInv_molique {f : Mod → Mod} (hf : ∀ n, ModInv n → ModInv (f n)) : ModInv (m.molique f) :=
  modInv_ite (hf m hm) hm

theorem modInv_host {f : Mod → Mod} (hf : ∀ n, ModInv n → ModInv (f n)) : ModInv (m.host f) := by
  unfold Mod.host
  split
  · exact hf m hm
  · exact modInv_of_figures (by simp) hm

theorem modInv_config {f : Mod → Mod} (hf : ∀ n, ModInv n → ModInv (f n)) : ModInv (m.config f) := by
  unfold Mod.config
  split
  · exact modInv_of_figures (by simp) hm
  · exact modInv_host hm hf

theorem modInv_judge (r : Request) (bad : Option (Nat × Nat)) {ok : Mod → Mod} (hf : ∀ n, ModInv n → ModInv (ok n)) :
    ModInv (m.judge r bad ok) := by
  unfold Mod.judge
  split
  · exact modInv_of_figures (by simp) hm
  · exact hf m hm

/-! ### Records, the supersede log and mailbox rows -/

theorem modInv_moduleRecord (mcause bay parts seq cause : Nat) (t0 : Dword) :
    ModInv (m.moduleRecord mcause bay parts seq cause t0) := by
  obtain ⟨hstage, hvfs, hlevel, hcap, hsamples, -, hlog⟩ := hm
  exact modInv_of_figures (Mod.figures_msix ..) ⟨hstage, hvfs, hlevel, hcap, hsamples, List.length_take_le .., hlog⟩

theorem modInv_logSupersede (mg h : Request) (obj : Nat) : ModInv (m.logSupersede mg h obj) := by
  obtain ⟨hstage, hvfs, hlevel, hcap, hsamples, hrecords, -⟩ := hm
  refine modInv_of_figures (Mod.figures_msix ..) ⟨hstage, hvfs, hlevel, hcap, hsamples, hrecords, ?_⟩
  simp only [List.length_drop]
  omega

theorem modInv_supersedeOne (mg h : Request) : ModInv (m.supersedeOne mg h) := by
  unfold Mod.supersedeOne
  split
  · exact hm
  next =>
    have hdropped : ModInv { m with taken := m.taken.filter fun x => x.id != h.id } := modInv_of_bounds rfl hm
    exact modInv_ite (modInv_of_figures (Mod.figures_respond ..) hdropped)
      (modInv_of_figures (Mod.figures_respond ..) (modInv_logSupersede hdropped ..))

end

theorem modInv_supersedeBy {m : Mod} (hm : ModInv m) (mg : Request) : ModInv (m.supersedeBy mg) :=
  modInv_forAll (fun _ h hn => modInv_supersedeOne hn mg h) m.taken hm

section
variable {m : Mod} (hm : ModInv m)
include hm

theorem modInv_mbxRow (f : Fn) (op : Nat) (sub : Request → Bool) {act : Mod → Request → Mod}
    (hact : ∀ n r, ModInv n → ModInv (act n r)) : ModInv (m.mbxRow f op sub act) := by
  unfold Mod.mbxRow
  split
  · exact hm
  next rest _ =>
    have hturned : ModInv { m with taken := rest } := modInv_of_bounds rfl hm
    refine modInv_ite (modInv_supersedeBy ?_ _) hm
    exact modInv_ite (modInv_of_figures (Mod.figures_respond ..) hturned)
      (modInv_ite (modInv_of_figures (Mod.figures_respond ..) hturned) (hact _ _ hturned))

theorem modInv_pwrSet (r : Request) : ModInv (m.pwrSet r) := by
  unfold Mod.pwrSet Mod.judge
  extract_lets w
  split
  next => exact modInv_of_figures (by simp) hm
  next hok =>
    obtain ⟨hstage, hvfs, hlevel, -, hsamples, hrecords, hlog⟩ := hm
    refine modInv_of_figures ((Mod.figures_respond ..).trans (Mod.figures_applyCap _)) ⟨hstage, hvfs, hlevel, ?_, hsamples, hrecords, hlog⟩
    exact capOk_of_fieldBad hok

/-! ### Boot stages and firmware -/

theorem modInv_mute : ModInv m.mute := modInv_of_bounds rfl hm

theorem modInv_takeOne (r : Request) : ModInv (m.takeOne r) := by
  unfold Mod.takeOne
  split
  · exact modInv_of_figures (Mod.figures_respond ..) hm
  · exact modInv_of_bounds rfl hm

theorem modInv_takeUp : ModInv m.takeUp := by
  unfold Mod.takeUp
  dsimp only
  split
  · exact hm
  · exact modInv_forAll (fun _ r hn => modInv_takeOne hn r) _ (modInv_of_bounds rfl hm)

theorem modInv_resetFn (f : Fn) : ModInv (m.resetFn f) :=
  modInv_of_bounds (m := m.keyRelease fun u => u == .attest (fnIdx f)) rfl (modInv_of_figures (Mod.figures_keyRelease ..) hm)

theorem modInv_vfsGone : ModInv m.vfsGone := by
  have hreset : ModInv (m.forAll (fun m k => if m.vfExists k then m.resetFn (fnOfIdx k) else m) allParts) :=
    modInv_forAll (fun _ k hn => modInv_ite (modInv_resetFn hn _) hn) allParts hm
  unfold Mod.vfsGone
  generalize m.forAll (fun m k => if m.vfExists k then m.resetFn (fnOfIdx k) else m) allParts = n at hreset ⊢
  exact modInv_of_bounds (m := n) rfl hreset

theorem modInv_setStage {stage : Nat} (hs : stage ≤ 8 ∨ stage = 15) : ModInv (m.setStage stage) := by
  obtain ⟨-, hrest⟩ := id hm
  exact modInv_ite hm (modInv_of_figures (Mod.figures_msix ..) ⟨hs, hrest⟩)

theorem modInv_stageComplete (failed : List Nat) : ModInv (m.stageComplete failed) := by
  unfold Mod.stageComplete
  extract_lets s bad boot m₁ m₂ m₃
  split
  · exact hm
  next hstage =>
    refine modInv_setStage (m := m₃) (modInv_of_figures (m := m) ?_ hm) (.inl (by omega))
    have h₁ : m₁.figures = m.figures := by simp [m₁, boot, Mod.figures, Mod.bounds]
    have h₂ : m₂.figures = m.figures := by
      unfold m₂
      split <;> simp [h₁]
    unfold m₃
    split <;> simp [h₂]

theorem modInv_startAuth (l : FwLoad) : ModInv (m.startAuth l) := by
  refine modInv_setStage (modInv_of_figures ?_ hm) (.inl (by decide))
  simp

theorem modInv_endLoad : ModInv m.endLoad :=
  modInv_setStage (modInv_of_figures (by simp) hm) (.inl (by decide))

theorem modInv_failLoad (status detail : Nat) : ModInv (m.failLoad status detail) := by
  unfold Mod.failLoad
  split
  · exact modInv_of_figures (Mod.figures_finish ..) (modInv_endLoad hm)
  · exact modInv_endLoad hm

theorem modInv_fwData (data : List Byte) : ModInv (m.fwData data) := by
  unfold Mod.fwData
  split
  · exact hm
  · exact modInv_ite (modInv_startAuth hm _) (modInv_of_figures (by simp) hm)

theorem modInv_fwChunk (r : Request) : ModInv (m.fwChunk r) := by
  unfold Mod.fwChunk
  extract_lets off len data fromPf authing have' refuse first got l
  have refused (d : Nat) : ModInv (refuse d) := modInv_of_figures (by simp [refuse]) hm
  refine modInv_ite (modInv_of_figures (by simp) hm) (modInv_ite (modInv_of_figures (by simp) hm) (modInv_ite (refused 4)
    (modInv_ite (refused 0) (modInv_ite (refused 0) (modInv_ite (modInv_startAuth ?_ l) ?_)))))
  · exact modInv_of_figures (by simp) hm
  · exact modInv_of_figures (by simp) hm

theorem modInv_authFail (d : Nat) : ModInv (m.authFail d) :=
  modInv_failLoad (m := { m with boot := { m.boot with authLast := d } }) (modInv_of_bounds rfl hm) ..

theorem modInv_authDone : ModInv m.authDone := by
  unfold Mod.authDone
  split
  · exact hm
  · refine modInv_ite hm ?_
    split
    · exact modInv_authFail hm _
    · exact hm
    · next l _ _ _ _ _ =>
      have h8 := modInv_setStage (m := { m with fwLoad := none, fw := some (imageOf l.bytes) })
        (modInv_of_figures (m := m) (by simp) hm) (.inl (Nat.le_refl 8))
      dsimp only
      split
      · exact modInv_of_figures (Mod.figures_finish ..) h8
      · exact h8
    · exact modInv_authFail hm _

theorem modInv_moduleFails : ModInv m.moduleFails := by
  refine modInv_setStage (modInv_mute (modInv_of_figures (m := m) ?_ hm)) (.inr rfl)
  rw [Mod.figures_mk _ (hvfs := rfl)]
  exact Mod.figures_forAll (fun n e => Mod.figures_forAll (fun n' lane => by simp) ..) ..

/-! ### Device reads -/

theorem modInv_readDone (q : ReadReq) (data : List Byte) : ModInv (m.readDone q data) := by
  unfold Mod.readDone
  split
  · exact modInv_fwData hm data
  · exact modInv_of_figures (by simp) hm
  · exact hm

theorem modInv_readFailed (q : ReadReq) (timeout : Bool) : ModInv (m.readFailed q timeout) := by
  unfold Mod.readFailed
  split
  · exact modInv_ite (modInv_failLoad hm ..) (modInv_failLoad hm ..)
  · exact modInv_ite hm (modInv_of_figures (by simp) hm)
  · exact hm

theorem modInv_completion (tag : Nat) (status : CplStatus) (data : List Byte) : ModInv (m.completion tag status data) := by
  have dropped : ModInv (m.dropRead tag) := modInv_of_figures (by simp) hm
  unfold Mod.completion
  split
  · exact modInv_of_figures (by simp) hm
  · split
    · exact modInv_ite (modInv_readDone dropped ..) (modInv_of_figures (by simp) hm)
    · exact modInv_readFailed dropped ..

theorem modInv_readTimeout (tag : Nat) : ModInv (m.readTimeout tag) := by
  unfold Mod.readTimeout
  split
  · exact hm
  · refine modInv_readFailed (modInv_of_figures (m := m) ?_ hm) ..
    simp

/-! ### Power and the governor -/

omit hm in
theorem modInv_reset : ModInv Mod.reset := by
  unfold ModInv
  decide

omit hm in
theorem modInv_powerDown (m : Mod) (en latched : Bool) : ModInv (m.powerDown en latched) :=
  modInv_of_figures (m := Mod.reset) (Mod.figures_send ..) modInv_reset

omit hm in
theorem modInv_powerUp (m : Mod) (mv : Nat) : ModInv (m.powerUp mv) :=
  modInv_of_figures (m := Mod.reset) (Mod.figures_send ..) modInv_reset

theorem modInv_powerEnable (rise : Bool) (mv lowNs : Nat) : ModInv (m.powerEnable rise mv lowNs) := by
  unfold Mod.powerEnable
  exact modInv_ite hm (modInv_ite (modInv_powerUp ..) (modInv_of_figures (by simp) hm))

theorem modInv_governorSample (r : Readings) :
    ModInv (({ m with gov := { m.gov with samples := (r.pin :: m.gov.samples).take 100 } }).setReadings r) := by
  obtain ⟨hstage, hvfs, hlevel, hcap, -, hrecords, hlog⟩ := hm
  exact modInv_of_figures (Mod.figures_setReadings ..) ⟨hstage, hvfs, hlevel, hcap, List.length_take_le .., hrecords, hlog⟩

theorem modInv_throttle (b : Fin 4) (t : Int) : ModInv (m.throttle b t) := by
  unfold Mod.throttle
  refine modInv_ite (modInv_of_figures (Mod.figures_setReadings ..) ?_) hm
  obtain ⟨hstage, hvfs, hlevel, hcap, hsamples, hrecords, hlog⟩ := hm
  exact ⟨hstage, hvfs, Nat.max_le.mpr ⟨by decide, hlevel⟩, hcap, hsamples, hrecords, hlog⟩

theorem modInv_throttleClear (b : Fin 4) (t : Int) : ModInv (m.throttleClear b t) := by
  unfold Mod.throttleClear
  refine modInv_ite (modInv_of_figures (Mod.figures_setReadings ..) ?_) hm
  obtain ⟨hstage, hvfs, hlevel, hcap, hsamples, hrecords, hlog⟩ := hm
  refine ⟨hstage, hvfs, ?_, hcap, hsamples, hrecords, hlog⟩
  dsimp only
  split <;> omega

theorem modInv_enterTrip (src : Nat) : ModInv (m.enterTrip src) := by
  unfold Mod.enterTrip
  refine modInv_ite hm (modInv_alive (modInv_of_figures (Mod.figures_chipFlag ..) ?_) fun n hn => modInv_moduleRecord ?_ ..)
  · obtain ⟨hstage, hvfs, -, hcap, hsamples, hrecords, hlog⟩ := hm
    exact ⟨hstage, hvfs, show 2 ≤ 3 by decide, hcap, hsamples, hrecords, hlog⟩
  · exact modInv_of_figures (by simp) hn

theorem modInv_enterShutdown (src : Nat) : ModInv (m.enterShutdown src) := by
  unfold Mod.enterShutdown
  have hm' := modInv_enterTrip hm src
  generalize m.enterTrip src = m' at hm'
  refine modInv_ite hm (modInv_alive (modInv_of_figures ((Mod.figures_send ..).trans (Mod.figures_chipFlag ..)) ?_) fun n hn => ?_)
  · obtain ⟨hstage, hvfs, -, hcap, hsamples, hrecords, hlog⟩ := hm'
    exact ⟨hstage, hvfs, Nat.le_refl _, hcap, hsamples, hrecords, hlog⟩
  · exact modInv_of_figures (Mod.figures_forAll (fun n k => by simp) ..) hn

theorem modInv_tripClear (tdie inlet : Int) (flow : Nat) : ModInv (m.tripClear tdie inlet flow) := by
  unfold Mod.tripClear
  refine modInv_ite (modInv_of_figures (Mod.figures_noticeAll ..) ?_) hm
  have hset (r : Readings) : ModInv (({ m with
      gov := { m.gov with level := b2n (m.gov.hot != 0) }
      power := { m.power with thermtripN := true } }).setReadings r) := by
    obtain ⟨hstage, hvfs, -, hcap, hsamples, hrecords, hlog⟩ := hm
    refine modInv_of_figures (Mod.figures_setReadings ..) ⟨hstage, hvfs, ?_, hcap, hsamples, hrecords, hlog⟩
    exact (b2n_le_one _).trans (by decide)
  exact modInv_ite (modInv_of_figures (Mod.figures_send ..) (hset _)) (hset _)

/-! ### Watchdogs and the reset's capture -/

theorem modInv_bayWatchdog (b : Nat) : ModInv (m.bayWatchdog b) := by
  unfold Mod.bayWatchdog
  refine modInv_ite hm (modInv_of_figures (Mod.figures_forAll (fun n k => by simp) ..) (modInv_moduleRecord ?_ ..))
  exact modInv_of_figures (by simp) hm

theorem modInv_capture (k : Nat) (z : ResetState) (e : Ecc) : ModInv (m.capture k z e) := by
  unfold Mod.capture
  split
  next progress m₁ h₁ =>
  replace h₁ : m₁.figures = m.figures := Mod.figures_of_snd h₁ (Mod.figures_draw m)
  extract_lets p facts m₂ p' slot seq g
  have h₂ : m₂.figures = m.figures := by simp [m₂, h₁]
  split
  next x m₃ h₃ =>
  replace h₃ : m₃.figures = m.figures := (Mod.figures_of_snd h₃ (Mod.figures_draw m₂)).trans h₂
  exact modInv_ite (modInv_of_figures (by simp [h₃]) hm) (modInv_moduleRecord (modInv_of_figures (by simp [h₃]) hm) ..)

end
end Sys2Proof.Machine
end

section
/-!
PROOFS. Every command as one operation of the module, and what follows for every step: the invariant, power, time, and the
answer of a next state.
-/

namespace Sys2Proof.Machine
open Claims

/-! ### What a command is: one operation of the module, let be by the power and by the write that carries it -/

/-- Command `c` is the operation `f` of the module. -/
def Does (c : Instr) (f : Mod → Mod) : Prop := ∀ s, exec c s =
  match hostBytes c with
  | some data => s.actWrite data f
  | none => if powerPin c then s.actAlways f else s.act f

section
variable {c : Instr} {f : Mod → Mod}

theorem does_of_act (hc : hostBytes c = none) (hp : powerPin c = false) (h : ∀ s, exec c s = s.act f) : Does c f := by
  intro s
  simp [hc, hp, h]

theorem does_of_actAlways (hc : hostBytes c = none) (hp : powerPin c = true) (h : ∀ s, exec c s = s.actAlways f) :
    Does c f := by
  intro s
  simp [hc, hp, h]

theorem does_of_actWrite {data : List Byte} (hc : hostBytes c = some data) (h : ∀ s, exec c s = s.actWrite data f) :
    Does c f := by
  intro s
  simp [hc, h]

end

section
variable {m : Mod} (hm : ModInv m)
include hm

theorem modInv_row (f : Fn) (op : Nat) (sub : Request → Bool) {act : Mod → Request → Mod}
    (hact : ∀ m r, (act m r).figures = m.figures) : ModInv (m.mbxRow f op sub act) :=
  modInv_mbxRow hm _ _ _ fun m r => modInv_of_figures (hact m r)

theorem modInv_keyRow (f : Fn) (op : Nat) (sub : Request → Bool) {act : Mod → Request → Mod}
    (hact : ∀ m r, (act m r).figures = m.figures) : ModInv (m.mbxRow f op sub act).settleErases :=
  modInv_of_figures (Mod.figures_settleErases _) (modInv_row hm f op sub hact)

end

theorem modInv_resetRow {m : Mod} (hm : ModInv m) {k phase : Nat} {act : Mod → ResetState → Mod}
    (hact : ∀ n z, ModInv n → ModInv (act n z)) : ModInv (m.resetRow k phase act) := by
  refine modInv_molique hm fun n hn => ?_
  split
  · split
    · exact hact _ _ hn
    · exact hn
  · exact hn

theorem exec_does (c : Instr) : ∃ f, Does c f ∧ ∀ m, ModInv m → ModInv (f m) := by
  cases c
  case powerEnable rise mv low =>
    exact ⟨_, does_of_actAlways rfl rfl (exec_powerEnable rise mv low), fun n hn => modInv_powerEnable hn ..⟩
  case powerDisable rf =>
    refine ⟨_, does_of_actAlways rfl rfl (exec_powerDisable rf), fun n hn => ?_⟩
    exact modInv_ite (modInv_powerDown ..) (modInv_ite hn (modInv_of_figures (by simp) hn))
  case launchRecord f k c off data =>
    exact ⟨_, does_of_actWrite rfl (exec_launchRecord f k c off data), fun n => modInv_of_figures (by simp)⟩
  case dmaDescHostPush f k off data =>
    exact ⟨_, does_of_actWrite rfl (exec_dmaDescHostPush f k off data), fun n => modInv_of_figures (by simp)⟩
  case hostApertureWrite k off data e =>
    exact ⟨_, does_of_actWrite rfl (exec_hostApertureWrite k off data e), fun n => modInv_of_figures (by simp)⟩
  case bar2Write k off data e =>
    exact ⟨_, does_of_actWrite rfl (exec_bar2Write k off data e), fun n => modInv_of_figures (by simp)⟩
  case eventHostWrite f k off data =>
    exact ⟨_, does_of_actWrite rfl (exec_eventHostWrite f k off data), fun n => modInv_of_figures (by simp)⟩
  case registerWrite f sp off op =>
    have hf : ∀ m, ModInv m → ModInv (m.host fun m => m.regAccess f sp off op) := fun n => modInv_of_figures (by simp)
    cases op
    case write data => exact ⟨_, does_of_actWrite rfl (exec_registerWrite f sp off (.write data)), hf⟩
    case read n => exact ⟨_, does_of_act rfl rfl fun s => (exec_registerWrite f sp off (.read n) s).trans rfl, hf⟩
  all_goals
    refine ⟨_, does_of_act rfl rfl fun s => by rw [exec]; rfl, ?_⟩
  case bootStageComplete failed => exact fun n hn => modInv_stageComplete hn failed
  case bootFatalFault => exact fun n hn => modInv_ite (modInv_setStage (modInv_mute hn) (.inr rfl)) hn
  case messageTimeTakeup => exact fun n => modInv_takeUp
  case vfFlr k =>
    refine fun n hn => modInv_config hn fun n hn => modInv_ite ?_ hn
    exact modInv_of_figures (Mod.figures_startReset ..) (modInv_resetFn hn _)
  case pfFlr =>
    refine fun n hn => modInv_config hn fun n hn => ?_
    exact modInv_of_figures (Mod.figures_forAll (fun n k => n.figures_startReset k 3 0xFFFF) ..) (modInv_resetFn (modInv_vfsGone hn) _)
  case vfEnableClear =>
    refine fun n hn => modInv_config hn fun n hn => modInv_ite ?_ hn
    exact modInv_of_figures (Mod.figures_forAll (fun n k => by simp) ..) (modInv_vfsGone hn)
  case perst =>
    exact fun n hn => modInv_ite (modInv_of_figures (m := Mod.reset) rfl modInv_reset)
      (modInv_of_figures (m := Mod.reset) (Mod.figures_send ..) modInv_reset)
  case numvfsWrite k =>
    refine fun n hn => modInv_config hn fun n ⟨hstage, _, hrest⟩ => ?_
    split
    · next h =>
      simp only [Bool.and_eq_true, decide_eq_true_eq] at h
      exact ⟨hstage, h.2, hrest⟩
    · next hvfs _ => exact ⟨hstage, hvfs, hrest⟩
  case inputOvervoltage mv => exact fun n hn => modInv_ite (modInv_powerDown ..) hn
  case inputUndervoltageTimeout mv => exact fun n hn => modInv_ite (modInv_powerDown ..) hn
  case inputOvercurrentTimeout amps => exact fun n hn => modInv_ite (modInv_powerDown ..) hn
  case pcieCompletionRx tag status data => exact fun n hn => modInv_host hn fun n hn => modInv_completion hn ..
  case completionTimeout tag => exact fun n hn => modInv_host hn fun n hn => modInv_readTimeout hn _
  case fwAuthDone => exact fun n => modInv_authDone
  case bayControllerWatchdog b => exact fun n hn => modInv_molique hn fun n hn => modInv_bayWatchdog hn b
  case chipControllerWatchdog => exact fun n hn => modInv_molique hn fun n => modInv_moduleFails
  case resetCapture k e => exact fun n hn => modInv_resetRow hn fun n z hn => modInv_capture hn k z e
  case governorSample r => exact fun n hn => modInv_alive hn fun n hn => modInv_governorSample hn r
  case thermalThrottle b t => exact fun n hn => modInv_alive hn fun n hn => modInv_throttle hn b t
  case throttleClear b t => exact fun n hn => modInv_alive hn fun n hn => modInv_throttleClear hn b t
  case thermalTrip t inlet =>
    exact fun n hn => modInv_ite (modInv_enterTrip (modInv_of_figures (Mod.figures_setReadings ..) hn) _) hn
  case lowFlowTimeout => exact fun n hn => modInv_alive hn fun n hn => modInv_ite (modInv_enterTrip hn 3) hn
  case tripStandingTimeout => exact fun n hn => modInv_alive hn fun n hn => modInv_ite (modInv_enterShutdown hn 4) hn
  case thermalShutdown t =>
    exact fun n hn => modInv_ite (modInv_enterShutdown (modInv_of_figures (Mod.figures_setReadings ..) hn) 5) hn
  case tripClear t inlet flow => exact fun n hn => modInv_alive hn fun n hn => modInv_tripClear hn ..
  case pwrSet f => exact fun n hn => modInv_mbxRow hn _ _ _ fun n r hn => modInv_pwrSet hn r
  case fwLoadChunk => exact fun n hn => modInv_mbxRow hn _ _ _ fun n r hn => modInv_fwChunk hn r
  case identGet | healthGet | fwLoad | partCreate | partDelete | partReset | ctxCreate | frameLoad | resvOpen | resvClose |
      shardFetch | shardCopy | shardDetach | linkGrant | linkRelease | sisterBind | sisterUnbind | sisterTakeover |
      faultReadPartition | faultReadModule | faultReadSupersedeLog | attestGet =>
    exact fun n hn => modInv_row hn _ _ _ fun n r => by simp
  case keyLoadPlain | keyLoadWrapped | keyLoadGenerate | keyBindMem | keyUnbindMem | keyErase | keyEraseNow =>
    exact fun n hn => modInv_keyRow hn _ _ _ fun n r => by simp
  case arbHoldCutoff a =>
    refine fun n => modInv_of_figures (Mod.figures_alive n fun n => ?_)
    split
    · simp
    · dsimp only
      split <;> simp
    · split <;> simp
  case pkeOperationDone | sisHeartbeatTx | sisAckTimeout | sisReleaseRx | sisBreakRx | timeExchange =>
    exact fun n => modInv_of_figures (Mod.figures_alive n fun n => by split <;> simp)
  case sisBindTimeout | keyLoadWrappedResponse =>
    exact fun n => modInv_of_figures (Mod.figures_molique n fun n => by split <;> simp)
  case creditRx | gtagRx =>
    refine fun n => modInv_of_figures (Mod.figures_alive n fun n => ?_)
    rw [Mod.figures_ite]
    split
    · split <;> simp
    · rfl
  case spdmGetMeasurements =>
    exact fun n => modInv_of_figures (Mod.figures_spdmMsg _ _ _ _ _ fun n => by dsimp only; split <;> simp)
  case windowUnitRx =>
    refine fun n => modInv_of_figures ?_
    dsimp only
    split
    · rfl
    · simp only [Mod.figures_ite, Mod.figures_modPart, Mod.figures_busError]
      split
      · rfl
      · split
        · split <;> simp
        · rfl
  case dmaBusError => exact fun n => modInv_of_figures (by dsimp only; split <;> simp)
  case fwLoadChunkTimeout | gatherWindowEnd | dmaTransfer | dmaUnitWritten | patrolScrub | kvRead | kvAppend | linkSend | linkRecv | linkExchange =>
    exact fun n => modInv_of_figures (by split <;> simp)
  all_goals exact fun n => modInv_of_figures (by simp)

theorem modInv_actWrite {s t : State} {f : Mod → Mod} {data : List Byte} (hm : ModInv s.mod)
    (hf : ∀ m, ModInv m → ModInv (f m)) (h : s.actWrite data f = .next t) : ModInv t.mod := by
  unfold State.actWrite at h
  split at h
  · cases h
    exact modInv_ite (hf _ hm) hm
  · cases h

theorem modInv_exec {c : Instr} {s t : State} (hm : ModInv s.mod) (h : exec c s = .next t) : ModInv t.mod := by
  obtain ⟨f, hdoes, hf⟩ := exec_does c
  rw [hdoes s] at h
  split at h
  · exact modInv_actWrite hm hf h
  · split at h
    · cases h
      exact hf _ hm
    · cases h
      exact modInv_ite (hf _ hm) hm

/-- Settles O6: an operation that leaves the bounded figures keeps the invariant, and the few that move one keep it in its
bounds. -/
theorem stepsKeepInvariant : Obligations.StepsKeepInvariant := by
  unfold Obligations.StepsKeepInvariant
  intro s t hm h
  unfold step at h
  split at h
  · next c rest _ => exact modInv_exec (s := { pending := rest, mod := s.mod }) hm h
  · cases h
    refine modInv_ite (modInv_of_figures (m := s.mod) ?_ hm) hm
    dsimp only
    simp

/-- Settles O5. -/
theorem resetMeetsInvariant : Obligations.ResetMeetsInvariant := by
  unfold Obligations.ResetMeetsInvariant
  exact modInv_reset

/-- Settles O3: a command is one operation, under a write that is well formed where a write carries it. -/
theorem commandsNeverStop : Obligations.CommandsNeverStop := by
  unfold Obligations.CommandsNeverStop Gives
  intro c s
  obtain ⟨f, hdoes, -⟩ := exec_does c
  rw [hdoes s]
  cases hb : hostBytes c with
  | none =>
    cases hp : powerPin c
    · exact ⟨_, rfl⟩
    · exact ⟨_, rfl⟩
  | some data =>
    dsimp only [State.actWrite]
    split
    · exact ⟨_, rfl⟩
    · rfl

/-- Settles O4: an operation that is not of the power pin acts only with power. -/
theorem nothingActsWithoutPower : Obligations.NothingActsWithoutPower := by
  unfold Obligations.NothingActsWithoutPower Gives
  intro c s hoff hp hwrite
  obtain ⟨f, hdoes, -⟩ := exec_does c
  have hact : s.act f = .next s := State.act_off hoff f
  rw [hdoes s]
  cases hb : hostBytes c with
  | none => simpa [hp] using hact
  | some data => simpa [State.actWrite, hwrite data hb] using hact

/-- Settles O1. -/
theorem stepRunsFrontCommand : Obligations.StepRunsFrontCommand := by
  unfold Obligations.StepRunsFrontCommand
  intro c rest m
  rfl

/-- Settles O2: a slew below one nanosecond gathers no whole one. -/
theorem idleStepCountsTime : Obligations.IdleStepCountsTime := by
  unfold Obligations.IdleStepCountsTime
  intro m hon hlow hhigh
  have hfast : ¬ 1000 ≤ m.time.subPs := by omega
  have hslow : ¬ m.time.subPs ≤ -1000 := by omega
  simp [step, State.idle, State.act, hon, hfast, hslow]

/-- Settles O7: every table of the reset state is empty. -/
theorem resetValues : Obligations.ResetValues := by
  unfold Obligations.ResetValues
  refine ⟨rfl, rfl, rfl, rfl, fun k => ⟨rfl, rfl, rfl, rfl⟩, fun i => rfl, rfl, rfl, rfl, fun off => rfl, fun k off => rfl⟩

end Sys2Proof.Machine
end

section
/-!
PROOFS. Tags of device reads (02 R47), the least term of the governor limit (19 R426), and payload frames on a link.
-/

namespace Sys2Proof.Machine
open Claims

/-! ### The tag of a device read (02 R47) -/

theorem freeTag_lt (used : List Nat) (start fuel : Nat) : freeTag used start fuel < 16384 := by
  induction fuel generalizing start with
  | zero => exact Nat.mod_lt _ (by decide)
  | succ fuel ih =>
    unfold freeTag
    split
    · exact ih _
    · exact Nat.mod_lt _ (by decide)

/-- A tag in use is the answer only where all that were looked at are. -/
theorem mem_of_freeTag_mem {used : List Nat} {start fuel : Nat} (h : freeTag used start fuel ∈ used) :
    ∀ i ≤ fuel, (start + i) % 16384 ∈ used := by
  induction fuel generalizing start with
  | zero => simpa [freeTag] using h
  | succ fuel ih =>
    unfold freeTag at h
    split at h
    case isTrue hused =>
      intro i hi
      cases i with
      | zero => simpa using hused
      | succ i => simpa [Nat.add_comm, Nat.add_left_comm] using ih h i (Nat.le_of_succ_le_succ hi)
    case isFalse hfree => simp [h] at hfree

theorem freeTag_notMem {used : List Nat} (start : Nat) (h : used.length < 16384) :
    freeTag used start (used.length + 1) ∉ used := by
  intro hmem
  have hsub : (Finset.range (used.length + 1)).image (fun i => (start + i) % 16384) ⊆ used.toFinset := by
    intro t ht
    obtain ⟨i, hi, rfl⟩ := Finset.mem_image.mp ht
    exact List.mem_toFinset.mpr (mem_of_freeTag_mem hmem i (Finset.mem_range.mp hi).le)
  have hinj : Set.InjOn (fun i => (start + i) % 16384) (Finset.range (used.length + 1)) := by
    intro i hi j hj hij
    simp only [Finset.coe_range, Set.mem_Iio] at hi hj hij
    omega
  have hcard := (Finset.card_le_card hsub).trans used.toFinset_card_le
  rw [Finset.card_image_of_injOn hinj, Finset.card_range] at hcard
  omega

/-- Settles O13. -/
theorem tagsAreFresh : Obligations.TagsAreFresh := by
  unfold Obligations.TagsAreFresh
  intro m fn dest addr len hroom htags
  have hnew := freeTag_notMem (used := m.pcie.reads.map (·.tag) ++ m.pcie.quarantined) m.draw.1 (by simpa using htags)
  rw [List.mem_append, not_or] at hnew
  refine ⟨_, freeTag_lt .., hnew.1, hnew.2, ?_⟩
  simp [Mod.issueRead, Nat.not_le.mpr hroom]

/-! ### The governor's limit (19 R426) -/

theorem limitTerms_ne_nil (g : Governor) : limitTerms g ≠ [] := List.cons_ne_nil _ _

theorem Governor.limit_eq (g : Governor) : ∃ t, (limitTerms g).min? = some t ∧ g.limit = t.toNat := by
  unfold Governor.limit
  split
  next h => exact absurd h (limitTerms_ne_nil g)
  next t ts h => exact ⟨_, by rw [h, List.min?_cons'], rfl⟩

/-- Settles O31: the limit is the least of its terms, and no less than 0. -/
theorem limitIsTheLeastTerm : Obligations.LimitIsTheLeastTerm := by
  unfold Obligations.LimitIsTheLeastTerm
  intro g
  obtain ⟨t, hmin, hlimit⟩ := g.limit_eq
  obtain ⟨hmem, hle⟩ := List.min?_eq_some_iff.mp hmin
  rw [hlimit, Int.toNat_eq_max]
  exact ⟨fun x hx => max_le_max_right 0 (hle x hx), t, hmem, rfl⟩

/-! ### Payload frames on a link (15 R335) -/

@[simp] theorem Mod.links_frameMsg (m : Mod) (n : Nat) (f : OutFrame) : (m.frameMsg n f).2.links = m.links := by
  unfold Mod.frameMsg
  split <;> rfl

@[simp] theorem Mod.parts_frameMsg (m : Mod) (n : Nat) (f : OutFrame) : (m.frameMsg n f).2.parts = m.parts := by
  unfold Mod.frameMsg
  split <;> rfl

@[simp] theorem Mod.link_frameMsg (m : Mod) (n : Nat) (f : OutFrame) (i : Nat) : (m.frameMsg n f).2.link i = m.link i := by
  simp [Mod.link]

@[simp] theorem Mod.link_send (m : Mod) (x : Sent) (n : Nat) : (m.send x).link n = m.link n := by
  simp [Mod.link]

/-- The link frame as which `f` leaves on link `n`. -/
def Mod.leaving (m : Mod) (n : Nat) (f : OutFrame) : LinkFrame :=
  let seq := (m.link n).txSeq
  let type := if f.poison then 2 else 1
  { seq := seq, path := BitVec.ofNat 12 f.path, type := BitVec.ofNat 4 type, body := f.body
    crc := BitVec.ofNat 32 (frameCrc seq.toNat f.path type f.body) }

/-- A frame stands last in its link's replay buffer, beside the lane on which it left. -/
theorem Mod.link_placeFrame (m : Mod) (n : Nat) (f : OutFrame) : ∃ lane, (m.placeFrame n f).link n =
    { m.link n with replay := (m.link n).replay ++ [(m.leaving n f, lane)], txSeq := (m.link n).txSeq + 1 } := by
  let ls := lanesOf (m.link n).live
  refine ⟨ls.getD ((m.link n).txSeq.toNat % max 1 ls.length) 0, ?_⟩
  unfold Mod.placeFrame
  dsimp only
  cases f.gtag <;> cases (m.frameMsg n f).1 <;> simp [Mod.leaving, ls]

@[simp] theorem Mod.parts_placeFrame (m : Mod) (n : Nat) (f : OutFrame) : (m.placeFrame n f).parts = m.parts := by
  unfold Mod.placeFrame
  dsimp only
  cases f.gtag <;> cases (m.frameMsg n f).1 <;> simp

@[simp] theorem Mod.parts_placeFrames (m : Mod) (n : Nat) (fs : List OutFrame) :
    (m.forAll (fun m f => m.placeFrame n f) fs).parts = m.parts :=
  Mod.forAll_keeps (P := fun x => x.parts = m.parts) (fun x f hx => (x.parts_placeFrame n f).trans hx) fs m rfl

/-- What a list of frames adds to the replay buffer of the link on which they leave. -/
theorem Mod.link_placeFrames (m : Mod) (n : Nat) (fs : List OutFrame) :
    ∃ sent, (m.forAll (fun m f => m.placeFrame n f) fs).link n =
        { m.link n with replay := (m.link n).replay ++ sent, txSeq := (m.link n).txSeq + BitVec.ofNat 16 fs.length } ∧
      sent.map (·.1.seq) = (List.range fs.length).map (fun i => (m.link n).txSeq + BitVec.ofNat 16 i) ∧
      sent.map (·.1.body) = fs.map (·.body) := by
  induction fs generalizing m with
  | nil => exact ⟨[], by simp, rfl, rfl⟩
  | cons f fs ih =>
    obtain ⟨lane, hlink⟩ := m.link_placeFrame n f
    obtain ⟨sent, hlinks, hseqs, hbodies⟩ := ih (m.placeFrame n f)
    rw [hlink] at hlinks hseqs
    refine ⟨(m.leaving n f, lane) :: sent, ?_, ?_, ?_⟩
    · rw [Mod.forAll_cons, hlinks]
      simp [BitVec.ofNat_add, BitVec.add_assoc, BitVec.add_comm]
    · simp [List.range_succ_eq_map, Mod.leaving, hseqs, BitVec.ofNat_add, BitVec.add_assoc, BitVec.add_comm, Function.comp_def]
    · simp [Mod.leaving, hbodies]

/-- Settles O34. -/
theorem sequenceNumbers : Obligations.SequenceNumbers := by
  unfold Obligations.SequenceNumbers
  intro m n fs
  obtain ⟨sent, hlink, hseqs, hbodies⟩ := m.link_placeFrames n fs
  dsimp only
  rw [hlink]
  refine ⟨rfl, ?_, ?_, ?_, m.parts_placeFrames n fs⟩
  · simpa using hseqs
  · simpa using hbodies
  · simp

end Sys2Proof.Machine
end

section
/-!
PROOFS. Reads of one word, and the pair ADM_DEVTIME.
-/

namespace Sys2Proof.Machine
open Claims

/-! ### A read of one word of a register (20 R438, R451) -/

/-- A read of one whole word, at an offset that is no area of its own, gives the word's value and has its effect. -/
theorem Mod.regAccess_readWord {m : Mod} {f : Fn} {sp : RegSpace} {off : Nat} {t : Target} (ht : m.target f sp off = some t)
    (harea : t.area = false) (halign : off % 4 = 0) :
    m.regAccess f sp off (.read 4) = { m.wordReadEffect (.fn f) t with
      read := some { bytes := leBytes 4 (m.wordRead (.fn f) t).toNat, ep := false } } := by
  simp [Mod.regAccess, Mod.regRead, ht, harea, halign]

theorem gives_registerRead {s : State} (hl : Linked s) (f : Fn) (sp : RegSpace) (off n : Nat) :
    Gives (.registerWrite f sp off (.read n)) s (s.mod.regAccess f sp off (.read n)) :=
  gives_of_host hl (exec_registerWrite f sp off (.read n) s)

/-- The low half of `ADM_DEVTIME` is read, and the high half as it stands is kept. -/
theorem Mod.regAccess_devtimeLow (m : Mod) : m.regAccess .pf .chip 8 (.read 4) = { m with
    shadows := Table.set (pairKey (.fn .pf) 8) (BitVec.ofNat 32 (m.devtime.toNat / 2 ^ 32)) m.shadows
    read := some { bytes := leBytes 4 (m.devtime.toNat % 2 ^ 32), ep := false } } := by
  have hlow : (Target.chip 8).pairLow = true := by decide
  have hhigh : (Target.chip 8).pairHigh = false := by decide
  rw [Mod.regAccess_readWord (t := .chip 8) rfl rfl rfl]
  simp [Mod.wordReadEffect, hlow, Target.place, Mod.highOf, Mod.wordRead, hhigh, Mod.wordAt, Mod.chipRead]

/-- The high half is read as the reader's shadow holds it. -/
theorem Mod.regAccess_devtimeHigh (m : Mod) : m.regAccess .pf .chip 12 (.read 4) = { m with
    read := some { bytes := leBytes 4 (Table.get 0 (pairKey (.fn .pf) 8) m.shadows).toNat, ep := false } } := by
  have hlow : (Target.chip 12).pairLow = false := by decide
  have hhigh : (Target.chip 12).pairHigh = true := by decide
  have hrc : chipRc 12 = 0 := by decide
  rw [Mod.regAccess_readWord (t := .chip 12) rfl rfl rfl]
  simp [Mod.wordReadEffect, hlow, Target.place, Mod.wordRead, hhigh, Mod.readClear, hrc]

/-- Settles O59. -/
theorem pairReads : Obligations.PairReads := by
  unfold Obligations.PairReads
  intro s hl
  refine ⟨_, gives_registerRead hl .., ?_⟩
  rw [Mod.regAccess_devtimeLow]
  refine ⟨rfl, rfl, fun t hlt hshadows => ⟨_, gives_registerRead hlt .., ?_⟩⟩
  have hhigh : s.mod.devtime.toNat / 2 ^ 32 < 2 ^ 32 := by have := s.mod.devtime.isLt; omega
  rw [Mod.regAccess_devtimeHigh]
  refine ⟨?_, rfl⟩
  rw [hshadows, Table.get_set_same, BitVec.toNat_ofNat, Nat.mod_eq_of_lt hhigh]

end Sys2Proof.Machine
end

section
/-!
PROOFS. The value of a group of products (07 R176).
-/

namespace Sys2Proof.Machine
open Claims

/-! ### The value of a group of products (07 R176) -/

/-- The number that a finite value is. -/
def FNum.value : FNum → ℚ
  | .fin g a e => (if g then -(a : ℚ) else a) * 2 ^ e
  | _ => 0

theorem signedAt_value (g : Bool) (a : Nat) {e base : Int} (h : base ≤ e) :
    (signedAt g a e base : ℚ) * 2 ^ base = (FNum.fin g a e).value := by
  have hpow : (2 : ℚ) ^ (e - base).toNat * 2 ^ base = 2 ^ e := by
    rw [← zpow_natCast, ← zpow_add₀ (by norm_num), Int.toNat_of_nonneg (by omega), Int.sub_add_cancel]
  cases g <;> simp [signedAt, FNum.value, ← hpow, mul_assoc]

theorem signedAt_eq_zero {g : Bool} {a : Nat} {e base : Int} : signedAt g a e base = 0 ↔ a = 0 := by
  cases g <;> simp [signedAt]

/-- Two terms of one sign do not cancel. -/
theorem signedAt_add_eq_zero {g : Bool} {a b : Nat} {e i base : Int} :
    signedAt g a e base + signedAt g b i base = 0 ↔ a = 0 ∧ b = 0 := by
  have hterm (c : Nat) (j : Int) : 0 ≤ (c : Int) * 2 ^ (j - base).toNat := by positivity
  rw [← signedAt_eq_zero (g := g) (e := e) (base := base), ← signedAt_eq_zero (g := g) (a := b) (e := i) (base := base)]
  have ha := hterm a e
  have hb := hterm b i
  cases g <;> simp only [signedAt, if_true, Bool.false_eq_true, if_false] <;> omega

/-- A finite value is the number that its sign, magnitude and exponent name. -/
theorem FNum.value_ofInt (v base : Int) : (FNum.fin (decide (v < 0)) v.natAbs base).value = (v : ℚ) * 2 ^ base := by
  rcases lt_or_ge v 0 with h | h
  · simp [FNum.value, h, Nat.cast_natAbs, abs_of_neg h]
  · simp [FNum.value, not_lt.mpr h, Nat.cast_natAbs, abs_of_nonneg h]

theorem FNum.add_fin (s t : Bool) (a b : Nat) (e g : Int) : ∃ u c i, (FNum.fin s a e).add (.fin t b g) = .fin u c i ∧
    (FNum.fin u c i).value = (FNum.fin s a e).value + (FNum.fin t b g).value := by
  rw [← signedAt_value s a (min_le_left e g), ← signedAt_value t b (min_le_right e g), ← add_mul]
  unfold FNum.add
  dsimp only
  split
  next hv => exact ⟨_, _, _, rfl, by rw [← Int.cast_add, hv]; simp [FNum.value]⟩
  next => exact ⟨_, _, _, rfl, by rw [FNum.value_ofInt, Int.cast_add]⟩

section
variable {x y : FNum}

/-- A sum is -0 only where both terms are. -/
theorem FNum.add_eq_negZero : (∃ e, x.add y = .fin true 0 e) ↔ (∃ e, x = .fin true 0 e) ∧ ∃ e, y = .fin true 0 e := by
  fun_cases FNum.add x y
  case case7 s a e t b g base v hv =>
    have hmag (hs : s = true) (ht : t = true) : a = 0 ∧ b = 0 := by
      subst hs ht
      exact signedAt_add_eq_zero.mp hv
    simp only [FNum.fin.injEq, Bool.and_eq_true]
    grind
  case case8 s a e t b g base v hv =>
    have hmag : ¬ (a = 0 ∧ b = 0) := by
      rintro ⟨rfl, rfl⟩
      exact hv (by simp [v, signedAt])
    simp only [FNum.fin.injEq, Int.natAbs_eq_zero]
    grind
  all_goals simp_all

theorem FNum.nan_eq_add : .nan = x.add y ↔ x = .nan ∨ y = .nan ∨
    (x = .inf true ∧ y = .inf false) ∨ (x = .inf false ∧ y = .inf true) := by
  fun_cases FNum.add x y
  case case4 s t hst => cases s <;> cases t <;> simp_all
  all_goals simp_all

theorem FNum.inf_eq_add {g : Bool} : .inf g = x.add y ↔
    (x = .inf g ∨ y = .inf g) ∧ x ≠ .nan ∧ y ≠ .nan ∧ x ≠ .inf (!g) ∧ y ≠ .inf (!g) := by
  fun_cases FNum.add x y <;> cases g <;> simp_all
  case case4.false s t hst => cases s <;> simp_all
  case case4.true s t hst => cases s <;> simp_all

end

theorem groupValue_add (x y : FNum) (ps : List FNum) : groupValue (x :: y :: ps) = groupValue (x.add y :: ps) := rfl

theorem groupValue_nan (x : FNum) (ps : List FNum)
    (h : .nan ∈ x :: ps ∨ (.inf true ∈ x :: ps ∧ .inf false ∈ x :: ps)) : groupValue (x :: ps) = .nan := by
  induction ps generalizing x with
  | nil =>
    simp only [List.mem_singleton] at h
    grind [groupValue]
  | cons y ps ih =>
    rw [groupValue_add]
    refine ih _ ?_
    simp only [List.mem_cons, FNum.nan_eq_add, FNum.inf_eq_add] at h ⊢
    grind

theorem groupValue_inf (x : FNum) (ps : List FNum) {g : Bool} (hnan : .nan ∉ x :: ps) (hinf : .inf g ∈ x :: ps)
    (hother : .inf (!g) ∉ x :: ps) : groupValue (x :: ps) = .inf g := by
  induction ps generalizing x with
  | nil => exact (List.mem_singleton.mp hinf).symm
  | cons y ps ih =>
    rw [groupValue_add]
    simp only [List.mem_cons, not_or] at hnan hinf hother
    refine ih _ ?_ ?_ ?_ <;> simp only [List.mem_cons, FNum.nan_eq_add, FNum.inf_eq_add] <;> cases g <;> grind

theorem groupValue_finite (x : FNum) (ps : List FNum) (hfin : ∀ y ∈ x :: ps, ∃ g a e, y = .fin g a e) :
    ∃ g a e, groupValue (x :: ps) = .fin g a e ∧ (FNum.fin g a e).value = ((x :: ps).map FNum.value).sum ∧
      (a = 0 → (g = true ↔ ∀ y ∈ x :: ps, ∃ e, y = .fin true 0 e)) := by
  induction ps generalizing x with
  | nil =>
    obtain ⟨g, a, e, rfl⟩ := hfin x (List.mem_singleton_self x)
    exact ⟨g, a, e, rfl, by simp, by simp +contextual⟩
  | cons y ps ih =>
    simp only [List.forall_mem_cons] at hfin ih ⊢
    obtain ⟨⟨s, a, e, hx⟩, ⟨t, b, i, hy⟩, hps⟩ := hfin
    obtain ⟨u, c, j, hadd, hvalue⟩ := FNum.add_fin s t a b e i
    obtain ⟨g, d, l, hgroup, hsum, hzero⟩ := ih (x.add y) ⟨by rw [hx, hy]; exact ⟨_, _, _, hadd⟩, hps⟩
    refine ⟨g, d, l, hgroup, ?_, fun hd => (hzero hd).trans ?_⟩
    · rw [hsum, hx, hy]
      simp [hadd, hvalue, add_assoc]
    · rw [FNum.add_eq_negZero, and_assoc]

/-- Settles O44: the group's sum is that of the sum of its first two products and the others. -/
theorem groupValues : Obligations.GroupValues := by
  unfold Obligations.GroupValues
  intro ps hne
  obtain ⟨x, ps, rfl⟩ := List.exists_cons_of_ne_nil hne
  refine ⟨groupValue_nan x ps, fun g => groupValue_inf x ps, fun hfin => ?_⟩
  obtain ⟨g, a, e, hgroup, hsum, hzero⟩ := groupValue_finite x ps hfin
  exact ⟨g, a, e, hgroup, hsum, hzero⟩

end Sys2Proof.Machine
end

section
/-!
PROOFS. Reconciliation and the accepted path (13 R306, R310).
-/

namespace Sys2Proof.Machine
open Claims

/-! ### Reconciliation (13 R310) -/

theorem length_takeWhile_range {p : Nat → Bool} {n : Nat} : ((List.range n).takeWhile p).length = n ↔ ∀ j < n, p j = true := by
  have hprefix := List.takeWhile_prefix (l := List.range n) p
  rw [show (∀ j < n, p j = true) ↔ (List.range n).takeWhile p = List.range n by simp]
  exact ⟨fun h => hprefix.eq_of_length (by simpa using h), fun h => by simp [h]⟩

theorem length_takeWhile_range_le (p : Nat → Bool) (n : Nat) : ((List.range n).takeWhile p).length ≤ n := by
  simpa using (List.takeWhile_prefix (l := List.range n) p).length_le

theorem reconcile_bounds {lc lt : Nat} (h : lc ≤ lt) (a g : List Byte) : lc ≤ (reconcile lc lt a g).1 ∧
    (reconcile lc lt a g).1 ≤ (reconcile lc lt a g).2.1 ∧ (reconcile lc lt a g).2.1 ≤ lt ∧
    ((reconcile lc lt a g).2.2 = true → (reconcile lc lt a g).1 = (reconcile lc lt a g).2.1) := by
  unfold reconcile
  extract_lets same p
  have hp : p ≤ min (recA a) (recA g) := length_takeWhile_range_le ..
  split
  · simpa using h
  next hfits =>
    simp only [Bool.or_eq_true, bne_iff_ne, ne_eq, decide_eq_true_eq, not_or, not_not, not_lt] at hfits
    split
    next hright =>
      simp only [Bool.and_eq_true, beq_iff_eq] at hright
      simp only [Bool.false_eq_true, false_implies, and_true]
      omega
    · simp only [le_max_left, le_refl, max_le_iff, implies_true, and_true, true_and]
      omega

theorem reconcile_right_iff (lc lt : Nat) (a g : List Byte) : (reconcile lc lt a g).2.2 = false ↔
    (recBase g = recBase a ∧ lc ≤ recBase g ∧ recBase g + recA g ≤ lt ∧ recA g = recA a ∧
      (∀ j, j < recA a → recTok a j = recTok g j) ∧ recBonus g = recBonus a) := by
  unfold reconcile
  extract_lets same p
  split
  next hmisfit =>
    simp only [Bool.or_eq_true, bne_iff_ne, ne_eq, decide_eq_true_eq] at hmisfit
    simp only [Bool.true_eq_false, false_iff]
    omega
  next hfits =>
    simp only [Bool.or_eq_true, bne_iff_ne, ne_eq, decide_eq_true_eq, not_or, not_not, not_lt] at hfits
    obtain ⟨⟨hbase, hlc⟩, hlt⟩ := hfits
    have hall (hA : recA g = recA a) : p = recA a ↔ ∀ j, j < recA a → recTok a j = recTok g j := by
      simpa [p, same, hA] using length_takeWhile_range (p := same) (n := recA a)
    split
    next hright =>
      simp only [Bool.and_eq_true, beq_iff_eq] at hright
      obtain ⟨⟨hA, hp⟩, hbonus⟩ := hright
      simpa [hbase, hA, hbonus, ← hall hA, hp] using ⟨hbase ▸ hlc, hA ▸ hbase ▸ hlt⟩
    next hwrong =>
      simp only [Bool.and_eq_true, beq_iff_eq] at hwrong
      simp only [Bool.true_eq_false, false_iff]
      rintro ⟨-, -, -, hA, htok, hbonus⟩
      exact hwrong ⟨⟨hA, (hall hA).mpr htok⟩, hbonus⟩

/-! ### The accepted path (13 R306) -/

/-- `v` is the child of `u` whose token `u` chose. -/
def Chosen (tree : List Byte) (choice : Nat → Nat) (u v : Nat) : Prop :=
  treeParent tree v = u ∧ treeToken tree v = choice u

/-- `v` is the lowest place of the tree that follows `u`. -/
def Follows (tree : List Byte) (choice : Nat → Nat) (u v : Nat) : Prop :=
  1 ≤ v ∧ treeParent tree v = u ∧ treeToken tree v = choice u ∧ ∀ i, 1 ≤ i → i < v → ¬ Chosen tree choice u i

section
variable {tree : List Byte} {choice : Nat → Nat}

theorem acceptFrom_head (fuel u : Nat) : (acceptFrom tree choice fuel u).head? = some u := by
  cases fuel with
  | zero => rfl
  | succ fuel =>
    unfold acceptFrom
    split <;> rfl

/-- A path is not empty, so that its last place is no default. -/
theorem acceptFrom_getLastD (fuel u d : Nat) :
    (acceptFrom tree choice fuel u).getLastD d = (acceptFrom tree choice fuel u).getLastD 0 := by
  have hhead := acceptFrom_head (tree := tree) (choice := choice) fuel u
  cases h : acceptFrom tree choice fuel u with
  | nil => simp [h] at hhead
  | cons v vs => rfl

/-- With one more step left, the path ends at a place that none follows, or goes on from the one that does. -/
theorem acceptFrom_succ (fuel u : Nat) :
    (acceptFrom tree choice (fuel + 1) u = [u] ∧ ∀ i, 1 ≤ i → i < treeN tree → ¬ Chosen tree choice u i) ∨
      ∃ v, v < treeN tree ∧ Follows tree choice u v ∧
        acceptFrom tree choice (fuel + 1) u = u :: acceptFrom tree choice fuel v := by
  rw [acceptFrom]
  split
  next v hfind =>
    obtain ⟨hv, hmem, hlow⟩ := List.find?_range_eq_some.mp hfind
    simp only [Bool.and_eq_true, decide_eq_true_eq, beq_iff_eq] at hv
    refine .inr ⟨v, List.mem_range.mp hmem, ⟨hv.1.1, hv.1.2, hv.2, fun i h1 hi hc => ?_⟩, rfl⟩
    simpa [h1, hc.1, hc.2] using hlow i hi
  next hfind =>
    refine .inl ⟨rfl, fun i h1 hi hc => ?_⟩
    simpa [h1, hc.1, hc.2] using List.find?_range_eq_none.mp hfind i hi

theorem acceptFrom_lt {u : Nat} (hu : u < treeN tree) (fuel : Nat) : ∀ v ∈ acceptFrom tree choice fuel u, v < treeN tree := by
  induction fuel generalizing u with
  | zero => simpa [acceptFrom] using hu
  | succ fuel ih =>
    rcases acceptFrom_succ (tree := tree) (choice := choice) fuel u with ⟨hpath, -⟩ | ⟨v, hv, -, hpath⟩
    · simpa [hpath] using hu
    · simpa [hpath, hu] using ih hv

theorem acceptFrom_isChain (fuel u : Nat) : (acceptFrom tree choice fuel u).IsChain (Follows tree choice) := by
  induction fuel generalizing u with
  | zero => exact List.isChain_singleton u
  | succ fuel ih =>
    rcases acceptFrom_succ (tree := tree) (choice := choice) fuel u with ⟨hpath, -⟩ | ⟨v, -, hfollows, hpath⟩
    · rw [hpath]
      exact List.isChain_singleton u
    · rw [hpath, List.isChain_cons, acceptFrom_head]
      exact ⟨by simpa using hfollows, ih v⟩

/-- In a tree whose places come after their parents, a path with a step left for each later place ends where none follows. -/
theorem acceptFrom_last (hparent : ∀ i, 1 ≤ i → i < treeN tree → treeParent tree i < i) {fuel u : Nat}
    (hfuel : treeN tree ≤ u + fuel) : ∀ i, 1 ≤ i → i < treeN tree →
      ¬ Chosen tree choice ((acceptFrom tree choice fuel u).getLastD 0) i := by
  induction fuel generalizing u with
  | zero =>
    intro i h1 hi hc
    have hlt := hparent i h1 hi
    rw [hc.1] at hlt
    simp only [acceptFrom, List.getLastD_cons, List.getLastD_nil] at hlt
    omega
  | succ fuel ih =>
    rcases acceptFrom_succ (tree := tree) (choice := choice) fuel u with ⟨hpath, hnone⟩ | ⟨v, hv, hfollows, hpath⟩
    · simpa [hpath] using hnone
    · have hlt := hparent v hfollows.1 hv
      rw [hfollows.2.1] at hlt
      rw [hpath, List.getLastD_cons, acceptFrom_getLastD]
      exact ih (by omega)

end

/-- Settles O53. -/
theorem speculationOutcome : Obligations.SpeculationOutcome := by
  unfold Obligations.SpeculationOutcome
  refine ⟨fun lc lt a g h => ?_, fun tree choice h1 h64 hparent => ?_⟩
  · obtain ⟨hlc, hle, hlt, hend⟩ := reconcile_bounds h a g
    exact ⟨hlc, hle, hlt, hend, reconcile_right_iff lc lt a g⟩
  · refine ⟨acceptFrom_head .., acceptFrom_lt (by omega) _, fun j hj => ?_, acceptFrom_last hparent (by omega)⟩
    have hstep := List.isChain_iff_getElem.mp (acceptFrom_isChain (tree := tree) (choice := choice) 64 0) j hj
    dsimp only
    rw [List.getD_eq_getElem _ _ hj, List.getD_eq_getElem _ _ (by omega)]
    exact hstep

end Sys2Proof.Machine
end

section
/-!
PROOFS. Events, signals of one instant, and waits (04 R113 to R115).
-/

namespace Sys2Proof.Machine
open Claims

/-! ### Waits that are met and holds that settle: what they leave of a partition -/

theorem Table.find_mapValues {α β : Type} (n : Nat) (g : Nat → α → β) (t : Table α) :
    Table.find n (t.map fun e => (e.1, g e.1 e.2)) = (Table.find n t).map (g n) := by
  induction t with
  | nil => rfl
  | cons e t ih =>
    simp only [List.map_cons, Table.find, ih]
    split
    next h => rw [h]; rfl
    · rfl

/-- A partition of number `k` whose waits are met as the events of `m` meet them. -/
def Partition.latched (p : Partition) (m : Mod) (k : Nat) : Partition :=
  { p with ctxs := p.ctxs.map fun x => (x.1, x.2.mapLanded fun r => r.latch m k) }

@[simp] theorem Mod.part_latchWaits (m : Mod) (k : Nat) : m.latchWaits.part k = (m.part k).latched m k := by
  have hfind := Table.find_mapValues k (fun j (p : Partition) => p.latched m j) m.parts
  unfold Partition.latched at hfind
  simp only [Mod.part, Table.get, Mod.latchWaits, hfind]
  cases Table.find k m.parts <;> rfl

section
variable (p : Partition) (m : Mod) (k : Nat)

@[simp] theorem Partition.regs_latched : (p.latched m k).regs = p.regs := rfl
@[simp] theorem Partition.near_latched : (p.latched m k).near = p.near := rfl
@[simp] theorem Partition.created_latched : (p.latched m k).created = p.created := rfl
@[simp] theorem Partition.hold_latched : (p.latched m k).hold = p.hold := rfl
@[simp] theorem Partition.reg_latched (off : Nat) : (p.latched m k).reg off = p.reg off := rfl
@[simp] theorem Partition.event_latched (e : Nat) : (p.latched m k).event e = p.event e := rfl

/-- A hold that settles changes its partition in nothing but the hold. -/
theorem Mod.part_settleHold (j : Nat) : (m.settleHold k).part j = { m.part j with hold := ((m.settleHold k).part j).hold } := by
  unfold Mod.settleHold
  split
  · rfl
  · by_cases h : j = k
    · subst h
      simp only [Mod.part_modPart]
    · simp only [Mod.part_modPart_other _ h]

theorem Mod.part_settleHolds : m.settleHolds.part k = { m.part k with hold := (m.settleHolds.part k).hold } := by
  refine Mod.forAll_keeps (P := fun n => n.part k = { m.part k with hold := (n.part k).hold }) (fun n e hn => ?_) m.parts m rfl
  rw [Mod.part_settleHold, hn]

@[simp] theorem Mod.regs_settleHolds : (m.settleHolds.part k).regs = (m.part k).regs := by rw [Mod.part_settleHolds]
@[simp] theorem Mod.near_settleHolds : (m.settleHolds.part k).near = (m.part k).near := by rw [Mod.part_settleHolds]
@[simp] theorem Mod.reg_settleHolds (off : Nat) : (m.settleHolds.part k).reg off = (m.part k).reg off := by
  simp [Partition.reg]
@[simp] theorem Mod.event_settleHolds (e : Nat) : (m.settleHolds.part k).event e = (m.part k).event e := by
  rw [Mod.part_settleHolds]
  rfl

end

/-! ### Events of one partition (04 R114) -/

theorem Partition.event_lt (p : Partition) (e : Nat) : p.event e < 2 ^ 64 := (Sparse.get e _).isLt

section
variable (p : Partition) (e v : Nat)

theorem Partition.event_setEvent_same (h : v < 2 ^ 64) : (p.setEvent e v).event e = v := by
  unfold Partition.event Partition.setEvent
  cases p.resetting <;> simpa [Sparse.get_set_same] using h

theorem Partition.event_setEvent_other {i : Nat} (h : i ≠ e) : (p.setEvent e v).event i = p.event i := by
  unfold Partition.event Partition.setEvent
  cases p.resetting <;> simp [Sparse.get_set_other h]

@[simp] theorem Partition.regs_setEvent : (p.setEvent e v).regs = p.regs := rfl
@[simp] theorem Partition.near_setEvent : (p.setEvent e v).near = p.near := rfl
@[simp] theorem Partition.created_setEvent : (p.setEvent e v).created = p.created := rfl
@[simp] theorem Partition.reg_setEvent (off : Nat) : (p.setEvent e v).reg off = p.reg off := rfl

@[simp] theorem Partition.event_flag (off i : Nat) : (p.flag off i).event e = p.event e := rfl

theorem Partition.getB_flag_same (off : Nat) {i : Nat} (h : i < 32) : getB ((p.flag off i).reg off) i = true := by
  rw [Partition.flag, Partition.setFld, Partition.reg_setReg]
  exact getB_setB_same _ i true h

/-- A signal judged against what its event held at the start of the cycle. -/
theorem Partition.event_signalFrom {old : Nat} (hold : old ≤ p.event e) (hv : v < 2 ^ 64) (i : Nat) :
    (p.signalFrom old e v).event i = if i = e then max (p.event e) v else p.event i := by
  unfold Partition.signalFrom
  split
  next h =>
    split
    next hi => rw [hi, Partition.event_setEvent_same _ _ _ (max_lt (p.event_lt e) hv)]
    next hi => exact Partition.event_setEvent_other _ _ _ hi
  next h =>
    rw [Partition.event_flag]
    split
    next hi => rw [hi, max_eq_left (by omega)]
    · rfl

theorem Partition.regs_signalFrom {old : Nat} (h : old < v) : (p.signalFrom old e v).regs = p.regs := by
  simp [Partition.signalFrom, h]

/-- A signal that is not above what its event held sets `BACKWARD`, and none clears it. -/
theorem Partition.backward_signalFrom {old : Nat} (h : v ≤ old ∨ getB (p.reg offEvtStatus) 1 = true) :
    getB ((p.signalFrom old e v).reg offEvtStatus) 1 = true := by
  unfold Partition.signalFrom
  split
  next hlt => exact h.resolve_left (not_le.mpr hlt)
  · exact p.getB_flag_same offEvtStatus (by decide)

@[simp] theorem Partition.created_signalFrom (old : Nat) : (p.signalFrom old e v).created = p.created := by
  unfold Partition.signalFrom
  split <;> rfl

end

/-! ### Signals of one instant -/

/-- What one signal of an instant that began in `m₀` does. -/
def Mod.signalOne (m₀ m : Mod) (x : Signal) : Mod :=
  m.modPart x.part fun p => if p.created then p.signalFrom ((m₀.part x.part).event x.event) x.event x.value else p

theorem Mod.signals_eq (m : Mod) (xs : List Signal) : m.signals xs = (m.forAll (Mod.signalOne m) xs).latchWaits := rfl

section
variable {m₀ m : Mod} {k : Nat} {x : Signal}

theorem Mod.part_signalOne (hc : (m.part k).created = true) (hx : x.part = k) :
    (m₀.signalOne m x).part k = (m.part k).signalFrom ((m₀.part k).event x.event) x.event x.value := by
  subst hx
  simp [Mod.signalOne, hc]

theorem Mod.part_signalOne_other (hx : x.part ≠ k) : (m₀.signalOne m x).part k = m.part k :=
  Mod.part_modPart_other _ (Ne.symm hx) _

theorem Mod.created_signalOne (hc : (m.part k).created = true) : ((m₀.signalOne m x).part k).created = true := by
  by_cases hx : x.part = k
  · rw [Mod.part_signalOne hc hx, Partition.created_signalFrom, hc]
  · rw [Mod.part_signalOne_other hx, hc]

theorem Mod.event_signalOne (hc : (m.part k).created = true) (hle : ∀ i, (m₀.part k).event i ≤ (m.part k).event i)
    (hv : x.value < 2 ^ 64) (e : Nat) : ((m₀.signalOne m x).part k).event e =
      if x.part = k ∧ x.event = e then max ((m.part k).event e) x.value else (m.part k).event e := by
  by_cases hx : x.part = k
  · rw [Mod.part_signalOne hc hx, Partition.event_signalFrom _ _ _ (hle _) hv]
    by_cases he : x.event = e
    · simp [hx, he]
    · simp [hx, he, Ne.symm he]
  · simp [Mod.part_signalOne_other hx, hx]

theorem Mod.event_signalOne_le (hc : (m.part k).created = true) (hle : ∀ i, (m₀.part k).event i ≤ (m.part k).event i)
    (hv : x.value < 2 ^ 64) (i : Nat) : (m₀.part k).event i ≤ ((m₀.signalOne m x).part k).event i := by
  rw [Mod.event_signalOne hc hle hv]
  split
  · exact (hle i).trans (le_max_left ..)
  · exact hle i

end

section
variable {m₀ m : Mod} {k : Nat} (hc : (m.part k).created = true) (xs : List Signal)
include hc

theorem Mod.event_signalAll (hle : ∀ i, (m₀.part k).event i ≤ (m.part k).event i) (hv : ∀ x ∈ xs, x.value < 2 ^ 64)
    (e : Nat) : ((m.forAll (Mod.signalOne m₀) xs).part k).event e =
      ((xs.filter fun x => x.part == k && x.event == e).map (·.value)).foldl max ((m.part k).event e) := by
  induction xs generalizing m with
  | nil => rfl
  | cons x xs ih =>
    simp only [List.forall_mem_cons] at hv
    rw [Mod.forAll_cons, ih (Mod.created_signalOne hc) (Mod.event_signalOne_le hc hle hv.1) hv.2,
      Mod.event_signalOne hc hle hv.1]
    by_cases hx : x.part = k ∧ x.event = e <;> simp [hx]

theorem Mod.regs_signalAll (habove : ∀ x ∈ xs, x.part = k → (m₀.part k).event x.event < x.value) :
    ((m.forAll (Mod.signalOne m₀) xs).part k).regs = (m.part k).regs := by
  induction xs generalizing m with
  | nil => rfl
  | cons x xs ih =>
    simp only [List.forall_mem_cons] at habove
    rw [Mod.forAll_cons, ih (Mod.created_signalOne hc) habove.2]
    by_cases hx : x.part = k
    · rw [Mod.part_signalOne hc hx, Partition.regs_signalFrom _ _ _ (habove.1 hx)]
    · rw [Mod.part_signalOne_other hx]

theorem Mod.backward_signalAll (hback : getB ((m.part k).reg offEvtStatus) 1 = true ∨
    ∃ x ∈ xs, x.part = k ∧ x.value ≤ (m₀.part k).event x.event) :
    getB (((m.forAll (Mod.signalOne m₀) xs).part k).reg offEvtStatus) 1 = true := by
  induction xs generalizing m with
  | nil => simpa using hback
  | cons x xs ih =>
    refine ih (Mod.created_signalOne hc) ?_
    by_cases hx : x.part = k
    · rw [Mod.part_signalOne hc hx]
      by_cases hle : x.value ≤ (m₀.part k).event x.event
      · exact .inl (Partition.backward_signalFrom _ _ _ (.inl hle))
      · refine hback.imp (fun h => Partition.backward_signalFrom _ _ _ (.inr h)) fun ⟨y, hy, hyk, hyle⟩ => ?_
        rcases List.mem_cons.mp hy with rfl | hy
        · exact absurd hyle hle
        · exact ⟨y, hy, hyk, hyle⟩
    · rw [Mod.part_signalOne_other hx]
      refine hback.imp id fun ⟨y, hy, hyk, hyle⟩ => ?_
      rcases List.mem_cons.mp hy with rfl | hy
      · exact absurd hyk hx
      · exact ⟨y, hy, hyk, hyle⟩

end

/-! ### Host writes of events (04 R113, 20 R447) -/

theorem leNat_lt (bs : List Byte) : leNat bs < 256 ^ bs.length := by
  induction bs with
  | nil => decide
  | cons b bs ih =>
    have hb := b.isLt
    simp only [leNat, List.length_cons, Nat.pow_succ]
    omega

theorem Mod.modPart_congr {m : Mod} {k : Nat} {f g : Partition → Partition} (h : f (m.part k) = g (m.part k)) :
    m.modPart k f = m.modPart k g := by
  unfold Mod.part at h
  simp [Mod.modPart, Table.modify, h]

theorem gives_actWrite {c : Instr} {s : State} {f : Mod → Mod} {data : List Byte} (hl : Linked s) (h0 : 0 < data.length)
    (h512 : data.length ≤ 512) (hc : exec c s = s.actWrite data fun m => m.host f) : Gives c s (f s.mod) := by
  rw [State.actWrite_ok h0 h512] at hc
  exact gives_of_host hl hc

section
variable {s : State} {f : Fn} {k : Fin 64} {off : Fin 524288} {data : List Byte}

theorem gives_eventHostWrite (hw : Writes s f k.val) (hsees : s.mod.seesEvent f k.val off.val = true) (h0 : 0 < data.length)
    (h512 : data.length ≤ 512) : Gives (.eventHostWrite f k off data) s (s.mod.eventWrite k.val off.val data) := by
  have h := gives_actWrite hw.1 h0 h512 (exec_eventHostWrite f k off data s)
  simpa [hw.2, hsees] using h

end

/-- Settles O42. -/
theorem eventSignals : Obligations.EventSignals := by
  unfold Obligations.EventSignals
  refine ⟨fun p e v _ hv => ?_, fun m xs k e hv hc => ?_, fun m k r => ?_, fun s f k off data hw hsees hlen halign => ?_,
    fun s f k off data hw hsees h0 h512 hform => ?_, fun s f k off data hl h0 h512 hsees => ?_⟩
  case refine_1 =>
    have hevent := p.event_signalFrom e v (le_refl _) hv
    exact ⟨(hevent e).trans (if_pos rfl), fun i hi => (hevent i).trans (if_neg hi),
      fun h => p.backward_signalFrom e v (.inl h), fun h => p.regs_signalFrom e v h⟩
  case refine_2 =>
    simp only [Mod.signals_eq, Mod.part_latchWaits, Partition.event_latched, Partition.regs_latched, Partition.reg_latched]
    exact ⟨Mod.event_signalAll hc xs (fun i => le_refl _) hv e, Mod.regs_signalAll hc xs,
      fun h => Mod.backward_signalAll hc xs (.inr h)⟩
  case refine_3 =>
    exact ⟨fun h => by simp [Raise.latch, h], fun ht hv => by simp [Raise.latch, Mod.waitMet, ht, hv], rfl⟩
  case refine_4 =>
    have hgives := gives_eventHostWrite (data := data) hw hsees (by omega) (by omega)
    have hwrite : (s.mod.part k.val).eventWrite off.val data =
        if getB ((s.mod.part k.val).reg offEvtCtrl) 0 then (s.mod.part k.val).signal (off.val / 8) (leNat data)
        else (s.mod.part k.val).setEvent (off.val / 8) (leNat data) := by
      simp [Partition.eventWrite, hlen, halign]
    refine ⟨fun harmed => ?_, fun hfence => ?_⟩
    · simp only [harmed, if_true] at hwrite
      rwa [Mod.eventWrite, Mod.modPart_congr (g := fun p => p.signal (off.val / 8) (leNat data)) hwrite] at hgives
    · simp only [hfence, Bool.false_eq_true, if_false] at hwrite
      have hfits : leNat data < 2 ^ 64 := by simpa [hlen] using leNat_lt data
      refine ⟨_, hgives, ?_⟩
      simp only [Mod.eventWrite, Mod.event_settleHolds, Mod.regs_settleHolds, Mod.near_settleHolds, Mod.part_latchWaits,
        Partition.event_latched, Partition.regs_latched, Partition.near_latched, Mod.part_modPart, hwrite]
      exact ⟨Partition.event_setEvent_same _ _ _ hfits, fun i hi => Partition.event_setEvent_other _ _ _ hi, rfl, rfl⟩
  case refine_5 =>
    refine ⟨_, gives_eventHostWrite hw hsees h0 h512, ?_⟩
    simp only [Mod.eventWrite, Mod.event_settleHolds, Mod.reg_settleHolds, Mod.part_latchWaits, Partition.event_latched,
      Partition.reg_latched, Mod.part_modPart, Partition.eventWrite, hform, if_false]
    exact ⟨Partition.getB_flag_same _ _ (by decide), fun i => rfl⟩
  case refine_6 =>
    have h := gives_actWrite hl h0 h512 (exec_eventHostWrite f k off data s)
    simpa [hsees] using h

end Sys2Proof.Machine
end

section
/-!
PROOFS. A write through BAR2 within one granule of near memory, and the read that follows it (11 R267).
-/

namespace Sys2Proof.Machine
open Claims

/-! ### One part of the module written twice -/

theorem Table.set_set {α : Type} (n : Nat) (v w : α) (t : Table α) : Table.set n v (Table.set n w t) = Table.set n v t := by
  induction t with
  | nil => simp [Table.set]
  | cons e t ih =>
    rcases Nat.lt_trichotomy n e.1 with h | h | h
    · simp [Table.set, h]
    · simp [Table.set, h]
    · simp [Table.set, ih, Nat.not_lt_of_gt h, Nat.ne_of_lt h]

theorem Mod.modPart_modPart (m : Mod) (k : Nat) (f g : Partition → Partition) :
    (m.modPart k f).modPart k g = m.modPart k fun p => g (f p) := by
  simp [Mod.modPart, Table.modify, Table.set_set]

/-! ### Bytes of near memory within one granule (11 R252, R255) -/

theorem granules_one {loc n : Nat} (h : loc / 64 = (loc + n - 1) / 64) : granules loc n = [loc / 64] := by
  rw [granules, ← h, Nat.add_sub_cancel_left]
  simp

theorem isExt_of_lt_nearEnd {a : Nat} (h : a < nearEnd) : isExt a = false := by
  simp only [isExt, decide_eq_false_iff_not, not_le]
  exact h.trans (by decide)

/-- The partition with bytes written in near memory. -/
def Partition.writeNear (p : Partition) (loc : Nat) (bs : List Byte) : Partition :=
  { p with near := Cells.write p.near loc bs }

section
variable {p : Partition} {loc : Nat} {bs : List Byte} (k key : Nat) (hend : loc + bs.length ≤ nearEnd)
include hend

theorem Partition.bytesAt_writeNear : (p.writeNear loc bs).bytesAt k key loc bs.length = bs := by
  have hread : Cells.read (p.writeNear loc bs).near loc bs.length = bs := Cells.read_write_same p.near loc bs
  rw [Cells.read_eq_map] at hread
  refine Eq.trans (List.map_congr_left fun i hi => ?_) hread
  have hi := List.mem_range.mp hi
  simp [Partition.byteAt, isExt_of_lt_nearEnd (show loc + i < nearEnd by omega)]

variable (h0 : 0 < bs.length) (hgran : loc / 64 = (loc + bs.length - 1) / 64)
include h0 hgran

/-- A write within one granule that is not poisoned writes its bytes, and takes away no poison. -/
theorem Mod.memWrite_near {m : Mod} (hclean : (m.part k).poisoned (loc / 64) = false) :
    m.memWrite k key loc bs [] .clean = m.modPart k fun p => p.writeNear loc bs := by
  have hnear : isExt loc = false := isExt_of_lt_nearEnd (by omega)
  have hgnear : isExt (64 * (loc / 64)) = false := isExt_of_lt_nearEnd (by omega)
  have hpoison : (m.part k).nearPoison.filter (fun i => i != loc / 64) = (m.part k).nearPoison := by
    rw [List.filter_eq_self]
    intro i hi
    simp only [bne_iff_ne, ne_eq]
    rintro rfl
    simp [Partition.poisoned, hgnear, hi] at hclean
  have hlo : max loc (64 * (loc / 64)) = loc := by omega
  have hhi : min (loc + bs.length) (64 * (loc / 64) + 64) = loc + bs.length := by omega
  have hne : bs.isEmpty = false := List.isEmpty_eq_false_iff.mpr (List.ne_nil_of_length_pos h0)
  simp only [Mod.memWrite, hne, Bool.false_eq_true, if_false, granules_one hgran, Mod.forAll_cons, Mod.forAll_nil, hlo, hhi,
    if_true, Nat.sub_self, List.drop_zero, Nat.add_sub_cancel_left, List.take_length, Mod.writeGranule, List.contains_nil]
  split
  · refine Mod.modPart_congr ?_
    simp [Partition.putBytes, Partition.setPoison, Partition.writeNear, hnear, hgnear, hpoison]
  · refine Mod.modPart_congr ?_
    simp [Partition.putBytes, Partition.writeNear, hnear, hclean]

end

/-- A read within one granule that is clean, with no shard, gives the bytes as they stand. -/
theorem Mod.memRead_near (m : Mod) (k key : Nat) {loc n : Nat} (hgran : loc / 64 = (loc + n - 1) / 64)
    (hclean : (m.part k).poisoned (loc / 64) = false) (hshards : (m.part k).shards = []) :
    m.memRead k key loc n .clean true = ({ bytes := (m.part k).bytesAt k key loc n, bad := [] }, m) := by
  simp [Mod.memRead, granules_one hgran, hclean, Partition.shardsAt, hshards]

/-! ### BAR2 (11 R267) -/

section
variable {m : Mod} {k off n : Nat}

/-- An access within one granule of near memory is one piece. -/
theorem Mod.bar2Pieces_near (h0 : 0 < n) (hend : off + n ≤ nearEnd) (hgran : off / 64 = (off + n - 1) / 64) :
    m.bar2Pieces k off n = [(0, n, off)] := by
  have hlo : max off (64 * (off / 64)) = off := by omega
  have hhi : min (off + n) (64 * (off / 64) + 64) = off + n := by omega
  have hloc : m.bar2Loc k off = some off := by
    rw [Mod.bar2Loc, if_pos (by omega)]
  simp [Mod.bar2Pieces, Nat.ne_of_gt h0, granules_one hgran, hlo, hhi, hloc]

theorem Mod.bar2Read_near (h0 : 0 < n) (hend : off + n ≤ nearEnd) (hgran : off / 64 = (off + n - 1) / 64)
    (hclean : (m.part k).poisoned (off / 64) = false) (hshards : (m.part k).shards = []) :
    m.bar2Read k off n .clean = Mod.hostTraffic
      { m with read := some { bytes := (m.part k).bytesAt k (m.memKey k) off n, ep := false } } k n := by
  have hzeros : (zeros n).drop n = [] := List.drop_eq_nil_of_le (by simp [zeros])
  simp [Mod.bar2Read, Mod.bar2Pieces_near h0 hend hgran, m.memRead_near k (m.memKey k) hgran hclean hshards, hzeros]

/-- Without a context no raise loses its promise to the host's traffic. -/
theorem Mod.hostTraffic_noCtx (h : (m.part k).ctxs = []) (n : Nat) : m.hostTraffic k n = m.modPart k id := by
  simp only [Mod.hostTraffic, Mod.part_modPart, h, List.map_nil, Mod.forAll_nil]
  refine Mod.modPart_congr ?_
  dsimp only [id_eq]
  generalize m.part k = p at h ⊢
  cases p
  subst h
  rfl

end

section
variable {m : Mod} {k off : Nat} {data : List Byte} (h0 : 0 < data.length) (hend : off + data.length ≤ nearEnd)
  (hgran : off / 64 = (off + data.length - 1) / 64) (hclean : (m.part k).poisoned (off / 64) = false)
  (hshards : (m.part k).shards = []) (hctxs : (m.part k).ctxs = [])
include h0 hend hgran hclean hshards hctxs

theorem Mod.bar2Write_near : m.bar2Write k off data .clean = m.modPart k fun p => p.writeNear off data := by
  have hwrite := Mod.memWrite_near k (m.memKey k) hend h0 hgran hclean
  have hnoCtx : ((m.modPart k fun p => p.writeNear off data).part k).ctxs = [] := by
    simpa [Partition.writeNear] using hctxs
  simp only [Mod.bar2Write, Mod.bar2Pieces_near h0 hend hgran, List.foldl_cons, List.foldl_nil, Partition.shardsAt, hshards,
    List.filter_nil, List.isEmpty_nil, if_true, List.drop_zero, List.take_length, hwrite, Mod.hostTraffic_noCtx hnoCtx,
    Mod.modPart_modPart, id_eq]

/-- What was written is read. -/
theorem Mod.bar2Read_bar2Write : (m.bar2Write k off data .clean).bar2Read k off data.length .clean =
    { m.bar2Write k off data .clean with read := some { bytes := data, ep := false } } := by
  rw [Mod.bar2Write_near h0 hend hgran hclean hshards hctxs]
  generalize hw : (m.modPart k fun p => p.writeNear off data) = w
  have hpart : w.part k = (m.part k).writeNear off data := by rw [← hw, Mod.part_modPart]
  have hstays : w.modPart k id = w := by rw [← hw, Mod.modPart_modPart]; rfl
  rw [Mod.bar2Read_near h0 hend hgran (by rw [hpart]; exact hclean) (by rw [hpart]; exact hshards), hpart,
    Partition.bytesAt_writeNear _ _ hend, Mod.hostTraffic_noCtx]
  · exact congrArg (fun x : Mod => { x with read := some { bytes := data, ep := false } }) hstays
  · exact (congrArg Partition.ctxs hpart).trans hctxs

end

/-- Settles O48. -/
theorem bar2WriteThenRead : Obligations.Bar2WriteThenRead := by
  unfold Obligations.Bar2WriteThenRead
  intro s k off data hl hopen h0 h64 hend hgran hclean hshards hctxs
  have hwrite := Mod.bar2Write_near h0 hend hgran hclean hshards hctxs
  have hgives := gives_actWrite (data := data) hl h0 (by omega) (exec_bar2Write k off data .clean s)
  simp only [hopen, if_true] at hgives
  refine ⟨_, hgives, ?_, ?_, ?_, ?_, fun t ht => ?_⟩
  · intro a ha
    rw [hwrite, Mod.part_modPart]
    exact Cells.get_write_out _ _ _ _ ha
  · rw [hwrite, Mod.part_modPart]
    rfl
  · rw [hwrite, Mod.part_modPart]
    rfl
  · intro j hj
    rw [hwrite, Mod.part_modPart_other _ hj]
  · have hlt : Linked t := by
      rw [hwrite] at ht
      unfold Linked On
      rw [ht]
      exact hl
    have hopent : t.mod.bar2Open k.val = true := by
      have hpart : t.mod.part k.val = (s.mod.part k.val).writeNear off.toNat data := by rw [ht, hwrite, Mod.part_modPart]
      have hvf : t.mod.vfExists k.val = s.mod.vfExists k.val := by
        rw [ht, hwrite]
        rfl
      rw [Mod.bar2Open, hpart, hvf]
      exact hopen
    have hread := gives_of_host hlt (exec_bar2Read k off data.length .clean t)
    simp only [hopent, if_true] at hread
    rwa [ht, Mod.bar2Read_bar2Write h0 hend hgran hclean hshards hctxs] at hread

end Sys2Proof.Machine
end

section
/-!
PROOFS. Completion rings, notice rings, and their commands (03 R94, R95, 04 R112, R113).
-/

namespace Sys2Proof.Machine
open Claims

/-! ### How a command acts on a module that has not halted, or whose Molique runs -/

theorem gives_of_alive {c : Instr} {s : State} {f : Mod → Mod} (ha : Alive s) (hc : exec c s = s.act fun m => m.alive f) :
    Gives c s (f s.mod) := by
  have h := gives_of_act ha.1 hc
  rwa [Mod.alive, if_neg ha.2] at h

theorem gives_of_molique {c : Instr} {s : State} {f : Mod → Mod} (hl : Live s) (hc : exec c s = s.act fun m => m.molique f) :
    Gives c s (f s.mod) := by
  have h := gives_of_act hl.1 hc
  rwa [Mod.molique, if_pos hl.2] at h

theorem Mod.forAll_fixed {α : Type} {f : Mod → α → Mod} {m : Mod} (h : ∀ x, f m x = m) (xs : List α) : m.forAll f xs = m :=
  Mod.forAll_keeps (P := fun n => n = m) (fun n x hn => by rw [hn, h]) xs m rfl

/-! ### Fields of a partition's registers, contexts and vectors -/

section
variable (p : Partition) (off hi lo v : Nat)

@[simp] theorem Partition.reg_setFld : (p.setFld off hi lo v).reg off = setF (p.reg off) hi lo v := Partition.reg_setReg ..

theorem Partition.reg_setFld_other {o : Nat} (h : o ≠ off) : (p.setFld off hi lo v).reg o = p.reg o :=
  Partition.reg_setReg_other p h _

@[simp] theorem Partition.reg_modCtx (c : Nat) (f : Context → Context) : (p.modCtx c f).reg off = p.reg off := rfl

@[simp] theorem Partition.ctx_setFld (c : Nat) : (p.setFld off hi lo v).ctx c = p.ctx c := rfl

@[simp] theorem Partition.ctx_flag (c i : Nat) : (p.flag off i).ctx c = p.ctx c := rfl

end

theorem Mod.msix_eq (m : Mod) (f : Fn) (v : Nat) : ∃ out pcie, m.msix f v = { m with out := out, pcie := pcie } := by
  unfold Mod.msix
  extract_lets there key e
  split
  · split
    · exact ⟨m.out, _, rfl⟩
    · exact ⟨_, m.pcie, rfl⟩
  · exact ⟨m.out, m.pcie, rfl⟩

@[simp] theorem Mod.parts_msix (m : Mod) (f : Fn) (v : Nat) : (m.msix f v).parts = m.parts := by
  obtain ⟨out, pcie, h⟩ := m.msix_eq f v
  rw [h]

@[simp] theorem Mod.parts_msixPart (m : Mod) (k v : Nat) : (m.msixPart k v).parts = m.parts := Mod.parts_msix ..

@[simp] theorem Mod.part_msixPart (m : Mod) (k v j : Nat) : (m.msixPart k v).part j = m.part j := by
  simp [Mod.part]

/-! ### Completion rings (04 R112, R113) -/

theorem getF_lt (r : Word) (hi lo : Nat) : getF r hi lo < 2 ^ (hi + 1 - lo) := Nat.mod_lt _ (Nat.two_pow_pos _)

section
variable (p : Partition) (c : Nat) (body : List Byte)

theorem Partition.cplWr_lt : p.cplWr c < 512 := getF_lt _ 8 0

theorem Partition.cplRd_lt : p.cplRd c < 512 := getF_lt _ 24 16

@[simp] theorem Partition.cplWr_modCtx (d : Nat) (f : Context → Context) : (p.modCtx d f).cplWr c = p.cplWr c := rfl

theorem Partition.ctx_cplPush :
    (p.cplPush c body).ctx c = { p.ctx c with ring := Table.set (p.cplWr c % 256) body (p.ctx c).ring } := by
  simp [Partition.cplPush]

theorem Partition.cplWr_cplPush : (p.cplPush c body).cplWr c = (p.cplWr c + 1) % 512 := by
  simp only [Partition.cplPush, Partition.cplWr, Partition.reg_setFld, Partition.reg_modCtx]
  exact getF_setF_same _ 8 0 _ (by decide) (by decide)

theorem Partition.cplRd_cplPush : (p.cplPush c body).cplRd c = p.cplRd c := by
  simp only [Partition.cplPush, Partition.cplRd, Partition.reg_setFld, Partition.reg_modCtx]
  exact getF_setF_other _ 8 0 _ 24 16 (by decide) (by decide) (by decide)

theorem Partition.cplDepth_cplPush (h : p.cplDepth c < 256) : (p.cplPush c body).cplDepth c = p.cplDepth c + 1 := by
  have hwr := p.cplWr_lt c
  have hrd := p.cplRd_lt c
  simp only [Partition.cplDepth, Partition.cplWr_cplPush, Partition.cplRd_cplPush] at h ⊢
  omega

end

@[simp] theorem Context.ring_credit (x : Context) (q : Nat) : (x.credit q).ring = x.ring := rfl

@[simp] theorem Context.held_credit (x : Context) (q : Nat) : (x.credit q).held = x.held := rfl

theorem Context.taken_credit (x : Context) (q : Nat) : ((x.credit q).queue q).taken = (x.queue q).taken - 1 := by
  simp [Context.credit, Context.modQueue, Context.queue]

theorem Context.ring_credits {α : Type} (q : Context → α → Nat) (xs : List α) (x : Context) :
    (xs.foldl (fun x a => x.credit (q x a)) x).ring = x.ring := by
  induction xs generalizing x with
  | nil => rfl
  | cons a xs ih => exact ih _

/-- Where a record goes: into the ring, to those that are held, or, where four are, nowhere. -/
def Partition.pushRecord (p : Partition) (c : Nat) (body : List Byte) (notify : Bool) : Partition :=
  if (p.ctx c).held = [] ∧ p.cplDepth c < 256 then p.cplPush c body
  else if (p.ctx c).held.length < 4 then p.modCtx c fun x => { x with held := x.held ++ [(body, notify)] }
  else (p.modCtx c fun x => x.credit (fld body 28 1 % 4)).flag offEvtStatus 3

theorem Mod.part_pushRecord (m : Mod) (k c : Nat) (body : List Byte) (notify : Bool) :
    (m.pushRecord k c body notify).part k = (m.part k).pushRecord c body notify := by
  unfold Mod.pushRecord Partition.pushRecord
  simp only [Bool.and_eq_true, List.isEmpty_iff, decide_eq_true_eq]
  split
  · split <;> simp
  · split <;> simp

/-- A write of `RD` that passes no record beyond `WR`. -/
theorem Mod.cplRdWrite_of_le {m : Mod} {k c : Nat} {value : Word}
    (h : (getF value 24 16 + 512 - (m.part k).cplRd c) % 512 ≤ (m.part k).cplDepth c) :
    ∃ x, x.ring = ((m.part k).ctx c).ring ∧
      m.cplRdWrite k c value = m.modPart k fun p => (p.modCtx c fun _ => x).setFld (offCplPtr c) 24 16 (getF value 24 16) := by
  refine ⟨_, Context.ring_credits (fun x i => fld (Table.get [] (((m.part k).cplRd c + i) % 256) x.ring) 28 1 % 4)
    (List.range ((getF value 24 16 + 512 - (m.part k).cplRd c) % 512)) ((m.part k).ctx c), ?_⟩
  exact (if_pos h).trans (Mod.modPart_congr rfl)

theorem Mod.cplRdWrite_beyond {m : Mod} {k c : Nat} {value : Word}
    (h : (m.part k).cplDepth c < (getF value 24 16 + 512 - (m.part k).cplRd c) % 512) : m.cplRdWrite k c value = m :=
  if_neg (Nat.not_le.mpr h)

theorem Partition.modCtx_congr {p : Partition} {c : Nat} {f g : Context → Context} (h : f (p.ctx c) = g (p.ctx c)) :
    p.modCtx c f = p.modCtx c g := by
  unfold Partition.ctx at h
  simp [Partition.modCtx, Table.modify, h]

/-- The one record that is held follows where there is room. -/
theorem Mod.part_cplRetry_one {m : Mod} {k c : Nat} {body : List Byte} (hheld : ((m.part k).ctx c).held = [(body, false)])
    (hroom : (m.part k).cplDepth c < 256) :
    (m.cplRetry k c).part k = ((m.part k).modCtx c fun x => { x with held := [] }).cplPush c body := by
  have hdrop : ((m.part k).modCtx c fun x => { x with held := x.held.drop 1 }) =
      (m.part k).modCtx c fun x => { x with held := [] } :=
    Partition.modCtx_congr (by rw [hheld]; rfl)
  simp only [Mod.cplRetry, hheld, Mod.forAll_cons, Mod.forAll_nil, hroom, if_true, Bool.false_eq_true, if_false,
    Mod.part_modPart, hdrop]

theorem Mod.cplRetry_none {m : Mod} {k c : Nat} (h : ((m.part k).ctx c).held = [] ∨ 256 ≤ (m.part k).cplDepth c) :
    m.cplRetry k c = m := by
  rcases h with h | h
  · simp [Mod.cplRetry, h]
  · exact Mod.forAll_fixed (fun x => if_neg (Nat.not_lt.mpr h)) _

/-! ### The notice ring (03 R94, R95) -/

section
variable (p : Partition)

theorem Partition.noticeRd_setFld (v : Nat) : (p.setFld offNoticePtr 22 16 v).noticeRd = v % 128 := by
  simpa [Partition.noticeRd] using getF_setF_same (p.reg offNoticePtr) 22 16 v (by decide) (by decide)

theorem Partition.noticeWr_setFld (v : Nat) : (p.setFld offNoticePtr 22 16 v).noticeWr = p.noticeWr := by
  simpa [Partition.noticeWr] using getF_setF_other (p.reg offNoticePtr) 22 16 v 6 0 (by decide) (by decide) (by decide)

/-- What marks a notice leaves flags of `ADM_SUSPEND` but `MEM`. -/
theorem Partition.noticeMark_eq (body : List Byte) :
    p.noticeMark body = p ∨ ∃ i, (i = 5 ∨ i = 6) ∧ p.noticeMark body = p.flag offSuspend i := by
  unfold Partition.noticeMark
  split
  · exact .inr ⟨6, .inr rfl, rfl⟩
  · split
    · exact .inr ⟨5, .inl rfl, rfl⟩
    · exact .inl rfl

/-- The partition with a notice in its ring. -/
def Partition.noticed (body : List Byte) : Partition :=
  (({ p with noticeRing := Table.set (p.noticeWr % 64) body p.noticeRing }).noticeMark body).setFld offNoticePtr 6 0 (p.noticeWr + 1)

end

theorem Mod.part_noticePush (m : Mod) (k : Nat) (body : List Byte) : (m.noticePush k body).part k = (m.part k).noticed body := by
  simp [Mod.noticePush, Partition.noticed]

/-- A notice changes the ring, `WR`, and flags of `ADM_SUSPEND` but `MEM`. -/
theorem Partition.noticed_eq (p : Partition) (body : List Byte) : ∃ regs,
    p.noticed body = { p with noticeRing := Table.set (p.noticeWr % 64) body p.noticeRing, regs := regs } ∧
      getB ((p.noticed body).reg offSuspend) 3 = getB (p.reg offSuspend) 3 := by
  have hoff : offSuspend ≠ offNoticePtr := by decide
  rcases ({ p with noticeRing := Table.set (p.noticeWr % 64) body p.noticeRing } : Partition).noticeMark_eq body with
    h | ⟨i, hi, h⟩
  · refine ⟨_, by rw [Partition.noticed, h]; rfl, ?_⟩
    rw [Partition.noticed, h, Partition.reg_setFld_other _ _ _ _ _ hoff]
    rfl
  · refine ⟨_, by rw [Partition.noticed, h]; rfl, ?_⟩
    rw [Partition.noticed, h, Partition.reg_setFld_other _ _ _ _ _ hoff, Partition.flag, Partition.reg_setFld]
    exact getB_setF_other _ i i 1 3 (Nat.le_refl i) (by omega) (by omega)

/-- The one notice that is pending follows where there is room. -/
theorem Mod.part_noticeRetry_one {m : Mod} {k : Nat} {body : List Byte} (hp : (m.part k).notices = [body])
    (hroom : (m.part k).noticeDepth < 64) :
    (m.noticeRetry k).part k = { m.part k with notices := [] }.noticed body := by
  simp only [Mod.noticeRetry, hp, Mod.forAll_cons, Mod.forAll_nil, hroom, if_true, Mod.part_noticePush, Mod.part_modPart,
    List.drop_one, List.tail_cons]

theorem Mod.noticeRetry_full {m : Mod} {k : Nat} (h : 64 ≤ (m.part k).noticeDepth) : m.noticeRetry k = m :=
  Mod.forAll_fixed (fun _ => if_neg (Nat.not_lt.mpr h)) _

/-- What a notice to a partition that exists leaves as it was. -/
theorem Mod.part_notice {m : Mod} {k : Nat} (hc : (m.part k).created = true) (code resv obj state : Nat) :
    ((m.notice k code resv obj state).part k).near = (m.part k).near ∧
      ((m.notice k code resv obj state).part k).ctxs = (m.part k).ctxs ∧
      getB (((m.notice k code resv obj state).part k).reg offSuspend) 3 = getB ((m.part k).reg offSuspend) 3 ∧
      ((m.part k).notices = [] → (m.part k).noticeDepth < 64 →
        ((m.notice k code resv obj state).part k).noticeRing =
          Table.set ((m.part k).noticeWr % 64) (noticeBytes m.devtime code resv obj state) (m.part k).noticeRing) := by
  unfold Mod.notice
  simp only [hc, Bool.not_true, Bool.false_eq_true, if_false, Bool.and_eq_true, List.isEmpty_iff, decide_eq_true_eq]
  split
  next =>
    obtain ⟨regs, heq, hmem⟩ := (m.part k).noticed_eq (noticeBytes m.devtime code resv obj state)
    rw [Mod.part_noticePush]
    refine ⟨?_, ?_, hmem, fun _ _ => ?_⟩ <;> rw [heq]
  next hfull =>
    split
    · rw [Mod.part_modPart]
      exact ⟨rfl, rfl, rfl, fun h1 h2 => absurd ⟨h1, h2⟩ hfull⟩
    · rw [Mod.part_modPart]
      refine ⟨rfl, rfl, ?_, fun h1 h2 => absurd ⟨h1, h2⟩ hfull⟩
      rw [Partition.flag, Partition.reg_setFld]
      exact getB_setF_other _ 7 7 1 3 (by decide) (by decide) (by decide)

/-! ### The commands of the rings -/

section
variable {s : State} {f : Fn} {k : Fin 64}

theorem gives_cplRdWrite {c : Fin 16} {value : Word} (hw : Writes s f k.val) (hc : ((s.mod.part k.val).ctx c.val).created = true) :
    Gives (.cplRdWrite f k c value) s (s.mod.cplRdWrite k.val c.val value) := by
  have h := gives_of_host hw.1 (exec_cplRdWrite f k c value s)
  simpa only [hw.2, hc, Bool.and_self, if_true] using h

theorem gives_noticeRdWrite {value : Word} (hw : Writes s f k.val) :
    Gives (.noticeRdWrite f k value) s (s.mod.noticeRdWrite k.val value) := by
  have h := gives_of_host hw.1 (exec_noticeRdWrite f k value s)
  simpa only [hw.2, if_true] using h

theorem gives_admSuspendMemClear (hw : Writes s f k.val) : Gives (.admSuspendMemClear f k) s (s.mod.memClear k.val) := by
  have h := gives_of_host hw.1 (exec_admSuspendMemClear f k s)
  simpa only [hw.2, if_true] using h

end

/-- Settles O41. -/
theorem rings : Obligations.Rings := by
  unfold Obligations.Rings
  refine ⟨?push, ?rdPasses, ?rdBeyond, ?retry, ?retryNone, ?noticeRd, ?noticeBeyond, ?notice, ?noticeFull, ?memClear⟩
  case push =>
    intro m k c body _
    dsimp only
    have hpart := m.part_pushRecord k c body false
    unfold Partition.pushRecord at hpart
    refine ⟨fun hheld hroom => ?_, fun hwait hlt => ?_, fun hfour => ?_⟩
    · rw [if_pos ⟨hheld, hroom⟩] at hpart
      rw [hpart, Partition.ctx_cplPush]
      exact ⟨Table.get_set_same .., Partition.cplDepth_cplPush _ _ _ hroom, hheld, fun i hi => Table.get_set_other _ hi _ _⟩
    · have hnot : ¬ (((m.part k).ctx c).held = [] ∧ (m.part k).cplDepth c < 256) := by
        rintro ⟨h1, h2⟩
        exact hwait.elim (· h1) (Nat.not_le.mpr h2)
      rw [if_neg hnot, if_pos hlt] at hpart
      rw [hpart, Partition.ctx_modCtx]
      exact ⟨rfl, rfl, rfl⟩
    · have hheld : ((m.part k).ctx c).held ≠ [] := fun h => by simp [h] at hfour
      rw [if_neg (fun h => hheld h.1), if_neg (by omega)] at hpart
      rw [hpart, Partition.ctx_flag, Partition.ctx_modCtx]
      exact ⟨rfl, rfl, Partition.getB_flag_same _ _ (by decide), Context.taken_credit ..⟩
  case rdPasses =>
    intro s f k c value hw hc hle
    obtain ⟨x, hring, heq⟩ := Mod.cplRdWrite_of_le hle
    refine ⟨_, gives_cplRdWrite hw hc, ?_⟩
    have hfits := getF_lt value 24 16
    rw [heq, Mod.part_modPart]
    refine ⟨?_, ?_, ?_, fun j hj => Mod.part_modPart_other _ hj _⟩
    · rw [Partition.cplRd, Partition.reg_setFld, getF_setF_same _ _ _ _ (by decide) (by decide)]
      exact Nat.mod_eq_of_lt hfits
    · rw [Partition.cplWr, Partition.reg_setFld, getF_setF_other _ _ _ _ _ _ (by decide) (by decide) (by decide)]
      rfl
    · rw [Partition.ctx_setFld, Partition.ctx_modCtx, hring]
  case rdBeyond =>
    intro s f k c value hl hbeyond
    have h := gives_of_host hl (exec_cplRdWrite f k c value s)
    simpa only [Mod.cplRdWrite_beyond hbeyond, ite_self] using h
  case retry =>
    intro s k c body ha hheld hroom
    refine ⟨_, gives_of_alive ha (exec_cplRecordRetry k c s), ?_⟩
    rw [Mod.part_cplRetry_one hheld hroom, Partition.ctx_cplPush, Partition.ctx_modCtx]
    exact ⟨rfl, Table.get_set_same ..⟩
  case retryNone =>
    intro s k c ha hnone
    have h := gives_of_alive ha (exec_cplRecordRetry k c s)
    rwa [Mod.cplRetry_none hnone] at h
  case noticeRd =>
    intro s f k value hw hle
    have heq : s.mod.noticeRdWrite k.val value = s.mod.modPart k.val fun p => p.setFld offNoticePtr 22 16 (getF value 22 16) :=
      if_pos hle
    refine ⟨_, gives_noticeRdWrite hw, ?_⟩
    rw [heq, Mod.part_modPart, Partition.noticeRd_setFld, Partition.noticeWr_setFld]
    exact ⟨Nat.mod_eq_of_lt (getF_lt value 22 16), rfl, rfl⟩
  case noticeBeyond =>
    intro s f k value hl hbeyond
    have heq : s.mod.noticeRdWrite k.val value = s.mod := if_neg (Nat.not_le.mpr hbeyond)
    have h := gives_of_host hl (exec_noticeRdWrite f k value s)
    simpa only [heq, ite_self] using h
  case notice =>
    intro s k body hl hp hroom
    refine ⟨_, gives_of_molique hl (exec_noticePushRetry k s), ?_⟩
    obtain ⟨regs, heq, -⟩ := ({ s.mod.part k.val with notices := [] } : Partition).noticed_eq body
    rw [Mod.part_noticeRetry_one hp hroom, heq]
    exact ⟨rfl, Table.get_set_same ..⟩
  case noticeFull =>
    intro s k hl hfull
    have h := gives_of_molique hl (exec_noticePushRetry k s)
    rwa [Mod.noticeRetry_full hfull] at h
  case memClear =>
    intro s f k hw
    refine ⟨fun hset => ?_, fun hclear => ?_⟩
    · have hcreated : (s.mod.part k.val).created = true := by
        have h := hw.2
        simp only [Mod.writable, Bool.and_eq_true] at h
        exact h.1.2
      have heq : s.mod.memClear k.val =
          (s.mod.modPart k.val fun p => p.setFld offSuspend 3 3 0).notice k.val 3 0xFFFF (s.mod.part k.val).memObj 0 :=
        if_pos hset
      obtain ⟨hnear, hctxs, hmem, hring⟩ := Mod.part_notice (m := s.mod.modPart k.val fun p => p.setFld offSuspend 3 3 0)
        (k := k.val) (by rw [Mod.part_modPart]; exact hcreated) 3 0xFFFF (s.mod.part k.val).memObj 0
      rw [Mod.part_modPart] at hnear hctxs hmem hring
      refine ⟨_, gives_admSuspendMemClear hw, ?_⟩
      rw [heq, hnear, hctxs, hmem, Partition.reg_setFld]
      refine ⟨getB_setB_same _ 3 false (by decide), rfl, rfl, fun hnone hroom => ?_⟩
      have hptr : ((s.mod.part k.val).setFld offSuspend 3 3 0).reg offNoticePtr = (s.mod.part k.val).reg offNoticePtr :=
        Partition.reg_setFld_other _ _ _ _ _ (by decide)
      have hwr : ((s.mod.part k.val).setFld offSuspend 3 3 0).noticeWr = (s.mod.part k.val).noticeWr := by
        rw [Partition.noticeWr, hptr]; rfl
      have hdepth : ((s.mod.part k.val).setFld offSuspend 3 3 0).noticeDepth = (s.mod.part k.val).noticeDepth := by
        rw [Partition.noticeDepth, hwr, Partition.noticeRd, hptr]; rfl
      rw [hring hnone (hdepth ▸ hroom), hwr]
      exact Table.get_set_same ..
    · have h := gives_admSuspendMemClear hw
      have heq : s.mod.memClear k.val = s.mod := if_neg (by simp [hclear])
      rwa [heq] at h

end Sys2Proof.Machine
end

section
/-!
PROOFS. Responses as they change the module, and the take-up of a message time (02 R53, R58, R59).
-/

namespace Sys2Proof.Machine
open Claims

/-! ### What a response changes (02 R53, R54) -/

/-- A response changes what is sent, the interrupts, the mailboxes and what management awaits, and nothing else. -/
theorem Mod.respond_eq (m : Mod) (r : Request) (status detail : Nat) (payload : List Byte) : ∃ out pcie mbx mgmtBusy,
    m.respond r status detail payload = { m with out := out, pcie := pcie, mbx := mbx, mgmtBusy := mgmtBusy } := by
  unfold Mod.respond
  split
  · split
    · exact ⟨_, m.pcie, m.mbx, none, rfl⟩
    · exact ⟨m.out, m.pcie, m.mbx, m.mgmtBusy, rfl⟩
  · dsimp only
    split
    · split
      · next b =>
        obtain ⟨out, pcie, h⟩ := Mod.msix_eq { m with mbx := Table.set _ _ m.mbx } r.fn 0
        exact ⟨out, pcie, _, m.mgmtBusy, h⟩
      · exact ⟨m.out, m.pcie, _, m.mgmtBusy, rfl⟩
    · exact ⟨m.out, m.pcie, m.mbx, m.mgmtBusy, rfl⟩

@[simp] theorem Mod.mbx_msix (m : Mod) (f : Fn) (v : Nat) : (m.msix f v).mbx = m.mbx := by
  obtain ⟨out, pcie, h⟩ := m.msix_eq f v
  rw [h]

@[simp] theorem Mod.mgmtBusy_msix (m : Mod) (f : Fn) (v : Nat) : (m.msix f v).mgmtBusy = m.mgmtBusy := by
  obtain ⟨out, pcie, h⟩ := m.msix_eq f v
  rw [h]

/-- The mailbox of index `i` awaits no response, and its last one has come. -/
def Mod.Answered (m : Mod) (i : Nat) : Prop := (m.mailbox i).cur = none ∧ (m.mailbox i).done = true

/-- The mailbox of index `i` awaits the request that `id` names, or has had its answer. -/
def Mod.Awaits (m : Mod) (i id : Nat) : Prop := (m.mailbox i).cur = some id ∨ m.Answered i

section
variable (m : Mod) (r : Request) (status detail : Nat) (payload : List Byte)

/-- A response leaves a mailbox as it is, which then awaits another request or none, or answers it. -/
theorem Mod.mailbox_respond (i : Nat) :
    ((m.respond r status detail payload).mailbox i = m.mailbox i ∧
        (r.fn ≠ .mgmt → fnIdx r.fn = i → (m.mailbox i).cur ≠ some r.id)) ∨
      (m.respond r status detail payload).Answered i := by
  unfold Mod.respond
  split
  next hf => exact .inl ⟨by split <;> rfl, fun h => absurd hf h⟩
  next =>
    dsimp only
    split
    next hcur =>
      by_cases hi : i = fnIdx r.fn
      · subst hi
        right
        split <;> simp [Mod.Answered, Mod.mailbox]
      · refine .inl ⟨?_, fun _ h => absurd h.symm hi⟩
        split <;> simp [Mod.mailbox, Table.get_set_other _ hi]
    next hcur => exact .inl ⟨rfl, fun _ h => h ▸ hcur⟩

theorem Mod.mgmtBusy_respond : (m.respond r status detail payload).mgmtBusy =
    if r.fn = .mgmt ∧ m.mgmtBusy = some r.id then none else m.mgmtBusy := by
  unfold Mod.respond
  split
  next hf =>
    by_cases hbusy : m.mgmtBusy = some r.id
    · simp [hf, hbusy]
    · simp [hbusy]
  next hf =>
    have hnot : ¬ (r.fn = .mgmt ∧ m.mgmtBusy = some r.id) := fun h => hf h.1
    rw [if_neg hnot]
    dsimp only
    split
    · split <;> simp
    · rfl

variable {m r}

theorem Mod.answered_respond_of {i : Nat} (h : m.Answered i) : (m.respond r status detail payload).Answered i := by
  rcases m.mailbox_respond r status detail payload i with ⟨hsame, -⟩ | hdone
  · rwa [Mod.Answered, hsame]
  · exact hdone

theorem Mod.awaits_respond {i id : Nat} (h : m.Awaits i id) : (m.respond r status detail payload).Awaits i id := by
  rcases m.mailbox_respond r status detail payload i with ⟨hsame, -⟩ | hdone
  · rwa [Mod.Awaits, Mod.Answered, hsame]
  · exact .inr hdone

theorem Mod.answered_respond (hf : r.fn ≠ .mgmt) (h : m.Awaits (fnIdx r.fn) r.id) :
    (m.respond r status detail payload).Answered (fnIdx r.fn) := by
  rcases m.mailbox_respond r status detail payload (fnIdx r.fn) with ⟨hsame, hcur⟩ | hdone
  · rw [Mod.Answered, hsame]
    exact h.resolve_left (hcur hf rfl)
  · exact hdone

end

/-! ### The take-up of a message time (02 R58, R59) -/

theorem Mod.headerCheck_congr {m n : Mod} (hboot : n.boot = m.boot) (hparts : n.parts = m.parts) (r : Request) :
    n.headerCheck r = m.headerCheck r := by
  have horphan : n.orphan r = m.orphan r := by
    unfold Mod.orphan
    split
    · simp only [Mod.exists?, Mod.part, hparts]
    · rfl
  have hrunning : n.running = m.running := by rw [Mod.running, Mod.running, hboot]
  rw [Mod.headerCheck, Mod.headerCheck, horphan, hrunning, hboot]

section
variable (m : Mod) (r : Request)

/-- One request taken up joins those that wait, or is answered. -/
theorem Mod.takeOne_of_none (h : m.headerCheck r = none) : m.takeOne r = { m with taken := m.taken ++ [r] } := by
  rw [Mod.takeOne, h]

theorem Mod.takeOne_of_some {st d : Nat} (h : m.headerCheck r = some (st, d)) : m.takeOne r = m.respond r st d := by
  rw [Mod.takeOne, h]

theorem Mod.takeOne_eq : ∃ out pcie mbx mgmtBusy, m.takeOne r = { m with
    out := out, pcie := pcie, mbx := mbx, mgmtBusy := mgmtBusy
    taken := m.taken ++ [r].filter fun x => (m.headerCheck x).isNone } := by
  cases h : m.headerCheck r with
  | none => exact ⟨m.out, m.pcie, m.mbx, m.mgmtBusy, by simp [Mod.takeOne_of_none m r h, h]⟩
  | some e =>
    obtain ⟨out, pcie, mbx, mgmtBusy, hr⟩ := m.respond_eq r e.1 e.2 []
    exact ⟨out, pcie, mbx, mgmtBusy, by simp [Mod.takeOne_of_some m r h, hr, h]⟩

end

/-- What taking up some requests leaves and what it adds to those that wait. -/
theorem Mod.takeAll_eq (m : Mod) (rs : List Request) : ∃ out pcie mbx mgmtBusy, rs.foldl Mod.takeOne m = { m with
    out := out, pcie := pcie, mbx := mbx, mgmtBusy := mgmtBusy
    taken := m.taken ++ rs.filter fun x => (m.headerCheck x).isNone } := by
  induction rs generalizing m with
  | nil => exact ⟨m.out, m.pcie, m.mbx, m.mgmtBusy, by simp⟩
  | cons r rs ih =>
    obtain ⟨out, pcie, mbx, mgmtBusy, hone⟩ := m.takeOne_eq r
    obtain ⟨out', pcie', mbx', mgmtBusy', hall⟩ := ih (m.takeOne r)
    have hcheck : (m.takeOne r).headerCheck = m.headerCheck := by
      funext x
      exact Mod.headerCheck_congr (by rw [hone]) (by rw [hone]) x
    refine ⟨out', pcie', mbx', mgmtBusy', ?_⟩
    rw [List.foldl_cons, hall, hcheck, hone]
    by_cases hr : (m.headerCheck r).isNone <;> simp [hr]

/-- A list that holds `r` leads from `P`, which every step keeps, to `Q`, which the step of `r` brings and every step keeps. -/
theorem foldl_reaches {α β : Type} {f : α → β → α} {P Q : α → Prop} {r : β} {xs : List β} (hr : r ∈ xs)
    (hP : ∀ a x, P a → P (f a x)) (hQ : ∀ a x, Q a → Q (f a x)) (hbring : ∀ a, P a → Q (f a r)) {a : α} (ha : P a) :
    Q (xs.foldl f a) := by
  obtain ⟨before, after, rfl⟩ := List.append_of_mem hr
  rw [List.foldl_append, List.foldl_cons]
  exact List.foldlRecOn after f (hbring _ (List.foldlRecOn before f ha fun a h x _ => hP a x h)) fun a h x _ => hQ a x h

/-- The state that a request's header is checked in stands while requests are taken up. -/
theorem Mod.headerCheck_takeOne (m : Mod) (r x : Request) : (m.takeOne r).headerCheck x = m.headerCheck x := by
  obtain ⟨out, pcie, mbx, mgmtBusy, h⟩ := m.takeOne_eq r
  exact Mod.headerCheck_congr (by rw [h]) (by rw [h]) x

section
variable {m : Mod} {r : Request} {rs : List Request} (hr : r ∈ rs) (hbad : (m.headerCheck r).isSome = true)
include hr hbad

/-- A request of a function that its header refuses is answered, where its mailbox awaits it. -/
theorem Mod.answered_takeAll (hf : r.fn ≠ .mgmt) (hcur : (m.mailbox (fnIdx r.fn)).cur = some r.id) :
    (rs.foldl Mod.takeOne m).Answered (fnIdx r.fn) := by
  refine foldl_reaches (P := fun (n : Mod) => n.headerCheck r = m.headerCheck r ∧ n.Awaits (fnIdx r.fn) r.id)
    (Q := fun n => n.Answered (fnIdx r.fn)) hr ?_ ?_ ?_
    ⟨rfl, .inl hcur⟩
  · rintro n x ⟨hcheck, hawaits⟩
    refine ⟨(n.headerCheck_takeOne x r).trans hcheck, ?_⟩
    cases h : n.headerCheck x with
    | none => rwa [Mod.takeOne_of_none _ _ h]
    | some e =>
      rw [Mod.takeOne_of_some _ _ h]
      exact Mod.awaits_respond _ _ _ hawaits
  · intro n x hdone
    cases h : n.headerCheck x with
    | none => rwa [Mod.takeOne_of_none _ _ h]
    | some e =>
      rw [Mod.takeOne_of_some _ _ h]
      exact Mod.answered_respond_of _ _ _ hdone
  · rintro n ⟨hcheck, hawaits⟩
    obtain ⟨e, he⟩ := Option.isSome_iff_exists.mp hbad
    rw [Mod.takeOne_of_some _ _ (hcheck.trans he)]
    exact Mod.answered_respond _ _ _ hf hawaits

/-- A request of management that its header refuses is answered, where management awaits it. -/
theorem Mod.mgmtBusy_takeAll (hf : r.fn = .mgmt) (hbusy : m.mgmtBusy = some r.id) :
    (rs.foldl Mod.takeOne m).mgmtBusy = none := by
  have hkeeps (n : Mod) (x : Request) : (n.takeOne x).mgmtBusy = n.mgmtBusy ∨ (n.takeOne x).mgmtBusy = none := by
    cases h : n.headerCheck x with
    | none => exact .inl (by rw [Mod.takeOne_of_none _ _ h])
    | some e =>
      rw [Mod.takeOne_of_some _ _ h, Mod.mgmtBusy_respond]
      split
      · exact .inr rfl
      · exact .inl rfl
  refine foldl_reaches
    (P := fun (n : Mod) => n.headerCheck r = m.headerCheck r ∧ (n.mgmtBusy = some r.id ∨ n.mgmtBusy = none))
    (Q := fun (n : Mod) => n.mgmtBusy = none) hr ?_ ?_ ?_ ⟨rfl, .inl hbusy⟩
  · rintro n x ⟨hcheck, hawaits⟩
    refine ⟨(n.headerCheck_takeOne x r).trans hcheck, ?_⟩
    rcases hkeeps n x with h | h <;> rw [h]
    · exact hawaits
    · exact .inr rfl
  · intro n x hdone
    rcases hkeeps n x with h | h <;> rw [h]
    exact hdone
  · rintro n ⟨hcheck, hawaits⟩
    obtain ⟨e, he⟩ := Option.isSome_iff_exists.mp hbad
    rw [Mod.takeOne_of_some _ _ (hcheck.trans he), Mod.mgmtBusy_respond]
    rcases hawaits with h | h <;> simp [hf, h]

end

/-- The least message time of some requests, found from the first to the last. -/
theorem earliest_eq {f : Option Nat → Request → Option Nat} (hnone : ∀ r, f none r = some r.mtime)
    (hsome : ∀ t r, f (some t) r = some (min t r.mtime)) {rs : List Request} {t : Nat} (hmem : ∃ r ∈ rs, r.mtime = t)
    (hle : ∀ r ∈ rs, t ≤ r.mtime) : rs.foldl f none = some t := by
  have hmin (rs : List Request) (a : Nat) : rs.foldl f (some a) = some ((rs.map (·.mtime)).foldl min a) := by
    induction rs generalizing a with
    | nil => rfl
    | cons r rs ih => rw [List.foldl_cons, hsome, ih]; rfl
  cases rs with
  | nil => simp at hmem
  | cons r rs =>
    rw [List.foldl_cons, hnone, hmin, ← List.min?_cons', ← List.map_cons, List.min?_eq_some_iff]
    have hmem' : t ∈ (r :: rs).map (·.mtime) := by
      obtain ⟨x, hx, rfl⟩ := hmem
      exact List.mem_map_of_mem hx
    exact ⟨hmem', fun b hb => by
      obtain ⟨x, hx, rfl⟩ := List.mem_map.mp hb
      exact hle x hx⟩

/-- The requests of the oldest past message time are taken up. -/
theorem Mod.takeUp_eq {m : Mod} {t : Nat} (hmem : ∃ r ∈ m.arrived, r.mtime = t) (hpast : t < m.mtime)
    (hle : ∀ r ∈ m.arrived, t ≤ r.mtime) : m.takeUp =
      ((m.arrived.filter fun r => r.mtime == t && r.fn == .mgmt) ++ m.arrived.filter fun r => r.mtime == t && r.fn != .mgmt).foldl
        Mod.takeOne { m with arrived := m.arrived.filter fun r => r.mtime != t } := by
  have hnow (p : Request → Bool) : ((m.arrived.filter fun r => decide (r.mtime < m.mtime)).filter fun r => r.mtime == t).filter p =
      m.arrived.filter fun r => r.mtime == t && p r := by
    rw [List.filter_filter, List.filter_filter]
    refine List.filter_congr fun r _ => ?_
    by_cases h : r.mtime = t
    · simp [h, hpast]
    · have hne : (r.mtime == t) = false := by simpa using h
      rw [hne, Bool.and_false, Bool.false_and, Bool.false_and]
  obtain ⟨r, hr, hrt⟩ := hmem
  unfold Mod.takeUp
  dsimp only
  rw [earliest_eq (fun _ => rfl) (fun _ _ => rfl) ⟨r, List.mem_filter.mpr ⟨hr, by simpa [hrt] using hpast⟩, hrt⟩
    fun x hx => hle x (List.mem_of_mem_filter hx)]
  dsimp only
  rw [hnow, hnow]

/-- Settles O15. -/
theorem takeUpOrder : Obligations.TakeUpOrder := by
  unfold Obligations.TakeUpOrder
  refine ⟨fun s hon hnone => ?_, fun s t hon hmem hpast hle => ?_⟩
  · have h := gives_of_act hon (exec_messageTimeTakeup s)
    have hpast : s.mod.arrived.filter (fun r => decide (r.mtime < s.mod.mtime)) = [] := by
      simpa [List.filter_eq_nil_iff] using hnone
    simpa [Mod.takeUp, hpast] using h
  · have hgives := gives_of_act hon (exec_messageTimeTakeup s)
    rw [Mod.takeUp_eq hmem hpast hle] at hgives
    have hcheck (x : Request) := Mod.headerCheck_congr (m := s.mod)
      (n := { s.mod with arrived := s.mod.arrived.filter fun r => r.mtime != t }) rfl rfl x
    refine ⟨_, hgives, ?_, ?_, fun r hr hbad hcur => ?_, fun r hr hbad hbusy => ?_, ?_⟩
    case refine_3 =>
      obtain ⟨-, hf⟩ := List.mem_filter.mp hr
      exact Mod.answered_takeAll (List.mem_append_right _ hr) (by rwa [hcheck]) (by simp at hf; exact hf.2) hcur
    case refine_4 =>
      obtain ⟨-, hf⟩ := List.mem_filter.mp hr
      exact Mod.mgmtBusy_takeAll (List.mem_append_left _ hr) (by rwa [hcheck]) (by simp at hf; exact hf.2) hbusy
    all_goals
      obtain ⟨out, pcie, mbx, mgmtBusy, h⟩ := Mod.takeAll_eq
        { s.mod with arrived := s.mod.arrived.filter fun r => r.mtime != t }
        ((s.mod.arrived.filter fun r => r.mtime == t && r.fn == .mgmt) ++
          s.mod.arrived.filter fun r => r.mtime == t && r.fn != .mgmt)
      rw [h]
    · simp only [hcheck]
    · exact ⟨rfl, rfl, rfl⟩

end Sys2Proof.Machine
end

section
/-!
PROOFS. The partitions that an operation on one partition does not touch.
-/

namespace Sys2Proof.Machine
open Claims

/-- The partitions other than `k`. -/
def Mod.others (m : Mod) (k : Nat) : Nat → Partition := fun j => if j = k then Partition.reset else m.part j

theorem Mod.part_of_others {m n : Mod} {k : Nat} (h : n.others k = m.others k) {j : Nat} (hj : j ≠ k) : n.part j = m.part j := by
  have hpart := congrFun h j
  simpa [Mod.others, hj] using hpart

theorem Mod.others_of_part {m n : Mod} {k : Nat} (h : ∀ j, j ≠ k → n.part j = m.part j) : n.others k = m.others k := by
  funext j
  unfold Mod.others
  split
  · rfl
  next hj => exact h j hj

section
variable (m : Mod) (k : Nat) (out : List Sent) (fresh : Nat) (read : Option ReadData) (power : Power) (devtime : Dword)
  (time : TimeSync) (boot : Boot) (fwLoad : Option FwLoad) (fw : Option FwImage) (pcie : Pcie) (chip : RegFile)
  (shadows staged : Table Word) (mbx : Table Mailbox) (mgmtBusy : Option Nat) (reqSerial : Nat)
  (arrived taken acting : List Request) (supersede modRecords : List (List Byte)) (keys : Table KeySlot) (pke : List PkeJob)
  (wrapped : List WrappedDone) (kaScalar : Nat) (spdm : Table Spdm) (links : Table Link) (jobs : Table Job) (paths : Table Path)
  (binds : Table Binding) (gov : Governor) (fabric : Table Nat) (holders : Table (Nat × Nat)) (ports : Table Port)
  (beats : Table Dword) (resvSerial : Nat)

/-- Whatever a record update replaces but the partitions, the others stand. -/
@[simp] theorem Mod.others_mk : Mod.others
    { out, fresh, read, power, devtime, time, boot, fwLoad, fw, pcie, chip, shadows, staged, mbx, mgmtBusy, reqSerial, arrived,
      taken, acting, supersede, parts := m.parts, keys, pke, wrapped, kaScalar, spdm, links, jobs, paths, binds, gov,
      modRecords, fabric, holders, ports, beats, resvSerial } k = m.others k := by
  rfl

end

section
variable {k : Nat}

@[simp] theorem Mod.others_ite (c : Prop) [Decidable c] (a b : Mod) :
    (if c then a else b).others k = if c then a.others k else b.others k := apply_ite (fun m => Mod.others m k) ..

@[simp] theorem Mod.others_snd_ite {α : Type} (c : Prop) [Decidable c] (a b : α × Mod) :
    (if c then a else b).2.others k = if c then a.2.others k else b.2.others k := apply_ite (fun x : α × Mod => x.2.others k) ..

@[simp] theorem Mod.others_forAll {α : Type} {f : Mod → α → Mod} (h : ∀ m x, (f m x).others k = m.others k) (xs : List α)
    (m : Mod) : (m.forAll f xs).others k = m.others k :=
  Mod.forAll_keeps (P := fun n => n.others k = m.others k) (fun n x hn => (h n x).trans hn) xs m rfl

theorem Mod.others_foldl {α β : Type} (get : β → Mod) {f : β → α → β}
    (h : ∀ b x, (get (f b x)).others k = (get b).others k) (xs : List α) (b : β) :
    (get (xs.foldl f b)).others k = (get b).others k := by
  induction xs generalizing b with
  | nil => rfl
  | cons x xs ih => exact (ih _).trans (h b x)

section
variable {α β γ δ : Type}

theorem Mod.others_foldl₂ {f : β × Mod → α → β × Mod} (h : ∀ b x, (f b x).2.others k = b.2.others k) (xs : List α)
    (b : β × Mod) : (xs.foldl f b).2.others k = b.2.others k :=
  Mod.others_foldl (fun a => a.2) h xs b

theorem Mod.others_foldl₃ {f : β × γ × Mod → α → β × γ × Mod} (h : ∀ b x, (f b x).2.2.others k = b.2.2.others k)
    (xs : List α) (b : β × γ × Mod) : (xs.foldl f b).2.2.others k = b.2.2.others k :=
  Mod.others_foldl (fun a => a.2.2) h xs b

theorem Mod.others_foldl₄ {f : β × γ × δ × Mod → α → β × γ × δ × Mod}
    (h : ∀ b x, (f b x).2.2.2.others k = b.2.2.2.others k) (xs : List α) (b : β × γ × δ × Mod) :
    (xs.foldl f b).2.2.2.others k = b.2.2.2.others k :=
  Mod.others_foldl (fun a => a.2.2.2) h xs b

end

/-- A module that stands in the result of an operation has the other partitions that the operation leaves. -/
theorem Mod.others_of_snd {α : Type} {m n : Mod} {a : α} {x : α × Mod} (h : x = (a, n)) (hx : x.2.others k = m.others k) :
    n.others k = m.others k := by
  subst h
  exact hx

theorem Mod.others_of_snd₃ {α β : Type} {m n : Mod} {a : α} {b : β} {x : α × β × Mod} (h : x = (a, b, n))
    (hx : x.2.2.others k = m.others k) : n.others k = m.others k := by
  subst h
  exact hx

end

end Sys2Proof.Machine
end

section
/-!
PROOFS. The operations of one partition, each of which leaves every other partition as it is.
-/

namespace Sys2Proof.Machine
open Claims

@[simp] theorem Mod.others_modPart (m : Mod) (k : Nat) (f : Partition → Partition) :
    (m.modPart k f).others k = m.others k :=
  Mod.others_of_part fun _ hj => Mod.part_modPart_other m hj f
@[simp] theorem Mod.others_modCtx (m : Mod) (k c : Nat) (f : Context → Context) : (m.modCtx k c f).others k = m.others k := by
  simp [Mod.modCtx]
@[simp] theorem Mod.others_modKey (m : Mod) (k : Nat) (i : Nat) (f : KeySlot → KeySlot) : (m.modKey i f).others k = m.others k := by
  simp [Mod.modKey]
@[simp] theorem Mod.others_send (m : Mod) (k : Nat) (x : Sent) : (m.send x).others k = m.others k := by simp [Mod.send]
@[simp] theorem Mod.others_draw (m : Mod) (k : Nat) : (m.draw).2.others k = m.others k := by simp [Mod.draw]
@[simp] theorem Mod.others_msix (m : Mod) (k : Nat) (f : Fn) (v : Nat) : (m.msix f v).others k = m.others k := by simp [Mod.msix]
@[simp] theorem Mod.others_msixPart (m : Mod) (k v : Nat) : (m.msixPart k v).others k = m.others k := by simp [Mod.msixPart]
@[simp] theorem Mod.others_noticePush (m : Mod) (k : Nat) (body : List Byte) :
    (m.noticePush k body).others k = m.others k := by
  simp [Mod.noticePush]
@[simp] theorem Mod.others_notice (m : Mod) (k code resv obj state : Nat) :
    (m.notice k code resv obj state).others k = m.others k := by
  simp [Mod.notice]
@[simp] theorem Mod.others_keyUse (m : Mod) (k : Nat) (slot ver : Nat) (u : KeyUse) : (m.keyUse slot ver u).others k = m.others k := by
  simp [Mod.keyUse]
@[simp] theorem Mod.others_keyRelease (m : Mod) (k : Nat) (f : KeyUse → Bool) : (m.keyRelease f).others k = m.others k := by
  simp [Mod.keyRelease]
@[simp] theorem Mod.others_markRun (m : Mod) (k c status detail : Nat) :
    (m.markRun k c status detail).others k = m.others k := by
  simp [Mod.markRun]
@[simp] theorem Mod.others_host (m : Mod) (k : Nat) {f : Mod → Mod} (hf : ∀ n, (f n).others k = n.others k) :
    (m.host f).others k = m.others k := by simp [Mod.host, hf]
@[simp] theorem Mod.others_molique (m : Mod) (k : Nat) {f : Mod → Mod} (hf : ∀ n, (f n).others k = n.others k) :
    (m.molique f).others k = m.others k := by simp [Mod.molique, hf]
@[simp] theorem Mod.others_modRun (m : Mod) (k c : Nat) (f : Run → Run) : (m.modRun k c f).others k = m.others k := by
  simp [Mod.modRun]
@[simp] theorem Mod.others_worked (m : Mod) (k c node member : Nat) : (m.worked k c node member).others k = m.others k := by
  simp [Mod.worked]
@[simp] theorem Mod.others_cplRdWrite (m : Mod) (k c : Nat) (value : Word) :
    (m.cplRdWrite k c value).others k = m.others k := by
  simp [Mod.cplRdWrite]
@[simp] theorem Mod.others_scratchFinds (m : Mod) (k ti : Nat) (f : Footprint) (xs : List WordFind) :
    (m.scratchFinds k ti f xs).others k = m.others k := by
  simp [Mod.scratchFinds]
@[simp] theorem Mod.others_scratchError (m : Mod) (k c : Nat) : (m.scratchError k c).others k = m.others k := by
  simp [Mod.scratchError]
@[simp] theorem Mod.others_stalls (m : Mod) (k t : Nat) (beside : Bool) : (m.stalls k t beside).others k = m.others k := by
  simp [Mod.stalls]
@[simp] theorem Mod.others_arrayPass (m : Mod) (k c : Nat) (w : UnitWork) : (m.arrayPass k c w).others k = m.others k := by
  (unfold Mod.arrayPass; dsimp only; repeat' split) <;> simp
@[simp] theorem Mod.others_vectorNode (m : Mod) (op k c node : Nat) (w : UnitWork) :
    (m.vectorNode op k c node w).others k = m.others k := by
  (unfold Mod.vectorNode; dsimp only; repeat' split) <;> simp
@[simp] theorem Mod.others_memCondition (m : Mod) (k chan : Nat) : (m.memCondition k chan).others k = m.others k := by
  simp [Mod.memCondition]
@[simp] theorem Mod.others_eccError (m : Mod) (k g chan : Nat) (scrub : Bool) :
    (m.eccError k g chan scrub).others k = m.others k := by
  simp [Mod.eccError]
@[simp] theorem Mod.others_memRead (m : Mod) (k key loc n : Nat) (e : Ecc) (unit : Bool) (chan : Option Nat) :
    (m.memRead k key loc n e unit chan).2.others k = m.others k := by
  (unfold Mod.memRead; dsimp only; repeat' split) <;> simp
@[simp] theorem Mod.others_writeGranule (m : Mod) (k key loc : Nat) (bs : List Byte) (poison : Bool) (e : Ecc) :
    (m.writeGranule k key loc bs poison e).others k = m.others k := by
  (unfold Mod.writeGranule; dsimp only; repeat' split) <;> simp
@[simp] theorem Mod.others_memWrite (m : Mod) (k key loc : Nat) (bs : List Byte) (bad : List Nat) (e : Ecc) :
    (m.memWrite k key loc bs bad e).others k = m.others k := by
  simp [Mod.memWrite]
@[simp] theorem Mod.others_voidOwn (m : Mod) (k c : Nat) (r : Raise) (code obj : Nat) :
    (m.voidOwn k c r code obj).others k = m.others k := by
  unfold Mod.voidOwn; split <;> simp
@[simp] theorem Mod.others_hostTraffic (m : Mod) (k n : Nat) : (m.hostTraffic k n).others k = m.others k := by
  refine (Mod.others_forAll (fun n e => Mod.others_forAll (fun n u => Mod.others_forAll (fun n mb => ?_) ..) ..) ..).trans ?_ <;>
    simp
@[simp] theorem Mod.others_bar2Read (m : Mod) (k off n : Nat) (e : Ecc) : (m.bar2Read k off n e).others k = m.others k := by
  refine (Mod.others_hostTraffic ..).trans ((Mod.others_mk ..).trans ?_)
  refine Mod.others_foldl₄ (fun acc c => ?_) ..
  simp
@[simp] theorem Mod.others_bar2Write (m : Mod) (k off : Nat) (data : List Byte) (e : Ecc) :
    (m.bar2Write k off data e).others k = m.others k := by
  refine (Mod.others_hostTraffic ..).trans (Mod.others_foldl₂ (fun acc c => ?_) ..)
  dsimp only
  split <;> simp
@[simp] theorem Mod.others_patrolScrub (m : Mod) (k loc : Nat) (e : Ecc) : (m.patrolScrub k loc e).others k = m.others k := by
  unfold Mod.patrolScrub; split <;> simp
@[simp] theorem Mod.others_cmpEnable (m : Mod) (k r : Nat) (e : Ecc) : (m.cmpEnable k r e).others k = m.others k := by
  generalize hF : @Mod.cmpEnable = F
  delta Mod.cmpEnable at hF
  subst hF
  beta_reduce
  extract_lets p g there
  generalize hx : (if there = true then m.memRead k (m.memKey k) g.tbl 128 e true else ({ bytes := [], bad := [] }, m)) = x
  have hm : x.2.others k = m.others k := by
    subst hx
    split
    · simp
    · rfl
  obtain ⟨rd, n⟩ := x
  exact (Mod.others_modPart n k _).trans hm
@[simp] theorem Mod.others_cmpCtrlWrite (m : Mod) (k r : Nat) (value : Word) (e : Ecc) :
    (m.cmpCtrlWrite k r value e).others k = m.others k := by
  simp [Mod.cmpCtrlWrite]
@[simp] theorem Mod.others_scratchRead (m : Mod) (k t st a n : Nat) (e : Ecc) :
    (m.scratchRead k t st a n e).2.others k = m.others k := by
  (unfold Mod.scratchRead; dsimp only; repeat' split) <;> simp
@[simp] theorem Mod.others_readPage (m : Mod) (k t : Nat) (b : List Byte) (member : Nat) (g : PageDesc) (at' n : Nat) (e : Ecc) :
    (m.readPage k t b member g at' n e).2.others k = m.others k := by
  refine (Mod.others_foldl₃ (fun acc i => ?_) ..).trans ?_ <;> simp
@[simp] theorem Mod.others_ownerFails (m : Mod) (k ch : Nat) (d : Desc) (status detail : Nat) :
    (m.ownerFails k ch d status detail).others k = m.others k := by
  unfold Mod.ownerFails; split <;> simp
@[simp] theorem Mod.others_pushDesc (m : Mod) (k ch : Nat) (d : Desc) : (m.pushDesc k ch d).others k = m.others k := by
  simp [Mod.pushDesc]
@[simp] theorem Mod.others_readEntry (m : Mod) (k h : Nat) (e : Ecc) : (m.readEntry k h e).2.2.others k = m.others k := by
  simp [Mod.readEntry]
@[simp] theorem Mod.others_writeEntry (m : Mod) (k h lc lt : Nat) (slc : Option Nat) :
    (m.writeEntry k h lc lt slc).others k = m.others k := by
  simp [Mod.writeEntry]
@[simp] theorem Mod.others_watchLinks (m : Mod) (k : Nat) : (m.watchLinks k).others k = m.others k := by simp [Mod.watchLinks]
@[simp] theorem Mod.others_sendLatch (m : Mod) (k c node member job : Nat) :
    (m.sendLatch k c node member job).2.others k = m.others k := by
  (unfold Mod.sendLatch; dsimp only; repeat' split) <;> simp
@[simp] theorem Mod.others_sendStart (m : Mod) (k c node member : Nat) (b : List Byte) :
    (m.sendStart k c node member b).others k = m.others k := by
  unfold Mod.sendStart
  split
  · rfl
  next p _ =>
    have hlatch := m.others_sendLatch k c node member p.job
    split
    next n h => exact Mod.others_of_snd h hlatch
    next n h => simpa using Mod.others_of_snd h hlatch
@[simp] theorem Mod.others_walkFails (m : Mod) (k c node member status detail : Nat) :
    (m.walkFails k c node member status detail).others k = m.others k := by
  simp [Mod.walkFails]
@[simp] theorem Mod.others_pageFails (m : Mod) (k c node member : Nat) (f : PageFind) (isRead : Bool) :
    (m.pageFails k c node member f isRead).others k = m.others k := by
  unfold Mod.pageFails; split <;> simp
@[simp] theorem Mod.others_pushAll (m : Mod) (k ch c node member : Nat) (ds : List Desc) :
    (m.pushAll k ch c node member ds).others k = m.others k := by
  simp [Mod.pushAll]
@[simp] theorem Mod.others_kvRead (m : Mod) (k c node member : Nat) (u : Run) (img : List Byte) (e : Ecc) :
    (m.kvRead k c node member u img e).others k = m.others k := by
  rw [Mod.kvRead.eq_unfold]
  beta_reduce
  extract_lets b
  split
  · rfl
  · split
    next en lost m1 h1 =>
      rw [← Mod.others_of_snd₃ h1 (Mod.others_readEntry ..)]
      extract_lets globs
      split
      · simp
      · split <;> simp
@[simp] theorem Mod.others_kvAppend (m : Mod) (k c node member : Nat) (u : Run) (img : List Byte) (e : Ecc) :
    (m.kvAppend k c node member u img e).others k = m.others k := by
  rw [Mod.kvAppend.eq_unfold]
  beta_reduce
  extract_lets b ch commit
  split
  · rfl
  · split
    next en lost m1 h1 =>
      rw [← Mod.others_of_snd₃ h1 (Mod.others_readEntry ..)]
      extract_lets n full
      split
      · simp
      · split
        · simp
        · split
          · exact Mod.others_pageFails ..
          · split <;> simp
@[simp] theorem Mod.others_specAct (m : Mod) (k c node member op : Nat) {f : Mod → Run → List Byte → Member → Mod}
    (hf : ∀ n u img mb, (f n u img mb).others k = n.others k) : (m.specAct k c node member op f).others k = m.others k := by
  unfold Mod.specAct
  split
  · rfl
  · split
    · rfl
    · exact hf ..
@[simp] theorem Mod.others_specMask (m : Mod) (k c node member : Nat) (u : Run) (img : List Byte) (mb : Member) :
    (m.specMask k c node member u img mb).others k = m.others k := by
  simp [Mod.specMask]
@[simp] theorem Mod.others_specAccept (m : Mod) (k c node member : Nat) (u : Run) (img : List Byte) (mb : Member) :
    (m.specAccept k c node member u img mb).others k = m.others k := by
  simp [Mod.specAccept]
@[simp] theorem Mod.others_specRollback (m : Mod) (k c node member : Nat) (u : Run) (img : List Byte) :
    (m.specRollback k c node member u img).others k = m.others k := by
  unfold Mod.specRollback; split <;> simp
@[simp] theorem Mod.others_apRead (m : Mod) (k st t base off n : Nat) (e : Ecc) :
    (m.apRead k st t base off n e).others k = m.others k := by
  refine (Mod.others_mk ..).trans ?_
  refine Mod.others_foldl₄ (fun acc c => ?_) ..
  simp
@[simp] theorem Mod.others_apCommit (m : Mod) (k st t row : Nat) (bytes : Table Byte) (e : Ecc) :
    (m.apCommit k st t row bytes e).others k = m.others k := by
  (unfold Mod.apCommit; dsimp only; repeat' split) <;> simp
@[simp] theorem Mod.others_apAct (m : Mod) (k : Nat) (a : ApWait) : (m.apAct k a).others k = m.others k := by
  unfold Mod.apAct; split <;> simp
@[simp] theorem Mod.others_apRequest (m : Mod) (k : Nat) (a : ApWait) : (m.apRequest k a).others k = m.others k := by
  simp [Mod.apRequest]
@[simp] theorem Mod.others_apWriteRow (m : Mod) (k row lo : Nat) (data : List Byte) (e : Ecc) :
    (m.apWriteRow k row lo data e).others k = m.others k := by
  simp [Mod.apWriteRow]
@[simp] theorem Mod.others_apWrite (m : Mod) (k off : Nat) (data : List Byte) (e : Ecc) :
    (m.apWrite k off data e).others k = m.others k := by
  simp [Mod.apWrite]
@[simp] theorem Mod.others_nodeComplete (m : Mod) (k c node member : Nat) :
    (m.nodeComplete k c node member).others k = m.others k := by
  (unfold Mod.nodeComplete; dsimp only; repeat' split) <;> simp

end Sys2Proof.Machine
end

section
/-!
PROOFS. The commands of one partition and the other partitions (01 R31, 17 R377).
-/

namespace Sys2Proof.Machine
open Claims

section
variable {s t : State} {k : Nat} {f : Mod → Mod}

theorem others_of_act (h : s.act f = .next t) (hf : ∀ m, (f m).others k = m.others k) : t.mod.others k = s.mod.others k := by
  cases h
  dsimp only
  split
  · exact hf _
  · rfl

theorem others_of_actWrite {data : List Byte} (h : s.actWrite data f = .next t) (hf : ∀ m, (f m).others k = m.others k) :
    t.mod.others k = s.mod.others k := by
  unfold State.actWrite at h
  split at h
  · exact others_of_act h hf
  · cases h

end

/-- What a host write to events leaves of another partition. -/
theorem Mod.part_eventWrite_other (m : Mod) {j k : Nat} (h : j ≠ k) (off : Nat) (data : List Byte) :
    ∃ ctxs hold, (m.eventWrite k off data).part j = { m.part j with ctxs := ctxs, hold := hold } := by
  rw [Mod.eventWrite, Mod.part_settleHolds, Mod.part_latchWaits, Mod.part_modPart_other _ h]
  exact ⟨_, _, rfl⟩

/-- Settles O60. -/
theorem partitionsStandApart : Obligations.PartitionsStandApart := by
  unfold Obligations.PartitionsStandApart
  refine ⟨fun s t k i hi h j hj => ?_, fun s f k off data h0 h512 => ?_⟩
  · refine Mod.part_of_others ?_ hj
    rcases hi with ⟨f, rfl⟩ | ⟨f, v, rfl⟩ | ⟨off, d, e, rfl⟩ | ⟨off, n, e, rfl⟩ | ⟨off, d, e, rfl⟩ | ⟨off, n, e, rfl⟩ |
      ⟨c, w, rfl⟩ | ⟨c, n, w, rfl⟩ | ⟨c, n, w, rfl⟩ | ⟨c, n, mb, rfl⟩ | ⟨c, n, mb, e, rfl⟩ | ⟨c, n, mb, e, rfl⟩ |
      ⟨c, n, mb, rfl⟩ | ⟨c, n, mb, rfl⟩ | ⟨c, n, mb, rfl⟩ | ⟨c, n, mb, rfl⟩ | ⟨c, n, mb, rfl⟩ | ⟨x, g, e, rfl⟩ |
      ⟨f, r, v, e, rfl⟩ | ⟨f, c, v, rfl⟩ | ⟨f, mask, rfl⟩ | ⟨tr, p, rfl⟩
    · exact others_of_act ((exec_evtCtrlArm f k s).symm.trans h) fun m => by simp
    · exact others_of_act ((exec_dmaHostSelWrite f k v s).symm.trans h) fun m => by simp
    · exact others_of_actWrite ((exec_bar2Write k off d e s).symm.trans h) fun m => by simp
    · exact others_of_act ((exec_bar2Read k off n e s).symm.trans h) fun m => by simp
    · exact others_of_actWrite ((exec_hostApertureWrite k off d e s).symm.trans h) fun m => by simp
    · exact others_of_act ((exec_hostApertureRead k off n e s).symm.trans h) fun m => by simp
    · exact others_of_act ((exec_arrayPass k c w s).symm.trans h) fun m => by simp
    · exact others_of_act ((exec_vectorAdd k c n w s).symm.trans h) fun m => by simp
    · exact others_of_act ((exec_softmax k c n w s).symm.trans h) fun m => by simp
    · exact others_of_act ((exec_dmaTransfer k c n mb s).symm.trans h) fun m => by split <;> simp
    · exact others_of_act ((exec_kvRead k c n mb e s).symm.trans h) fun m => by split <;> simp
    · exact others_of_act ((exec_kvAppend k c n mb e s).symm.trans h) fun m => by split <;> simp
    · exact others_of_act ((exec_specMask k c n mb s).symm.trans h) fun m => by simp
    · exact others_of_act ((exec_specAccept k c n mb s).symm.trans h) fun m => by simp
    · exact others_of_act ((exec_specRollback k c n mb s).symm.trans h) fun m => by simp
    · exact others_of_act ((exec_nodeStart k c n mb s).symm.trans h) fun m => by simp
    · exact others_of_act ((exec_nodeComplete k c n mb s).symm.trans h) fun m => by simp
    · exact others_of_act ((exec_patrolScrub k x g e s).symm.trans h) fun m => by split <;> simp
    · exact others_of_act ((exec_cmpRegionEnable f k r v e s).symm.trans h) fun m => by simp
    · exact others_of_act ((exec_cplRdWrite f k c v s).symm.trans h) fun m => by simp
    · exact others_of_act ((exec_trussReadmit f k mask s).symm.trans h) fun m => by simp
    · exact others_of_act ((exec_readmitTestDone k tr p s).symm.trans h) fun m => by simp
  · have hexec := exec_eventHostWrite f k off data s
    rw [execEventHostWrite, State.actWrite_ok h0 h512] at hexec
    refine ⟨_, hexec, fun j hj => ?_⟩
    obtain ⟨ctxs, hold, hother⟩ := s.mod.part_eventWrite_other hj off.val data
    dsimp only [Mod.host]
    split
    · split
      · split
        · rw [hother]
          exact ⟨rfl, rfl, rfl, rfl, rfl, rfl⟩
        · exact ⟨rfl, rfl, rfl, rfl, rfl, rfl⟩
      · exact ⟨rfl, rfl, rfl, rfl, rfl, rfl⟩
    · exact ⟨rfl, rfl, rfl, rfl, rfl, rfl⟩

end Sys2Proof.Machine
end

section
/-!
PROOFS. Trusses that fault, are tested and rejoin (18 R405, R413 to R415).
-/

namespace Sys2Proof.Machine
open Claims

/-! ### Single bits of a register -/

theorem getB_setF (r : Word) {hi lo : Nat} (v i : Nat) (h : lo ≤ hi) (h32 : hi < 32) :
    getB (setF r hi lo v) i = if lo ≤ i ∧ i ≤ hi then v.testBit (i - lo) else getB r i := by
  rw [getB, bit_eq_testBit, setF_testBit r hi lo v i h h32, getB, bit_eq_testBit]

theorem testBit_getF (r : Word) {hi lo i : Nat} (h : lo + i ≤ hi) : (getF r hi lo).testBit i = getB r (lo + i) := by
  rw [getF, testBit_bits, getB, bit_eq_testBit, Nat.add_comm i lo, decide_eq_true (by omega), Bool.true_and]

/-- Of two bits, those that `x` lacks. -/
theorem testBit_three_sub {x i : Nat} (hx : x < 4) (hi : i < 2) : (3 - x).testBit i = !x.testBit i := by
  have hall : ∀ x < 4, ∀ i < 2, (3 - x).testBit i = !x.testBit i := by decide
  exact hall x hx i hi

/-! ### `FLT_TRUSS` (18 R413 to R415) -/

section
variable (p : Partition) (off hi lo v : Nat)

@[simp] theorem Partition.reg_flag (i : Nat) : (p.flag off i).reg off = setF (p.reg off) i i 1 := Partition.reg_setFld ..

theorem Partition.reg_flag_other {o : Nat} (i : Nat) (h : o ≠ off) : (p.flag off i).reg o = p.reg o :=
  Partition.reg_setFld_other _ _ _ _ _ h

end

section
variable {p : Partition}

theorem Partition.reg_readmit_other (mask : Nat) {off : Nat} (h : off ≠ offTruss) : (p.readmit mask).reg off = p.reg off := by
  unfold Partition.readmit
  dsimp only
  split
  · rfl
  · exact Partition.reg_setFld_other _ _ _ _ _ h

/-- READMIT starts the tests of trusses named that are out of service, and changes no other bit. -/
theorem Partition.getB_readmit (hc : p.created = true) (hr : p.underReset = false) (mask i : Nat) :
    getB ((p.readmit mask).reg offTruss) i =
      if 4 ≤ i ∧ i ≤ 5 then getB (p.reg offTruss) i || (mask.testBit (i - 4) && !p.inService (i - 4))
      else getB (p.reg offTruss) i := by
  simp only [Partition.readmit, hc, hr, Bool.not_true, Bool.or_self, Bool.false_eq_true, if_false, Partition.reg_setFld]
  rw [getB_setF _ _ _ (by decide) (by decide)]
  split
  next hi =>
    obtain ⟨t, rfl⟩ := Nat.exists_eq_add_of_le hi.1
    rw [Nat.add_sub_cancel_left, Nat.testBit_or, Nat.testBit_and, testBit_three_sub (getF_lt _ 1 0) (by omega),
      testBit_getF _ (by omega), testBit_getF _ (by omega), Nat.zero_add]
    rfl
  · rfl

/-- What the end of a test writes: `TESTING` cleared, the outcome's bit set and the other's cleared. -/
theorem Partition.reg_readmitDone (p : Partition) (t : Nat) (pass : Bool) : (p.readmitDone t pass).reg offTruss =
    if pass then setF (setF (setF (p.reg offTruss) (4 + t) (4 + t) 0) (6 + t) (6 + t) 0) (2 + t) (2 + t) 1
    else setF (setF (setF (p.reg offTruss) (4 + t) (4 + t) 0) (2 + t) (2 + t) 0) (6 + t) (6 + t) 1 := by
  cases pass
  · simp only [Partition.readmitDone, Bool.false_eq_true, if_false, Partition.reg_flag, Partition.reg_setFld]
  · have herase (q : Partition) (trusses : Table Truss) : ({ q with trusses := trusses } : Partition).reg offTruss = q.reg offTruss := rfl
    simp only [Partition.readmitDone, if_true, Partition.reg_flag, Partition.reg_setFld, herase]

theorem Partition.reg_readmitDone_other (p : Partition) (t : Nat) (pass : Bool) {off : Nat} (h : off ≠ offTruss) :
    (p.readmitDone t pass).reg off = p.reg off := by
  cases pass
  · simp only [Partition.readmitDone, Bool.false_eq_true, if_false, Partition.reg_flag_other _ _ _ h,
      Partition.reg_setFld_other _ _ _ _ _ h]
  · simp only [Partition.readmitDone, if_true, Partition.reg_flag_other _ _ _ h, Partition.reg_setFld_other _ _ _ _ _ h]
    exact Partition.reg_setFld_other _ _ _ _ _ h

theorem Partition.truss_readmitDone (p : Partition) (t : Nat) : (p.readmitDone t true).truss t = Truss.reset := by
  have hfind : Table.find t (Table.erase t p.trusses) = none := Table.find_erase_same t _
  simp [Partition.readmitDone, Partition.truss, Table.get, hfind]

/-- A written bit, and every other as it was. -/
theorem getB_setBit (r : Word) {j : Nat} (v i : Nat) (hj : j < 32) :
    getB (setF r j j v) i = if i = j then v.testBit 0 else getB r i := by
  rw [getB_setF _ _ _ (le_refl j) hj]
  by_cases h : i = j
  · simp [h]
  · rw [if_neg h, if_neg (by omega)]

/-- A test that has ended is no longer in progress, and its outcome is told. -/
theorem Partition.getB_readmitDone {t : Nat} (ht : t < 2) (pass : Bool) :
    getB ((p.readmitDone t pass).reg offTruss) (4 + t) = false ∧ getB ((p.readmitDone t pass).reg offTruss) (2 + t) = pass ∧
      getB ((p.readmitDone t pass).reg offTruss) (6 + t) = !pass := by
  have h2 (r : Word) (v i : Nat) := getB_setBit r v i (show 2 + t < 32 by omega)
  have h4 (r : Word) (v i : Nat) := getB_setBit r v i (show 4 + t < 32 by omega)
  have h6 (r : Word) (v i : Nat) := getB_setBit r v i (show 6 + t < 32 by omega)
  rw [Partition.reg_readmitDone]
  cases pass <;> simp [h2, h4, h6]

/-- The trusses that wait are in service once they have rejoined, and none waits. -/
theorem Partition.getB_rejoin {t : Nat} (ht : t < 2) :
    p.rejoin.inService t = (p.inService t || getB (p.reg offTruss) (2 + t)) ∧ getB (p.rejoin.reg offTruss) (2 + t) = false := by
  simp only [Partition.inService, Partition.rejoin, Partition.reg_setReg]
  refine ⟨?_, ?_⟩
  · rw [getB_setF _ _ _ (by decide) (by decide), if_neg (by omega), getB_setF _ _ _ (by decide) (by decide), if_pos (by omega),
      Nat.sub_zero, Nat.testBit_or, testBit_getF _ (by omega), testBit_getF _ (by omega), Nat.zero_add]
  · rw [getB_setF _ _ _ (by decide) (by decide), if_pos (by omega), Nat.zero_testBit]

end

/-- Settles O57. -/
theorem trusses : Obligations.Trusses := by
  unfold Obligations.Trusses
  refine ⟨fun s k t hl => ?error, fun s k mask hl hc hr => ?readmit, fun s f k mask hl hf => ?notPf,
    fun s k t pass hl htesting hpaused => ?tested, fun s k hon hsched hbound hstart => ?rejoin⟩
  case error => exact gives_of_molique hl (exec_trussInternalError k t s)
  case readmit =>
    have hgives := gives_of_host hl (exec_trussReadmit .pf k mask s)
    simp only [if_true] at hgives
    have hbits := fun i => Partition.getB_readmit hc hr mask.toNat i
    refine ⟨_, hgives, ?_⟩
    rw [Mod.part_modPart]
    refine ⟨fun t ht => ?_, fun i _ h4 h5 => ?_, fun off h => Partition.reg_readmit_other _ h,
      fun j hj => Mod.part_modPart_other _ hj _⟩
    · rw [hbits, if_pos (by omega), Nat.add_sub_cancel_left, bit_eq_testBit]
    · rw [hbits, if_neg (by omega)]
  case notPf =>
    have hgives := gives_of_host hl (exec_trussReadmit f k mask s)
    simpa only [hf, if_false] using hgives
  case tested =>
    have hgives := gives_of_molique hl (exec_readmitTestDone k t pass s)
    simp only [htesting, hpaused, Bool.not_false, Bool.and_self, if_true] at hgives
    refine ⟨_, hgives, ?_⟩
    rw [Mod.part_modPart]
    obtain ⟨htest, hpass, hfail⟩ := Partition.getB_readmitDone (p := s.mod.part k.val) t.isLt pass
    refine ⟨htest, hpass, hfail, fun h => ?_, fun off h => Partition.reg_readmitDone_other _ _ _ h,
      fun j hj => Mod.part_modPart_other _ hj _⟩
    subst h
    exact Partition.truss_readmitDone ..
  case rejoin =>
    have hgives := gives_of_act hon (exec_trussRejoin k s)
    simp only [hsched, hbound, hstart, Bool.and_self, if_true] at hgives
    refine ⟨_, hgives, ?_⟩
    rw [Mod.part_modPart]
    exact ⟨fun t ht => Partition.getB_rejoin ht, rfl, fun j hj => Mod.part_modPart_other _ hj _⟩

end Sys2Proof.Machine
end

section
/-!
PROOFS. The watchdogs (03 R91, 18 R398, R399, R416, R417).
-/

namespace Sys2Proof.Machine
open Claims

/-! ### The end of a raise, as it changes its partition (04 R111, R112) -/

section
variable (p : Partition) (c : Nat)

@[simp] theorem Partition.reg_setReg_iff (off o : Nat) (v : Word) : (p.setReg off v).reg o = if o = off then v else p.reg o := by
  split
  next h => rw [h, Partition.reg_setReg]
  next h => exact Partition.reg_setReg_other p h v

theorem Partition.ctx_modCtx_iff (d : Nat) (f : Context → Context) :
    (p.modCtx d f).ctx c = if c = d then f (p.ctx d) else p.ctx c := by
  split
  next h => rw [h, Partition.ctx_modCtx]
  next h => exact Partition.ctx_modCtx_other p h f

/-- A record changes registers and its context alone. -/
theorem Partition.pushRecord_eq (body : List Byte) (notify : Bool) :
    ∃ regs ctxs, p.pushRecord c body notify = { p with regs := regs, ctxs := ctxs } := by
  unfold Partition.pushRecord
  split
  · exact ⟨_, _, rfl⟩
  · split
    · exact ⟨p.regs, _, rfl⟩
    · exact ⟨_, _, rfl⟩

/-- A record changes the ring's pointer, or sets `CPL_LOST`. -/
theorem Partition.reg_pushRecord (body : List Byte) (notify : Bool) {off : Nat} (hptr : off ≠ offCplPtr c)
    (hstatus : off ≠ offEvtStatus) : (p.pushRecord c body notify).reg off = p.reg off := by
  unfold Partition.pushRecord
  split
  · exact Partition.reg_setFld_other _ _ _ _ _ hptr
  · split
    · rfl
    · exact Partition.reg_flag_other _ _ _ hstatus

theorem Context.landed_credit (x : Context) (q r : Nat) : ((x.credit q).queue r).landed = (x.queue r).landed := by
  by_cases h : r = q
  · subst h
    simp [Context.credit, Context.modQueue, Context.queue]
  · simp [Context.credit, Context.modQueue, Context.queue, Table.get_modify_other _ h]

/-- A record takes nothing from a queue. -/
theorem Partition.landed_pushRecord (body : List Byte) (notify : Bool) (d q : Nat) :
    (((p.pushRecord c body notify).ctx d).queue q).landed = ((p.ctx d).queue q).landed := by
  have hctx {f : Context → Context} (hf : ∀ x : Context, ((f x).queue q).landed = (x.queue q).landed) :
      (((p.modCtx c f).ctx d).queue q).landed = ((p.ctx d).queue q).landed := by
    rw [Partition.ctx_modCtx_iff]
    split
    next h => rw [hf, h]
    · rfl
  unfold Partition.pushRecord
  split
  · rw [Partition.cplPush, Partition.ctx_setFld]
    exact hctx fun _ => rfl
  · split
    · exact hctx fun _ => rfl
    · rw [Partition.ctx_flag]
      exact hctx fun x => x.landed_credit _ q

end

/-! ### A raise that ends without its signal -/

theorem Mod.waitMet_congr {m n : Mod} (hc : ∀ j, (n.part j).created = (m.part j).created)
    (ht : ∀ j, (n.part j).tenant = (m.part j).tenant) (he : ∀ j e, (n.part j).event e = (m.part j).event e) (k : Nat)
    (r : Raise) : n.waitMet k r = m.waitMet k r := by
  simp only [Mod.waitMet, Mod.sameTenant, Mod.exists?, hc, ht, he]

theorem Context.landed_mapLanded (x : Context) (f : Raise → Raise) (q : Nat) :
    ((x.mapLanded f).queue q).landed = (x.queue q).landed.map f := by
  have hfind := Table.find_mapValues q (fun _ (u : Queue) => { u with landed := u.landed.map f }) x.queues
  simp only [Context.queue, Context.mapLanded, Table.get, hfind]
  cases Table.find q x.queues <;> rfl

theorem Partition.landed_latched (p : Partition) (m : Mod) (k c q : Nat) :
    (((p.latched m k).ctx c).queue q).landed = ((p.ctx c).queue q).landed.map fun r => r.latch m k := by
  have hctx : (p.latched m k).ctx c = (p.ctx c).mapLanded fun r => r.latch m k := by
    have hfind := Table.find_mapValues c (fun _ (x : Context) => x.mapLanded fun r => r.latch m k) p.ctxs
    simp only [Partition.ctx, Partition.latched, Table.get, hfind]
    cases Table.find c p.ctxs <;> rfl
  rw [hctx, Context.landed_mapLanded]

/-- A change of one partition that leaves its tenant and its events. -/
theorem Mod.sees_modPart (m : Mod) (k : Nat) {f : Partition → Partition}
    (hf : ∀ p, (f p).created = p.created ∧ (f p).tenant = p.tenant ∧ ∀ e, (f p).event e = p.event e) (j : Nat) :
    ((m.modPart k f).part j).created = (m.part j).created ∧ ((m.modPart k f).part j).tenant = (m.part j).tenant ∧
      ∀ e, ((m.modPart k f).part j).event e = (m.part j).event e := by
  by_cases h : j = k
  · subst h
    rw [Mod.part_modPart]
    exact hf _
  · rw [Mod.part_modPart_other _ h]
    exact ⟨rfl, rfl, fun _ => rfl⟩

/-- The partition of a raise that ends in error: one more raise done, the waits that are met, and its record. -/
theorem Mod.part_complete_error (m : Mod) (k c : Nat) (r : Raise) {status : Nat} (hok : status ≠ stOk)
    (hgs : status ≠ stGuaranteeSuspended) (detail : Nat) : ∃ n body, (∀ i x, n.waitMet i x = m.waitMet i x) ∧
      (m.complete k c r status detail).part k =
        ((((m.part k).setReg (offQdDone c r.q) ((m.part k).reg (offQdDone c r.q) + 1)).latched n k).pushRecord c body r.notify) := by
  have hsees := m.sees_modPart k (f := fun p => p.setReg (offQdDone c r.q) (p.reg (offQdDone c r.q) + 1))
    fun p => ⟨rfl, rfl, fun e => rfl⟩
  refine ⟨m.modPart k fun p => p.setReg (offQdDone c r.q) (p.reg (offQdDone c r.q) + 1),
    cplRecord r m.devtime status detail,
    Mod.waitMet_congr (fun j => (hsees j).1) (fun j => (hsees j).2.1) (fun j => (hsees j).2.2), ?_⟩
  simp [Mod.complete, Mod.completeAll, Ending.signal, hok, hgs, Mod.signals_eq, Mod.part_pushRecord]
  rfl

theorem Mod.part_releaseResv (m : Mod) (k c q : Nat) :
    ∃ resvs, (m.releaseResv k c q).part k = { m.part k with resvs := resvs } := by
  unfold Mod.releaseResv
  dsimp only
  split
  · split
    next i r _ _ => exact ⟨_, m.part_modPart k fun p => { p with resvs := Table.erase i p.resvs }⟩
    · exact ⟨_, rfl⟩
  · exact ⟨_, rfl⟩

/-! ### WAIT_WATCHDOG (18 R399) -/

/-- The raise whose wait ends first, looked for from the first raise to the last. -/
theorem least_wait {f : Option Raise → Raise → Option Raise} (hnone : ∀ r, f none r = some r)
    (hsome : ∀ b r, f (some b) r = if r.waitEnds < b.waitEnds then some r else some b) {rs : List Raise} {r : Raise}
    (h : rs.foldl f none = some r) : r ∈ rs ∧ ∀ x ∈ rs, r.waitEnds ≤ x.waitEnds := by
  have hfrom (rs : List Raise) (b : Raise) (h : rs.foldl f (some b) = some r) :
      r ∈ b :: rs ∧ ∀ x ∈ b :: rs, r.waitEnds ≤ x.waitEnds := by
    induction rs generalizing b with
    | nil =>
      obtain rfl : b = r := by simpa using h
      simp
    | cons x xs ih =>
      rw [List.foldl_cons, hsome] at h
      split at h
      next hlt =>
        obtain ⟨hmem, hle⟩ := ih x h
        have hx := hle x (List.mem_cons_self ..)
        exact ⟨List.mem_cons_of_mem _ hmem, List.forall_mem_cons.mpr ⟨by omega, hle⟩⟩
      next hge =>
        obtain ⟨hmem, hle⟩ := ih b h
        obtain ⟨hb, hxs⟩ := List.forall_mem_cons.mp hle
        refine ⟨?_, List.forall_mem_cons.mpr ⟨hb, List.forall_mem_cons.mpr ⟨by omega, hxs⟩⟩⟩
        rcases List.mem_cons.mp hmem with rfl | hmem
        · exact List.mem_cons_self ..
        · exact List.mem_cons_of_mem _ (List.mem_cons_of_mem _ hmem)
  cases rs with
  | nil => simp at h
  | cons x xs =>
    rw [List.foldl_cons, hnone] at h
    exact hfrom xs x h

theorem Mod.waitingRaise_some {m : Mod} {k c q : Nat} {r : Raise} (h : m.waitingRaise k c q = some r) :
    r ∈ (((m.part k).ctx c).queue q).landed ∧ r.waits = true ∧ r.waitMs ≠ 0 ∧
      ∀ x ∈ (((m.part k).ctx c).queue q).landed, x.waits = true → x.waitMs ≠ 0 → r.waitEnds ≤ x.waitEnds := by
  obtain ⟨hmem, hle⟩ := least_wait (fun _ => rfl) (fun _ _ => rfl) h
  simp only [List.mem_filter, Bool.and_eq_true, bne_iff_ne, ne_eq] at hmem hle
  exact ⟨hmem.1, hmem.2.1, hmem.2.2, fun x hx hw hms => hle x ⟨hx, hw, hms⟩⟩

/-- A mark of the watchdogs sets its bit. -/
theorem Partition.getB_wdogMark (p : Partition) {i : Nat} (h : i < 32) (h15 : 15 < i) (n : Nat) :
    getB ((p.wdogMark i n).reg offWdogStatus) i = true := by
  rw [Partition.wdogMark, Partition.count, Partition.reg_setReg, satIncF, getB_setF_other _ _ _ _ _ (by decide) (by decide)
    (by omega)]
  exact p.getB_flag_same _ h

/-- A partition with the raise of a wait that ended gone from its queue and its watchdog marked. -/
def Partition.waitOut (p : Partition) (c q : Nat) (r : Raise) : Partition :=
  (p.modCtx c fun x => x.modQueue q fun u => { u with landed := u.landed.erase r }).wdogMark 31 1

section
variable (p : Partition) (c q : Nat) (r : Raise)

theorem Partition.landed_waitOut (off : Nat) (v : Word) :
    ((((p.waitOut c q r).setReg off v).ctx c).queue q).landed = ((p.ctx c).queue q).landed.erase r := by
  have hctx : ((p.waitOut c q r).setReg off v).ctx c =
      (p.ctx c).modQueue q fun u => { u with landed := u.landed.erase r } :=
    p.ctx_modCtx c fun x => x.modQueue q fun u => { u with landed := u.landed.erase r }
  rw [hctx, Context.queue_modQueue]

end

/-- The raise whose wait ended has left its queue, its watchdog's bit is set, and memory and events stand. -/
theorem Mod.part_waitWatchdog {m : Mod} {k c q : Nat} {r : Raise} (hrun : m.running = true)
    (hreset : (m.part k).underReset = false) (hr : m.waitingRaise k c q = some r) :
    getB (((m.waitWatchdog k c q).part k).reg offWdogStatus) 31 = true ∧
      ((((m.waitWatchdog k c q).part k).ctx c).queue q).landed =
        ((((m.part k).ctx c).queue q).landed.erase r).map (fun x => x.latch m k) ∧
      ((m.waitWatchdog k c q).part k).near = (m.part k).near ∧
      ((m.waitWatchdog k c q).part k).events = (m.part k).events := by
  have heq : m.waitWatchdog k c q =
      ((m.modPart k fun p => p.waitOut c q r).complete k c r stTimeout 1).releaseResv k c q := by
    simp [Mod.waitWatchdog, hrun, hreset, hr, Partition.waitOut]
  have hsees := m.sees_modPart k (f := fun p => p.waitOut c q r) fun p => ⟨rfl, rfl, fun e => rfl⟩
  have hpart₁ := m.part_modPart k fun p => p.waitOut c q r
  generalize m.modPart k (fun p => p.waitOut c q r) = m₁ at heq hsees hpart₁
  have hmet₁ := Mod.waitMet_congr (fun j => (hsees j).1) (fun j => (hsees j).2.1) (fun j => (hsees j).2.2)
  obtain ⟨n, body, hmet, hpart⟩ := m₁.part_complete_error k c r (status := stTimeout) (by decide) (by decide) 1
  obtain ⟨resvs, hrelease⟩ := (m₁.complete k c r stTimeout 1).part_releaseResv k c q
  have hlatch : (fun x : Raise => x.latch n k) = fun x => x.latch m k := by
    funext x
    rw [Raise.latch, Raise.latch, hmet, hmet₁]
  rw [hpart₁] at hpart
  generalize ((m.part k).waitOut c q r).reg (offQdDone c r.q) + 1 = done at hpart
  obtain ⟨regs, ctxs, hpush⟩ :=
    ((((m.part k).waitOut c q r).setReg (offQdDone c r.q) done).latched n k).pushRecord_eq c body r.notify
  rw [heq, hrelease, hpart]
  refine ⟨?_, ?_, ?_, ?_⟩
  · change getB ((Partition.pushRecord _ c body r.notify).reg offWdogStatus) 31 = true
    rw [Partition.reg_pushRecord _ _ _ _ (by simp only [offWdogStatus, offCplPtr]; omega) (by decide), Partition.reg_latched,
      Partition.reg_setReg_other _ (by simp only [offWdogStatus, offQdDone]; omega)]
    exact Partition.getB_wdogMark _ (by decide) (by decide) 1
  · change (((Partition.pushRecord _ c body r.notify).ctx c).queue q).landed = _
    rw [Partition.landed_pushRecord, Partition.landed_latched, hlatch, Partition.landed_waitOut]
  · rw [hpush]; rfl
  · rw [hpush]; rfl

/-! ### LINK_WATCHDOG (18 R399): the run whose raise ends -/

@[simp] theorem Mod.ctx_modRun (m : Mod) (k c : Nat) (f : Run → Run) :
    ((m.modRun k c f).part k).ctx c = { (m.part k).ctx c with run := ((m.part k).ctx c).run.map f } := by
  simp [Mod.modRun, Mod.modCtx]

@[simp] theorem Mod.ctx_markRun (m : Mod) (k c status detail : Nat) :
    ((m.markRun k c status detail).part k).ctx c = { (m.part k).ctx c with
      run := ((m.part k).ctx c).run.map fun u => { u with ending := worseEnding u.ending (status, detail) } } := by
  simp [Mod.markRun, Mod.modCtx]

theorem Mod.nodeAt_some {m : Mod} {k c node member : Nat} {u : Run} {img : List Byte} {mb : Member}
    (h : m.nodeAt k c node member = some (u, img, mb)) : (m.part k).underReset = false ∧ m.running = true ∧
      ((m.part k).ctx c).run = some u ∧ img = ((m.part k).ctx c).image u ∧ u.members[member]? = some mb ∧
      u.phase node member = some .running := by
  unfold Mod.nodeAt at h
  grind

/-- No node of a link unit runs once their work has ended. -/
theorem Run.nodes_endLinks (u : Run) (img : List Byte) :
    ∀ e ∈ (u.endLinks img).nodes, nodeUnit img (e.1 / 64) = 4 → e.2 ≠ .running := by
  intro e he hunit
  obtain ⟨y, -, rfl⟩ := List.mem_map.mp he
  split
  · simp
  next h =>
    rw [if_neg h] at hunit
    exact fun hrun => h ⟨hunit, hrun⟩

/-! ### The bay controller's watchdog (18 R398) -/

/-- What a reset's first phase leaves of a module: the heartbeats, and of every partition whether it exists and is under
reset, but for the one that is reset. -/
def Mod.stands (m : Mod) : Table Dword × (Nat → Bool × Bool) :=
  (m.beats, fun j => ((m.part j).created, (m.part j).underReset))

section
variable (m : Mod) (k c : Nat)

theorem Mod.stands_of_parts {m n : Mod} (hb : n.beats = m.beats) (hp : n.parts = m.parts) : n.stands = m.stands := by
  simp only [Mod.stands, Mod.part, hb, hp]

theorem Mod.stands_modPart {f : Partition → Partition}
    (hf : ∀ p, (f p).created = p.created ∧ (f p).underReset = p.underReset) : (m.modPart k f).stands = m.stands := by
  refine Prod.ext rfl (funext fun j => ?_)
  by_cases h : j = k
  · subst h
    simp [Mod.stands, hf]
  · simp [Mod.stands, Mod.part_modPart_other _ h]

@[simp] theorem Mod.stands_modCtx (f : Context → Context) : (m.modCtx k c f).stands = m.stands :=
  m.stands_modPart k fun _ => ⟨rfl, rfl⟩

@[simp] theorem Mod.stands_msix (f : Fn) (v : Nat) : (m.msix f v).stands = m.stands := by
  obtain ⟨out, pcie, h⟩ := m.msix_eq f v
  rw [h]
  rfl

@[simp] theorem Mod.stands_forAll {α : Type} {f : Mod → α → Mod} (h : ∀ m x, (f m x).stands = m.stands) (xs : List α) :
    (m.forAll f xs).stands = m.stands :=
  Mod.forAll_keeps (P := fun n => n.stands = m.stands) (fun n x hn => (h n x).trans hn) xs m rfl

theorem Mod.stands_signals (xs : List Signal) : (m.signals xs).stands = m.stands := by
  have hsignals : (m.forAll (Mod.signalOne m) xs).stands = m.stands := by
    refine Mod.stands_forAll _ (fun n x => n.stands_modPart _ fun p => ?_) _
    split
    · unfold Partition.signalFrom
      split <;> exact ⟨rfl, rfl⟩
    · exact ⟨rfl, rfl⟩
  rw [Mod.signals_eq, ← hsignals]
  refine Prod.ext rfl (funext fun j => ?_)
  simp only [Mod.stands, Mod.part_latchWaits]
  rfl

theorem Mod.stands_pushRecord (body : List Byte) (notify : Bool) : (m.pushRecord k c body notify).stands = m.stands := by
  unfold Mod.pushRecord
  dsimp only
  split
  · have hpush := m.stands_modPart k (f := fun p => p.cplPush c body) fun _ => ⟨rfl, rfl⟩
    split
    · exact (Mod.stands_msix ..).trans hpush
    · exact hpush
  · split
    · exact Mod.stands_modCtx ..
    · exact m.stands_modPart k fun _ => ⟨rfl, rfl⟩

theorem Mod.stands_complete (r : Raise) (status detail : Nat) : (m.complete k c r status detail).stands = m.stands := by
  unfold Mod.complete Mod.completeAll
  exact (Mod.stands_forAll _ (fun n _ => n.stands_pushRecord ..) _).trans
    ((Mod.stands_signals ..).trans (m.stands_modPart k fun _ => ⟨rfl, rfl⟩))

theorem Mod.stands_releaseResv (q : Nat) : (m.releaseResv k c q).stands = m.stands := by
  unfold Mod.releaseResv
  dsimp only
  split
  next i r _ =>
    split
    · exact m.stands_modPart k (f := fun p => { p with resvs := Table.erase i p.resvs }) fun _ => ⟨rfl, rfl⟩
    · rfl
  · rfl

theorem Mod.stands_endWaiters : (m.endWaiters k).stands = m.stands := by
  refine Mod.stands_forAll _ (fun n j => Mod.stands_forAll _ (fun n e => Mod.stands_forAll _ (fun n q => ?_) _) _) _
  exact (Mod.stands_releaseResv ..).trans
    ((Mod.stands_forAll _ (fun n _ => n.stands_complete ..) _).trans (Mod.stands_modCtx ..))

theorem Mod.stands_apAbandon : (m.apAbandon k).stands = m.stands := by
  unfold Mod.apAbandon
  extract_lets reads n
  have hn : n.stands = m.stands := by
    unfold n
    split <;> rfl
  exact (n.stands_modPart k (f := fun p => { p with apQueue := [] }) fun _ => ⟨rfl, rfl⟩).trans hn

theorem Partition.underReset_joinReset (p : Partition) : p.joinReset.underReset = p.underReset ∧
    p.joinReset.created = p.created := by
  unfold Partition.joinReset
  split
  next h => exact ⟨rfl, rfl⟩
  next z h => simp [Partition.underReset, h]

/-- The start of a reset puts its partition, where it exists, under reset, and leaves the others' state of reset. -/
theorem Mod.stands_startReset (cause cdetail : Nat) : (m.startReset k cause cdetail).stands =
    (m.beats, fun j => ((m.part j).created, (m.part j).underReset || (decide (j = k) && (m.part k).created))) := by
  unfold Mod.startReset
  extract_lets p z n
  split
  next h =>
    have hc : (m.part k).created = false := by simpa [p] using h
    simp [Mod.stands, hc]
  next h =>
    have hc : (m.part k).created = true := by simpa [p] using h
    split
    next hreset =>
      rw [m.stands_modPart k fun q => ⟨q.underReset_joinReset.2, q.underReset_joinReset.1⟩]
      refine Prod.ext rfl (funext fun j => ?_)
      by_cases hj : j = k
      · subst hj
        simp [Mod.stands, show (m.part j).underReset = true from hreset]
      · simp [Mod.stands, hj]
    next =>
      rw [Mod.msixPart, Mod.stands_msix, Mod.stands_endWaiters, Mod.stands_apAbandon]
      refine Prod.ext rfl (funext fun j => ?_)
      by_cases hj : j = k
      · subst hj
        simp [Mod.stands, n, hc, Partition.underReset, Partition.setFld, Partition.setReg]
      · simp [Mod.stands, n, hj, Mod.part_modPart_other _ hj]

end

/-- Once each of the partitions `ks` has begun its reset, all that exist are under reset. -/
theorem Mod.underReset_startResets (m : Mod) (cause cdetail : Nat) {ks : List Nat} :
    (m.forAll (fun m k => m.startReset k cause cdetail) ks).beats = m.beats ∧
      ∀ j, ((m.forAll (fun m k => m.startReset k cause cdetail) ks).part j).underReset =
        ((m.part j).underReset || (decide (j ∈ ks) && (m.part j).created)) := by
  induction ks generalizing m with
  | nil => simp
  | cons k ks ih =>
    obtain ⟨hb, hr⟩ := ih (m.startReset k cause cdetail)
    have hstands := m.stands_startReset k cause cdetail
    have hbeats : (m.startReset k cause cdetail).beats = m.beats := congrArg Prod.fst hstands
    have hpart (j : Nat) := congrFun (congrArg Prod.snd hstands) j
    rw [Mod.forAll_cons]
    refine ⟨hb.trans hbeats, fun j => ?_⟩
    have hj := hpart j
    simp only [Mod.stands, Prod.mk.injEq] at hj
    rw [hr, hj.1, hj.2]
    by_cases hjk : j = k
    · subst hjk
      cases (m.part j).created <;> simp
    · simp [hjk]

@[simp] theorem Mod.modRecords_msix (m : Mod) (f : Fn) (v : Nat) : (m.msix f v).modRecords = m.modRecords := by
  obtain ⟨out, pcie, h⟩ := m.msix_eq f v
  rw [h]

/-- The bay controller's watchdog: one module record, and a reset of every partition of the bay (18 R398, R417). -/
theorem Mod.bayWatchdog_spec {m : Mod} {b : Nat} (hlate : (Table.get (0 : Dword) b m.beats).toNat + 1000000 ≤ m.devtime.toNat) :
    (m.bayWatchdog b).modRecords.length = min 16 (m.modRecords.length + 1) ∧
      (∀ k, k < 64 → k / 16 = b → m.exists? k = true → ((m.bayWatchdog b).part k).underReset = true) ∧
      Table.find b (m.bayWatchdog b).beats = some m.devtime := by
  have hlate : ¬ m.devtime.toNat < (Table.get 0 b m.beats).toNat + 1000000 := by omega
  unfold Mod.bayWatchdog
  rw [if_neg hlate]
  extract_lets ks n₁ n₂
  have hstands : n₂.stands = n₁.stands := Mod.stands_msix ..
  have hrecords : n₂.modRecords.length = min 16 (m.modRecords.length + 1) := by
    simp [n₂, n₁, Mod.moduleRecord, Mod.send]
    omega
  obtain ⟨hbeats, hreset⟩ := n₂.underReset_startResets 6 b (ks := ks)
  refine ⟨?_, fun k hk hb hc => ?_, ?_⟩
  · have hfigures := Mod.figures_forAll (f := fun m k => m.startReset k 6 b) (fun n k => n.figures_startReset k 6 b) ks n₂
    rw [← hrecords]
    exact congrArg (fun x => x.2.2.2.2.2.2.1) hfigures
  · have hcreated : (n₂.part k).created = (m.part k).created :=
      congrArg Prod.fst (congrFun (congrArg Prod.snd hstands) k)
    have hmem : k ∈ ks := by
      simp [ks, Mod.bayParts, allParts, hk, hb]
      exact hc
    rw [hreset, hcreated, show (m.part k).created = true from hc]
    simp [hmem]
  · rw [hbeats, show n₂.beats = n₁.beats from congrArg Prod.fst hstands]
    exact Table.find_set_same ..

/-! ### The chip controller's watchdog (18 R416) -/

theorem Mod.setStage_eq (m : Mod) (stage : Nat) :
    ∃ out pcie, m.setStage stage = { m with boot := { m.boot with stage := stage }, out := out, pcie := pcie } := by
  unfold Mod.setStage
  split
  next h =>
    subst h
    exact ⟨m.out, m.pcie, rfl⟩
  · obtain ⟨out, pcie, h⟩ := Mod.msix_eq { m with boot := { m.boot with stage := stage } } .pf 3
    rw [h]
    exact ⟨out, pcie, rfl⟩

/-- A link without a live lane is down. -/
theorem Mod.linkUp_dead {m : Mod} {links : Table Link}
    (h : m.links = links.map fun (e : Nat × Link) => (e.1, { e.2 with live := 0, standby := 0 })) (n : Nat) :
    m.linkUp n = false := by
  have hfind := Table.find_mapValues n (fun _ (l : Link) => { l with live := 0, standby := 0 }) links
  have hlive : (m.link n).live = 0 := by
    simp only [Mod.link, Table.get, h, hfind]
    cases Table.find n links <;> rfl
  simp [Mod.linkUp, hlive]

theorem Mod.moduleFails_spec (m : Mod) : m.moduleFails.boot.stage = 15 ∧ m.moduleFails.parts = m.parts ∧
    ∀ n, m.moduleFails.linkUp n = false := by
  unfold Mod.moduleFails
  extract_lets n₁ n₂
  have hparts : n₁.parts = m.parts :=
    Mod.forAll_keeps (P := fun n => n.parts = m.parts) (fun n e hn => Mod.forAll_keeps
      (P := fun n => n.parts = m.parts) (fun n lane hn => by split <;> exact hn) _ n hn) _ m rfl
  obtain ⟨out, pcie, h⟩ := n₂.mute.setStage_eq 0xF
  rw [h]
  exact ⟨rfl, hparts, Mod.linkUp_dead (links := n₁.links) rfl⟩

/-! ### The watchdogs -/

theorem Mod.waitWatchdog_none {m : Mod} {k c q : Nat} (h : m.waitingRaise k c q = none) : m.waitWatchdog k c q = m := by
  simp [Mod.waitWatchdog, h]

theorem Mod.linkWatchdog_spec {m : Mod} {k c node member : Nat} {u : Run} {img : List Byte} {mb : Member}
    (h : m.nodeAt k c node member = some (u, img, mb)) : m.linkWatchdog k c node member =
      if u.watched node member then
        ((m.modPart k fun p => p.wdogMark 30 u.members.length).markRun k c stTimeout (0x5000 + node)).modRun k c
          fun u => u.endLinks img
      else m := by
  rw [Mod.linkWatchdog, h]

theorem Mod.run_linkWatchdog {m : Mod} {k c : Nat} {u : Run} (h : ((m.part k).ctx c).run = some u) (n node : Nat)
    (img : List Byte) :
    (((((m.modPart k fun p => p.wdogMark 30 n).markRun k c stTimeout (0x5000 + node)).modRun k c
      fun u => u.endLinks img).part k).ctx c).run =
      some ({ u with ending := worseEnding u.ending (stTimeout, 0x5000 + node) }.endLinks img) := by
  have hctx : ((m.part k).wdogMark 30 n).ctx c = (m.part k).ctx c := rfl
  simp [hctx, h]

/-- Settles O55: each watchdog by what its operation leaves of the module. -/
theorem watchdogs : Obligations.Watchdogs := by
  refine ⟨fun s k c q hl hreset => ⟨fun r hr => ?_, fun hr => ?_⟩, fun s k c node member u img mb hon hat => ⟨fun hw => ?_, fun hw => ?_⟩,
    fun s k c node member u img mb p hon hat hunit hguar hvoid hawaits hpath => ⟨fun hf => ?_, fun hf => ?_⟩,
    fun m k c obj i r v hguar hvoid hresv => ?_, fun s k c node member u img mb hl hat hunit => ?_,
    fun s b hl => gives_of_molique hl (exec_bayAgentHeartbeat b s), fun s b hl hlate => ?_, fun s hl => ?_⟩
  · obtain ⟨hmem, hwaits, hms, hleast⟩ := Mod.waitingRaise_some hr
    obtain ⟨hflag, hlanded, hnear, hevents⟩ := Mod.part_waitWatchdog hl.2 hreset hr
    exact ⟨hmem, hwaits, hms, hleast, _, gives_of_act hl.1 (exec_waitWatchdog k c q s), hflag, hlanded, hnear, hevents⟩
  · have hgives := gives_of_act hl.1 (exec_waitWatchdog k c q s)
    rwa [Mod.waitWatchdog_none hr] at hgives
  · obtain ⟨-, -, hrun, -⟩ := Mod.nodeAt_some hat
    have hgives := gives_of_act hon (exec_linkWatchdog k c node member s)
    rw [Mod.linkWatchdog_spec hat, if_pos hw] at hgives
    exact ⟨hgives, _, Mod.run_linkWatchdog hrun .., rfl, rfl, Run.nodes_endLinks _ img⟩
  · have hgives := gives_of_act hon (exec_linkWatchdog k c node member s)
    rwa [Mod.linkWatchdog_spec hat, if_neg (by simp [hw])] at hgives
  · have hgives := gives_of_act hon (exec_peerLateTimeout k c node member s)
    simpa [Mod.peerLate, hat, hunit, hguar, hvoid, hawaits, hpath, hf] using hgives
  · have hgives := gives_of_act hon (exec_peerLateTimeout k c node member s)
    simpa [Mod.peerLate, hat, hf] using hgives
  · simp [Mod.voidOwn, hresv, hguar, hvoid]
  · have hgives := gives_of_act hl.1 (exec_nodeProgressWatchdog k c node member s)
    simpa [Mod.nodeHang, hat, hunit, hl.2] using hgives
  · obtain ⟨hrecords, hreset, hbeats⟩ := Mod.bayWatchdog_spec hlate
    exact ⟨_, gives_of_molique hl (exec_bayControllerWatchdog b s), hrecords, hreset, hbeats⟩
  · obtain ⟨hstage, hparts, hdown⟩ := s.mod.moduleFails_spec
    exact ⟨_, gives_of_molique hl (exec_chipControllerWatchdog s), hstage, by simp [Mod.running, hstage], hparts, hdown⟩

end Sys2Proof.Machine
end

section
/-!
PROOFS. The power pins, the input protections and PERST (19 R423, 02 R69).
-/

namespace Sys2Proof.Machine
open Claims

theorem gives_of_actAlways {c : Instr} {s : State} {f : Mod → Mod} (hc : exec c s = s.actAlways f) : Gives c s (f s.mod) := hc

/-- What stands once the module's power is gone (19 R423). -/
theorem Mod.powerDown_spec (m : Mod) (en latched : Bool) :
    (m.powerDown en latched).power = { pwrEn := en, pgOut := false, thermtripN := true, latched := latched } ∧
      (m.powerDown en latched).parts = [] ∧ (m.powerDown en latched).keys = [] ∧ (m.powerDown en latched).chip = [] ∧
      (m.powerDown en latched).mbx = [] ∧ (m.powerDown en latched).out = m.out ++ [.pin "PG_OUT" false] :=
  ⟨rfl, rfl, rfl, rfl, rfl, rfl⟩

/-- Settles O8: by case on the pin, the protection or PERST. -/
theorem powerCommands : Obligations.PowerCommands := by
  refine ⟨fun s rise mv low hoff hlatch hen hlow hhigh => ?_, fun c s en latch hon hc => ?_, fun s hon => ?_⟩
  · refine ⟨s.mod.powerUp mv, ?_, rfl, rfl, rfl, rfl, rfl, rfl, rfl, rfl, rfl⟩
    have hgives := gives_of_actAlways (exec_powerEnable rise mv low s)
    have henabled : s.mod.powerEnable rise mv low = s.mod.powerUp mv := by
      have hl : (s.mod.power.latched && !(rise && decide (10000000 ≤ low))) = false := by
        rcases hlatch with h | ⟨h, hlong⟩
        · rw [h, Bool.false_and]
        · simp [h, hlong]
      have he : (s.mod.power.pwrEn || rise) = true := by simpa using hen
      rw [Mod.powerEnable, hl, he, hoff]
      simp [hlow, hhigh]
      rfl
    rwa [henabled] at hgives
  · refine ⟨s.mod.powerDown en latch, ?_, s.mod.powerDown_spec en latch⟩
    rcases hc with ⟨rf, rfl, rfl, rfl⟩ | ⟨mv, rfl, hmv, rfl, rfl⟩ | ⟨mv, rfl, hmv, rfl, rfl⟩ | ⟨a, rfl, ha, rfl, rfl⟩
    · have hgives := gives_of_actAlways (exec_powerDisable en s)
      rwa [if_pos (show s.mod.power.pgOut = true from hon)] at hgives
    · have hgives := gives_of_act hon (exec_inputOvervoltage mv s)
      rwa [if_pos hmv] at hgives
    · have hgives := gives_of_act hon (exec_inputUndervoltageTimeout mv s)
      rwa [if_pos hmv] at hgives
    · have hgives := gives_of_act hon (exec_inputOvercurrentTimeout a s)
      rwa [if_pos ha] at hgives
  · have hgives := gives_of_act hon (exec_perst s)
    refine ⟨_, hgives, ?_⟩
    split <;> exact ⟨rfl, rfl, rfl, rfl, rfl, rfl⟩

end Sys2Proof.Machine
end

section
/-!
PROOFS. Rows of the mailbox at their turn, boot stages and image loads (02 R59, R63 to R66).
-/

namespace Sys2Proof.Machine
open Claims

/-! ### Mailbox rows (02 R59, R60) -/

theorem Mod.supersedeBy_of_none {m : Mod} {mg : Request} (h : ∀ x ∈ m.taken, supersedes mg x = none) : m.supersedeBy mg = m := by
  have hone (xs : List Request) (hxs : ∀ x ∈ xs, supersedes mg x = none) : xs.foldl (Mod.supersedeOne mg) m = m := by
    induction xs with
    | nil => rfl
    | cons x xs ih =>
      obtain ⟨hx, hrest⟩ := List.forall_mem_cons.mp hxs
      rw [List.foldl_cons, show Mod.supersedeOne mg m x = m by rw [Mod.supersedeOne, hx], ih hrest]
  exact hone m.taken h

section
variable {s : State} {r : Request} {rest : List Request} {f : Fn} {op : Nat} {sub : Request → Bool} {act : Mod → Request → Mod}
  (ht : Turn s r rest) (hf : r.fn = f) (hop : r.opcode = op) (hsub : sub r = true)
include ht hf hop hsub

/-- A row whose turn has come runs its operation, where that leaves the requests that wait. -/
theorem Mod.mbxRow_of_turn (htaken : (act (turned s rest) r).taken = rest) :
    s.mod.mbxRow f op sub act = act (turned s rest) r := by
  obtain ⟨-, hfront, horphan, hblocks, hnone⟩ := ht
  have hrow : s.mod.mbxRow f op sub act = (act (turned s rest) r).supersedeBy r := by
    simp only [Mod.mbxRow, hfront, hf, hop, hsub, and_self, if_true]
    rw [show ({ s.mod with taken := rest } : Mod) = turned s rest from rfl, horphan, hblocks]
    rfl
  rw [hrow, Mod.supersedeBy_of_none (by rwa [htaken])]

theorem gives_of_turn {c : Instr} (hc : exec c s = s.act fun m => m.mbxRow f op sub act)
    (htaken : (act (turned s rest) r).taken = rest) : Gives c s (act (turned s rest) r) :=
  Mod.mbxRow_of_turn ht hf hop hsub htaken ▸ gives_of_act ht.1 hc

theorem gives_of_turn_figures {c : Instr} (hc : exec c s = s.act fun m => m.mbxRow f op sub act)
    (hact : (act (turned s rest) r).figures = (turned s rest).figures) : Gives c s (act (turned s rest) r) :=
  gives_of_turn ht hf hop hsub hc (Mod.taken_of_figures hact)

end

/-! ### Boot stages -/

section
variable (m : Mod)

theorem Mod.stage_setStage (stage : Nat) : (m.setStage stage).boot = { m.boot with stage := stage } := by
  obtain ⟨out, pcie, h⟩ := m.setStage_eq stage
  rw [h]

@[simp] theorem Mod.taken_setStage (stage : Nat) : (m.setStage stage).taken = m.taken := by
  obtain ⟨out, pcie, h⟩ := m.setStage_eq stage
  rw [h]

@[simp] theorem Mod.acting_setStage (stage : Nat) : (m.setStage stage).acting = m.acting := by
  obtain ⟨out, pcie, h⟩ := m.setStage_eq stage
  rw [h]

@[simp] theorem Mod.fwLoad_setStage (stage : Nat) : (m.setStage stage).fwLoad = m.fwLoad := by
  obtain ⟨out, pcie, h⟩ := m.setStage_eq stage
  rw [h]

@[simp] theorem Mod.fw_setStage (stage : Nat) : (m.setStage stage).fw = m.fw := by
  obtain ⟨out, pcie, h⟩ := m.setStage_eq stage
  rw [h]

theorem Mod.boot_bistResult (failed : List Nat) : (m.bistResult failed).boot = m.boot := by
  unfold Mod.bistResult
  refine Mod.forAll_keeps (P := fun n => n.boot = m.boot) (fun n k hn => ?_) _ m rfl
  rwa [Mod.boot_modPart]

/-- The next boot stage, with the failures of this one counted and its training noted (02 R63, R64). -/
theorem Mod.boot_stageComplete {failed : List Nat} (hstage : m.boot.stage < 6) (hpause : ¬ (m.boot.stage = 5 ∧ m.boot.paused = true)) :
    ∃ nearFailed extFailed, (m.stageComplete failed).boot = { m.boot with
      stage := m.boot.stage + 1
      failCnt := min (m.boot.failCnt + (dedup (failed.filter fun i => decide (i < stageItems m.boot.stage))).length) 0xFFFF
      nearTrained := m.boot.nearTrained || m.boot.stage == 2, extTrained := m.boot.extTrained || m.boot.stage == 3
      nearFailed := nearFailed, extFailed := extFailed } := by
  unfold Mod.stageComplete
  extract_lets s bad boot m₁ m₂ m₃
  rw [if_neg (by rintro (h | h); exacts [absurd h (by omega), hpause h])]
  have h₂ : m₂.boot = m₁.boot := by
    unfold m₂
    split <;> rfl
  have h₃ : m₃.boot = m₁.boot := by
    unfold m₃
    split
    · exact (m₂.boot_bistResult bad).trans h₂
    · exact h₂
  rw [Mod.stage_setStage, h₃]
  exact ⟨_, _, rfl⟩

end

/-! ### The limits of the self-test (02 R64) -/

theorem hottest_lt {r : Readings} {c : Int} (hc : 0 < c) (h : ∀ x ∈ r.die, x < c) : hottest r < c := by
  have hfold (ds : List Int) (d : Int) (hd : d < c) (hds : ∀ x ∈ ds, x < c) : ds.foldl max d < c := by
    induction ds generalizing d with
    | nil => exact hd
    | cons x xs ih =>
      obtain ⟨hx, hxs⟩ := List.forall_mem_cons.mp hds
      exact ih _ (max_lt hd hx) hxs
  unfold hottest
  split
  · exact hc
  next d ds hdie =>
    rw [hdie] at h
    obtain ⟨hd, hds⟩ := List.forall_mem_cons.mp h
    exact hfold ds d hd hds

/-- A die at most as hot as `t` everywhere reads at most `t`. -/
theorem hottest_withHottest {t c : Int} (hc : 0 < c) (ht : t < c) (r : Readings) : hottest (withHottest r t) < c := by
  refine hottest_lt hc fun x hx => ?_
  rcases List.mem_or_eq_of_mem_set hx with hx | rfl
  · obtain ⟨y, -, rfl⟩ := List.mem_map.mp hx
    exact lt_of_le_of_lt (min_le_left ..) ht
  · exact ht

/-! ### Image loads (02 R65, R66) -/

section
variable (m : Mod) (r : Request) (status detail : Nat) (payload : List Byte)

theorem Mod.boot_respond : (m.respond r status detail payload).boot = m.boot := by
  obtain ⟨out, pcie, mbx, mgmtBusy, h⟩ := m.respond_eq r status detail payload
  rw [h]

theorem Mod.fwLoad_respond : (m.respond r status detail payload).fwLoad = m.fwLoad := by
  obtain ⟨out, pcie, mbx, mgmtBusy, h⟩ := m.respond_eq r status detail payload
  rw [h]

theorem Mod.fw_respond : (m.respond r status detail payload).fw = m.fw := by
  obtain ⟨out, pcie, mbx, mgmtBusy, h⟩ := m.respond_eq r status detail payload
  rw [h]

theorem Mod.acting_respond : (m.respond r status detail payload).acting = m.acting := by
  obtain ⟨out, pcie, mbx, mgmtBusy, h⟩ := m.respond_eq r status detail payload
  rw [h]

theorem Mod.taken_respond : (m.respond r status detail payload).taken = m.taken :=
  Mod.taken_of_figures (Mod.figures_respond ..)

end

/-- A load once it is authenticated (02 R66). -/
theorem Mod.startAuth_spec (m : Mod) (l : FwLoad) : (m.startAuth l).fwLoad = some { l with auth := true } ∧
    (m.startAuth l).boot = { m.boot with stage := 7 } ∧ (m.startAuth l).acting = m.acting ∧ (m.startAuth l).taken = m.taken := by
  unfold Mod.startAuth
  dsimp only
  split <;> simp [Mod.stage_setStage]

/-- A load that failed: stage 6, no load, and the image as before. -/
theorem Mod.authFail_spec (m : Mod) (d : Nat) : (m.authFail d).fwLoad = none ∧ (m.authFail d).fw = m.fw ∧
    (m.authFail d).boot = { m.boot with stage := 6, authLast := d } := by
  unfold Mod.authFail Mod.failLoad
  split
  · simp [Mod.finish, Mod.endLoad, Mod.boot_respond, Mod.fwLoad_respond, Mod.fw_respond, Mod.stage_setStage]
  · simp [Mod.endLoad, Mod.stage_setStage]

section
variable {m : Mod} {l : FwLoad} (hl : m.fwLoad = some l) (ha : l.auth = true)
include hl ha

theorem Mod.authDone_of_bad {d : Nat} (h : imageBad l.bytes = some d) : m.authDone = m.authFail d := by
  simp [Mod.authDone, hl, ha, h]

theorem Mod.authDone_of_refused {w : Nat} (h : imageBad l.bytes = none) (hw : l.verdict = some (w + 1)) :
    m.authDone = m.authFail 5 := by
  simp [Mod.authDone, hl, ha, h, hw]

theorem Mod.authDone_of_accepted (h : imageBad l.bytes = none) (hw : l.verdict = some 0) :
    m.authDone.fwLoad = none ∧ m.authDone.boot.stage = 8 ∧ m.authDone.fw = some (imageOf l.bytes) := by
  simp only [Mod.authDone, hl, ha, h, hw]
  simp only [Bool.not_true, Bool.false_eq_true, if_false]
  split
  · simp [Mod.finish, Mod.boot_respond, Mod.fwLoad_respond, Mod.fw_respond, Mod.stage_setStage]
  · simp [Mod.stage_setStage]

end

/-- A management load that has `bytes` of an image of `length`. -/
def FwLoad.chunks (length : Nat) (bytes : List Byte) : FwLoad :=
  { source := .mgmt, length := length, addr := 0, bytes := bytes, auth := false, verdict := none }

theorem Mod.fwChunk_first {m : Mod} {r : Request} (hrun : m.running = false) (hload : m.fwLoad = none)
    (hoff : fld r.payload 0 4 = 0) (hlen : imageLenOk (fld r.payload 4 4) = true)
    (hfit : (r.payload.drop 8).length < fld r.payload 4 4) :
    m.fwChunk r = ({ m with fwLoad := some (.chunks (fld r.payload 4 4) (r.payload.drop 8)) }).respond r stOk 0 := by
  rw [List.length_drop] at hfit
  simp only [Mod.fwChunk, hrun, hload, hoff, hlen]
  simp [hfit.ne, hfit.not_gt, FwLoad.chunks]

/-- A chunk that follows what a load has. -/
theorem Mod.fwChunk_next {m : Mod} {r : Request} {l : FwLoad} (hrun : m.running = false) (hload : m.fwLoad = some l)
    (hsource : l.source = .mgmt) (hauth : l.auth = false) (hlen : imageLenOk l.length = true)
    (hsame : fld r.payload 4 4 = l.length) (hoff : fld r.payload 0 4 = l.bytes.length) (hpos : 0 < l.bytes.length)
    (hfit : l.bytes.length + (r.payload.drop 8).length ≤ l.length) :
    m.fwChunk r = if (l.bytes ++ r.payload.drop 8).length = l.length then
        (m.hold r).startAuth (.chunks l.length (l.bytes ++ r.payload.drop 8))
      else ({ m with fwLoad := some (.chunks l.length (l.bytes ++ r.payload.drop 8)) }).respond r stOk 0 := by
  have hpos : l.bytes.length ≠ 0 := by omega
  have hfit' : ¬ l.length < l.bytes.length + (r.payload.drop 8).length := by omega
  simp only [Mod.fwChunk, hrun, hload, hoff, hsame, hsource, hauth, hlen, if_neg hpos, if_neg hfit']
  simp [FwLoad.chunks]

theorem Mod.fwLoadPf_of_free {m : Mod} {r : Request} (hrun : m.running = false) (hload : m.fwLoad = none)
    (hlen : imageLenOk (fld r.payload 8 4) = true) (hzero : fld r.payload 12 4 = 0) :
    let l : FwLoad := { source := .pf, length := fld r.payload 8 4, addr := fld r.payload 0 8, bytes := [], auth := false,
                        verdict := none }
    m.fwLoadPf r = (({ m with fwLoad := some l }).hold r).fwReadNext l := by
  simp [Mod.fwLoadPf, hrun, hload, hlen, hzero]

/-- Settles O9: each of the commands by what its operation leaves of the boot and of the load. -/
theorem bootAndImages : Obligations.BootAndImages := by
  refine ⟨fun s failed hon hstage hpause => ?_, fun s hon hstage => ?_, fun s t hon ht => ?_, fun s d t hon hd ht => ?_,
    fun s r rest hturn hf hop hrun hload hlen hzero => ?_, fun s r rest hturn hf hop hrun hload hoff hlen hfit => ?_,
    fun s r rest l hturn hf hop hrun hload hsource hauth hlen hsame hoff hpos hfit => ?_, fun s l hon hload hsource hauth => ?_,
    fun s l hon hload hauth hdone => ?_⟩
  · obtain ⟨near, ext, hboot⟩ := s.mod.boot_stageComplete hstage hpause (failed := failed)
    refine ⟨_, gives_of_act hon (exec_bootStageComplete failed s), ?_⟩
    rw [hboot]
    exact ⟨rfl, rfl, fun h => by simp [h], fun h => by simp [h]⟩
  · have hgives := gives_of_act hon (exec_bootFatalFault s)
    rw [if_pos hstage] at hgives
    exact ⟨_, hgives, congrArg Boot.stage (Mod.stage_setStage _ 0xF)⟩
  · have hgives := gives_of_act hon (exec_inletAboveSelfTestLimit t s)
    rw [if_pos ht] at hgives
    refine ⟨_, hgives, ?_⟩
    simp [Mod.setReadings, overTestLimit, ht]
  · have hgives := gives_of_act hon (exec_selfTestLimitsRestored d t s)
    rw [if_pos ⟨hd, ht⟩] at hgives
    have hcool : hottest (withHottest { s.mod.gov.readings with inlet := t } d) < 760 :=
      hottest_withHottest (by decide) hd { s.mod.gov.readings with inlet := t }
    refine ⟨_, hgives, ?_⟩
    rw [Mod.setReadings, overTestLimit, decide_eq_false (not_le.mpr hcool), Bool.or_false]
    exact decide_eq_false (not_lt.mpr ht)
  · have hgives := gives_of_turn_figures hturn hf hop rfl (exec_fwLoad s) (by simp)
    rwa [Mod.fwLoadPf_of_free (m := turned s rest) hrun hload hlen hzero] at hgives
  · have hchunk := Mod.fwChunk_first (m := turned s rest) hrun hload hoff hlen hfit
    have hgives := gives_of_turn hturn hf hop rfl (exec_fwLoadChunk s) (by rw [hchunk, Mod.taken_respond]; rfl)
    rwa [hchunk] at hgives
  · have hchunk := Mod.fwChunk_next (m := turned s rest) hrun hload hsource hauth hlen hsame hoff hpos hfit
    obtain ⟨hfw, hboot, hacting, htaken⟩ :=
      ((turned s rest).hold r).startAuth_spec (.chunks l.length (l.bytes ++ r.payload.drop 8))
    by_cases hfull : (l.bytes ++ r.payload.drop 8).length = l.length
    · rw [if_pos hfull] at hchunk
      have hgives := gives_of_turn hturn hf hop rfl (exec_fwLoadChunk s) (by rw [hchunk, htaken]; rfl)
      rw [hchunk] at hgives
      exact ⟨_, _, hgives, hfw, rfl, rfl, by simpa [FwLoad.chunks] using hfull, fun _ => ⟨congrArg Boot.stage hboot, hacting⟩, fun h => by simp at h⟩
    · rw [if_neg hfull] at hchunk
      have hgives := gives_of_turn hturn hf hop rfl (exec_fwLoadChunk s) (by rw [hchunk, Mod.taken_respond]; rfl)
      rw [hchunk] at hgives
      exact ⟨_, _, hgives, Mod.fwLoad_respond .., rfl, rfl, by simpa [FwLoad.chunks] using hfull,
        fun h => by simp [FwLoad.chunks] at h, fun _ => ⟨Mod.boot_respond .., Mod.acting_respond ..⟩⟩
  · have hgives := gives_of_act hon (exec_fwLoadChunkTimeout s)
    simpa [hload, hsource, hauth] using hgives
  · have hgives := gives_of_act hon (exec_fwAuthDone s)
    refine ⟨_, hgives, ?_, fun hgood hverdict => ?_, fun d hbad => ?_, fun w hgood hverdict => ?_⟩
    · rcases himage : imageBad l.bytes with _ | d
      · rcases hverdict : l.verdict with _ | _ | w
        · simp [himage, hverdict] at hdone
        · exact (Mod.authDone_of_accepted hload hauth himage hverdict).1
        · rw [Mod.authDone_of_refused hload hauth himage hverdict]
          exact (s.mod.authFail_spec 5).1
      · rw [Mod.authDone_of_bad hload hauth himage]
        exact (s.mod.authFail_spec d).1
    · obtain ⟨-, hstage, hfw⟩ := Mod.authDone_of_accepted hload hauth hgood hverdict
      exact ⟨hstage, hfw⟩
    · obtain ⟨-, hfw, hboot⟩ := s.mod.authFail_spec d
      rw [Mod.authDone_of_bad hload hauth hbad]
      exact ⟨congrArg Boot.stage hboot, congrArg Boot.authLast hboot, hfw⟩
    · obtain ⟨-, hfw, hboot⟩ := s.mod.authFail_spec 5
      rw [Mod.authDone_of_refused hload hauth hgood hverdict]
      exact ⟨congrArg Boot.stage hboot, congrArg Boot.authLast hboot, hfw⟩

end Sys2Proof.Machine
end

section
/-!
PROOFS. Responses in the mailbox and on the sideband (02 R53, R54).
-/

namespace Sys2Proof.Machine
open Claims

/-! ### A response to a function of the host (02 R53, R54) -/

section
variable (m : Mod) (r : Request) (status detail : Nat) (payload : List Byte)

/-- The mailbox of a request once its response stands in it. -/
def Mailbox.answered (b : Mailbox) (r : Request) (status detail : Nat) (payload : List Byte) : Mailbox :=
  { b with respBuf := responseBytes r status detail payload ++ b.respBuf.drop (responseBytes r status detail payload).length
           cur := none, done := true, seqLo := BitVec.ofNat 16 r.seq, irq := true }

theorem Mod.respond_host (hf : r.fn ≠ .mgmt) (hcur : (m.mailbox (fnIdx r.fn)).cur = some r.id) :
    m.respond r status detail payload =
      if (m.mailbox (fnIdx r.fn)).irqEn then
        ({ m with mbx := Table.set (fnIdx r.fn) ((m.mailbox (fnIdx r.fn)).answered r status detail payload) m.mbx }).msix r.fn 0
      else { m with mbx := Table.set (fnIdx r.fn) ((m.mailbox (fnIdx r.fn)).answered r status detail payload) m.mbx } := by
  unfold Mod.respond
  split
  next h => exact absurd h hf
  · simp only [hcur, if_true]
    rfl

theorem Mod.mbx_respond_host (hf : r.fn ≠ .mgmt) (hcur : (m.mailbox (fnIdx r.fn)).cur = some r.id) :
    (m.respond r status detail payload).mbx =
      Table.set (fnIdx r.fn) ((m.mailbox (fnIdx r.fn)).answered r status detail payload) m.mbx := by
  rw [m.respond_host r status detail payload hf hcur]
  split
  · exact Mod.mbx_msix ..
  · rfl

theorem Mod.respond_mgmt (hf : r.fn = .mgmt) : m.respond r status detail payload =
    if m.mgmtBusy = some r.id then ({ m with mgmtBusy := none }).send (.mctp (responseBytes r status detail payload)) else m := by
  simp [Mod.respond, hf]

theorem Mod.respond_stale (hf : r.fn ≠ .mgmt) (hcur : (m.mailbox (fnIdx r.fn)).cur ≠ some r.id) :
    m.respond r status detail payload = m := by
  unfold Mod.respond
  split
  next h => exact absurd h hf
  · exact if_neg hcur

theorem Mod.keys_respond : (m.respond r status detail payload).keys = m.keys := by
  obtain ⟨out, pcie, mbx, mgmtBusy, h⟩ := m.respond_eq r status detail payload
  rw [h]

theorem Mod.parts_respond : (m.respond r status detail payload).parts = m.parts := by
  obtain ⟨out, pcie, mbx, mgmtBusy, h⟩ := m.respond_eq r status detail payload
  rw [h]

end

/-- A vector of a function that exists goes out, or is pending where it is masked (02 R43). -/
theorem Mod.msix_spec (m : Mod) {f : Fn} {v key : Nat} (hf : m.hasMailbox f = true) (hkey : fnIdx f * 32 + v = key) :
    ((Table.get Msix.reset key m.pcie.msix).masked = false →
      (m.msix f v).out = m.out ++ [.msix f v] ∧ (m.msix f v).pcie = m.pcie) ∧
    ((Table.get Msix.reset key m.pcie.msix).masked = true →
      (m.msix f v).out = m.out ∧ Table.get Msix.reset key (m.msix f v).pcie.msix =
        { Table.get Msix.reset key m.pcie.msix with pend := true }) := by
  subst hkey
  cases f <;> simp_all [Mod.msix, Mod.hasMailbox, Mod.send]

theorem Mod.respond_vector {m : Mod} {r : Request} {st d : Nat} {pl : List Byte} (hf : m.hasMailbox r.fn = true)
    (hcur : (m.mailbox (fnIdx r.fn)).cur = some r.id) (hirq : (m.mailbox (fnIdx r.fn)).irqEn = true) :
    let v := Table.get Msix.reset (fnIdx r.fn * 32) m.pcie.msix
    (v.masked = false → (m.respond r st d pl).out = m.out ++ [.msix r.fn 0] ∧ (m.respond r st d pl).pcie = m.pcie) ∧
      (v.masked = true → (m.respond r st d pl).out = m.out ∧
        Table.get Msix.reset (fnIdx r.fn * 32) (m.respond r st d pl).pcie.msix = { v with pend := true }) := by
  have hmgmt : r.fn ≠ .mgmt := by
    intro h
    simp [Mod.hasMailbox, h] at hf
  rw [m.respond_host r st d pl hmgmt hcur, if_pos hirq]
  exact Mod.msix_spec { m with mbx := Table.set (fnIdx r.fn) ((m.mailbox (fnIdx r.fn)).answered r st d pl) m.mbx } hf (Nat.add_zero _)

/-- Settles O16: by case on the issuer, on the mailbox and on the vector's mask. -/
theorem responses : Obligations.Responses := by
  refine ⟨fun m r st d pl hf hcur => ?_, fun m r st d pl hf => m.respond_mgmt r st d pl hf,
    fun m r st d pl hf hcur => m.respond_stale r st d pl hf hcur, fun s f hl hf hcur => ?_⟩
  · have hrespond := m.respond_host r st d pl hf hcur
    have hbox (i : Nat) : (m.respond r st d pl).mailbox i =
        if i = fnIdx r.fn then (m.mailbox (fnIdx r.fn)).answered r st d pl else m.mailbox i := by
      rw [Mod.mailbox, m.mbx_respond_host r st d pl hf hcur, Table.get, Table.find_set]
      split <;> rfl
    dsimp only
    rw [hbox, if_pos rfl]
    refine ⟨List.take_left .., rfl, rfl, rfl, rfl, Mod.parts_respond .., Mod.keys_respond .., fun i hi => ?_, fun hirq => ?_,
      fun hirq hvf => ?_⟩
    · rw [hbox, if_neg hi]
    · rw [hrespond, if_neg (by simp [hirq])]
      exact ⟨rfl, rfl⟩
    · have hthere : m.hasMailbox r.fn = true := by
        rcases hfn : r.fn with _ | k | _
        · rfl
        · exact hvf k hfn
        · exact absurd hfn hf
      exact Mod.respond_vector hthere hcur hirq
  · have hgives := gives_mbxGo hl hf
    rwa [Mod.go, if_pos hcur] at hgives

end Sys2Proof.Machine
end

section
/-!
PROOFS. Completions of device reads, tags in quarantine, and the cut-off of an arbiter hold (01 R33, 02 R47 to R49).
-/

namespace Sys2Proof.Machine
open Claims

/-! ### Fields of the chip's registers -/

section
variable (m : Mod) (off : Nat)

theorem Mod.chipReg_setChipFld (hi lo v : Nat) : (m.setChipFld off hi lo v).chipReg off = setF (m.chipReg off) hi lo v :=
  Mod.chipReg_setChip ..

theorem Mod.chipReg_setChipFld_other {o : Nat} (h : o ≠ off) (hi lo v : Nat) :
    (m.setChipFld off hi lo v).chipReg o = m.chipReg o :=
  Mod.chipReg_setChip_other m h _

theorem Mod.chipReg_chipCount (hi lo n : Nat) : (m.chipCount off hi lo n).chipReg off = satIncF (m.chipReg off) hi lo n :=
  Mod.chipReg_setChip ..

theorem Mod.chipReg_chipCount_other {o : Nat} (h : o ≠ off) (hi lo n : Nat) :
    (m.chipCount off hi lo n).chipReg o = m.chipReg o :=
  Mod.chipReg_setChip_other m h _

theorem Mod.getB_chipFlag {i : Nat} (hi : i < 32) (b : Nat) :
    getB ((m.chipFlag off i).chipReg off) b = (decide (b = i) || getB (m.chipReg off) b) := by
  rw [Mod.chipFlag, Mod.chipReg_setChipFld, getB_setF _ _ _ le_rfl hi]
  by_cases h : b = i
  · subst h
    simp
  · rw [if_neg (by omega)]
    simp [h]

end

theorem getF_satIncF (r : Word) {hi lo : Nat} (n : Nat) (h : lo ≤ hi) (h32 : hi < 32) :
    getF (satIncF r hi lo n) hi lo = min (getF r hi lo + n) (2 ^ (hi + 1 - lo) - 1) := by
  have hpos := Nat.two_pow_pos (hi + 1 - lo)
  rw [satIncF, getF_setF_same _ _ _ _ h h32, Nat.mod_eq_of_lt (by omega)]

/-! ### Frames of a port (15 R328) -/

@[simp] theorem Mod.chip_frameMsg (m : Mod) (n : Nat) (f : OutFrame) : (m.frameMsg n f).2.chip = m.chip := by
  unfold Mod.frameMsg
  split <;> rfl

@[simp] theorem Mod.chip_placeFrame (m : Mod) (n : Nat) (f : OutFrame) : (m.placeFrame n f).chip = m.chip := by
  unfold Mod.placeFrame
  dsimp only
  cases f.gtag <;> cases (m.frameMsg n f).1 <;> simp

/-- A port sends frames: what stands in a partition or a register of the chip does not move. -/
theorem Mod.portPump_leaves (m : Mod) (p : Nat) : (m.portPump p).chip = m.chip ∧ (m.portPump p).parts = m.parts := by
  refine Mod.forAll_keeps (P := fun n => n.chip = m.chip ∧ n.parts = m.parts) (fun n _ hn => ?_) _ m ⟨rfl, rfl⟩
  obtain ⟨hchip, hparts⟩ := hn
  dsimp only
  split
  · split
    · exact ⟨(Mod.chip_placeFrame ..).trans hchip, (Mod.parts_placeFrame ..).trans hparts⟩
    · exact ⟨hchip, hparts⟩
  · exact ⟨hchip, hparts⟩

/-! ### The arbiters (01 R33) -/

theorem arbBit_lt {a : Arbiter} {b : Nat} (h : arbBit a = some b) : b < 32 := by
  unfold arbBit at h
  grind

/-- A cut-off of `a` is recorded in its bit and counted. -/
theorem Mod.arbRecord_spec {m : Mod} {a : Arbiter} {b : Nat} (h : arbBit a = some b) :
    getB ((m.arbRecord a).chipReg offArbHold) b = true ∧
      (∀ i, i < 32 → i ≠ b → getB ((m.arbRecord a).chipReg offArbHold) i = getB (m.chipReg offArbHold) i) ∧
      getF ((m.arbRecord a).chipReg offArbHoldCnt) 31 0 = min (getF (m.chipReg offArbHoldCnt) 31 0 + 1) (2 ^ 32 - 1) ∧
      (m.arbRecord a).parts = m.parts := by
  have hrecord : m.arbRecord a = (m.chipFlag offArbHold b).chipCount offArbHoldCnt 31 0 := by simp [Mod.arbRecord, h]
  have hb := arbBit_lt h
  rw [hrecord]
  refine ⟨?_, fun i _ hi => ?_, ?_, rfl⟩
  · rw [Mod.chipReg_chipCount_other _ _ (by decide), Mod.getB_chipFlag _ _ hb]
    simp
  · rw [Mod.chipReg_chipCount_other _ _ (by decide), Mod.getB_chipFlag _ _ hb]
    simp [hi]
  · rw [Mod.chipReg_chipCount, getF_satIncF _ _ (by decide) (by decide), Mod.chipFlag,
      Mod.chipReg_setChipFld_other _ _ (by decide)]

theorem Mod.holders_arbRecord (m : Mod) (a : Arbiter) : (m.arbRecord a).holders = m.holders := by
  unfold Mod.arbRecord
  split <;> rfl

/-! ### Completions of device reads (02 R47 to R49) -/

section
variable {m : Mod} {tag : Nat} {q : ReadReq} (hq : (m.pcie.reads.find? fun x => x.tag == tag) = some q)
include hq

theorem Mod.completion_success (data : List Byte) : m.completion tag .success data =
    if q.len ≤ (q.got ++ data).length then (m.dropRead tag).readDone q ((q.got ++ data).take q.len)
    else { m with pcie := { m.pcie with
      reads := m.pcie.reads.map fun x => if x.tag = tag then { x with got := q.got ++ data } else x } } := by
  simp only [Mod.completion, hq]

theorem Mod.completion_failed {st : CplStatus} (hst : st ≠ .success) (data : List Byte) :
    m.completion tag st data = (m.dropRead tag).readFailed q false := by
  cases st <;> simp_all [Mod.completion]

theorem Mod.readTimeout_of_some : m.readTimeout tag =
    let n := (m.dropRead tag).send (.aer "Completion Timeout" tag)
    { n with pcie := { n.pcie with quarantined := n.pcie.quarantined ++ [tag] } }.readFailed q true := by
  simp only [Mod.readTimeout, hq]

end

/-- Settles O11: by case on the completion, and on the arbiter. -/
theorem deviceReadsAndArbiters : Obligations.DeviceReadsAndArbiters := by
  refine ⟨fun s tag q data hl hq hlen => ?_, fun s tag q data hl hq hlen => ?_, fun s tag st q data hl hst hq => ?_,
    fun s tag q hl hq => ?_, fun s tag hon => ?_, fun s a b ha hb hfabric hport => ?_⟩
  · have hgives := gives_of_host hl (exec_pcieCompletionRx tag .success data s)
    rwa [Mod.completion_success hq, if_pos hlen] at hgives
  · have hgives := gives_of_host hl (exec_pcieCompletionRx tag .success data s)
    rwa [Mod.completion_success hq, if_neg (by omega)] at hgives
  · have hgives := gives_of_host hl (exec_pcieCompletionRx tag st data s)
    rwa [Mod.completion_failed hq hst] at hgives
  · have hgives := gives_of_host hl (exec_completionTimeout tag s)
    rwa [Mod.readTimeout_of_some hq] at hgives
  · exact ⟨_, gives_of_act hon (exec_pcieTagQuarantineEnd tag s), by simp, fun x hx => by simp [hx], rfl⟩
  · have hgives := gives_of_alive ha (exec_arbHoldCutoff a s)
    refine ⟨_, hgives, ?_⟩
    cases a with
    | pcieIngress =>
      obtain ⟨hbit, hother, hcount, hparts⟩ := s.mod.arbRecord_spec hb
      exact ⟨hbit, hother, hcount, hparts, fun x y h => by simp at h⟩
    | fabric x y =>
      obtain ⟨h, hholder, hasks⟩ := hfabric x y rfl
      simp only [hholder, hasks, if_true]
      obtain ⟨hbit, hother, hcount, hparts⟩ :=
        Mod.arbRecord_spec (m := { s.mod with holders := Table.erase (4 * x.val + y.val) s.mod.holders }) hb
      refine ⟨hbit, hother, hcount, hparts, fun x' y' heq => ?_⟩
      obtain ⟨rfl, rfl⟩ : x = x' ∧ y = y' := by simpa using heq
      rw [Mod.holders_arbRecord]
      exact Table.find_erase_same ..
    | port p =>
      obtain ⟨k, hholder, hasks⟩ := hport p rfl
      simp only [hholder, hasks, if_true]
      obtain ⟨hbit, hother, hcount, hparts⟩ :=
        Mod.arbRecord_spec (m := s.mod.modPort p.val fun q => { q with holder := none }) hb
      obtain ⟨hchip, hparts'⟩ := Mod.portPump_leaves ((s.mod.modPort p.val fun q => { q with holder := none }).arbRecord (.port p)) p.val
      simp only [Mod.chipReg, hchip]
      exact ⟨hbit, hother, hcount, hparts'.trans hparts, fun x y h => by simp at h⟩

end Sys2Proof.Machine
end

section
/-!
PROOFS. Bus errors of a DMA channel, the restart, and channels disabled and enabled (10 R238 to R241).
-/

namespace Sys2Proof.Machine
open Claims

theorem Partition.chan_modChan_other (p : Partition) {ch i : Nat} (h : i ≠ ch) (f : Channel → Channel) :
    (p.modChan ch f).chan i = p.chan i :=
  Table.get_modify_other _ h ..

@[simp] theorem Partition.reg_modChan (p : Partition) (ch : Nat) (f : Channel → Channel) (off : Nat) :
    (p.modChan ch f).reg off = p.reg off := rfl

@[simp] theorem Partition.chan_flag (p : Partition) (off i ch : Nat) : (p.flag off i).chan ch = p.chan ch := rfl

/-! ### The engine stops at a bus error (10 R240, R241) -/

/-- `n` is `m` with more units issued on channels of partition `k` other than `ch`. -/
structure Mod.FliesOn (m n : Mod) (k ch : Nat) : Prop where
  part : ∃ chans, n.part k = { m.part k with chans := chans }
  chan : (n.part k).chan ch = (m.part k).chan ch
  keys : n.keys = m.keys
  others : n.others k = m.others k

section
variable {m : Mod} (k ch : Nat)

theorem Mod.FliesOn.refl (m : Mod) : m.FliesOn m k ch := ⟨⟨_, rfl⟩, rfl, rfl, rfl⟩

theorem Mod.fliesOn_issueAhead {n : Mod} (h : m.FliesOn n k ch) {i : Nat} (hi : i ≠ ch) : m.FliesOn (n.issueAhead k i) k ch := by
  obtain ⟨⟨chans, hpart⟩, hchan, hkeys, hothers⟩ := h
  unfold Mod.issueAhead
  extract_lets x
  split
  · exact ⟨⟨chans, hpart⟩, hchan, hkeys, hothers⟩
  next d _ =>
    split
    · have hdraw : n.draw.2.part k = n.part k := rfl
      refine ⟨?_, ?_, hkeys, ?_⟩
      · rw [Mod.part_modPart, hdraw, hpart]
        exact ⟨_, rfl⟩
      · rw [Mod.part_modPart, Partition.chan_modChan_other _ hi.symm, hdraw, hchan]
      · simp [hothers]
    · exact ⟨⟨chans, hpart⟩, hchan, hkeys, hothers⟩

/-- The mark of a bus error in the engine's registers. -/
def Partition.stopped (p : Partition) (cause : Nat) (host : Bool) (unit : Nat) : Partition :=
  (p.dmaErrMark ch cause host unit).flag offDmaEng 16

theorem Mod.engineStops_eq (cause : Nat) (host : Bool) (unit : Nat) : ∃ n, m.FliesOn n k ch ∧
    m.engineStops k ch cause host unit = n.modPart k fun p => p.stopped ch cause host unit := by
  refine ⟨_, ?_, rfl⟩
  refine Mod.forAll_keeps (P := fun n => m.FliesOn n k ch) (fun n i hn => ?_) _ m (.refl k ch m)
  split
  · exact hn
  next hi => exact Mod.fliesOn_issueAhead k ch hn hi

section
variable (p : Partition) (cause : Nat) (host : Bool) (unit : Nat)

theorem Partition.stopped_eq : ∃ regs, p.stopped ch cause host unit = { p with regs := regs } := by
  unfold Partition.stopped Partition.dmaErrMark
  split <;> exact ⟨_, rfl⟩

theorem Partition.reg_stopped_other {off : Nat} (herr : off ≠ offDmaErr) (heng : off ≠ offDmaEng) :
    (p.stopped ch cause host unit).reg off = p.reg off := by
  unfold Partition.stopped Partition.dmaErrMark
  rw [Partition.reg_flag_other _ _ _ heng]
  split
  · exact Partition.reg_flag_other _ _ _ herr
  · exact Partition.reg_setReg_other _ herr _

@[simp] theorem Partition.chans_stopped : (p.stopped ch cause host unit).chans = p.chans := by
  obtain ⟨regs, h⟩ := p.stopped_eq ch cause host unit
  rw [h]

@[simp] theorem Partition.near_stopped : (p.stopped ch cause host unit).near = p.near := by
  obtain ⟨regs, h⟩ := p.stopped_eq ch cause host unit
  rw [h]

@[simp] theorem Partition.ctxs_stopped : (p.stopped ch cause host unit).ctxs = p.ctxs := by
  obtain ⟨regs, h⟩ := p.stopped_eq ch cause host unit
  rw [h]

theorem Partition.getB_eng_stopped : getB ((p.stopped ch cause host unit).reg offDmaEng) 16 = true :=
  Partition.getB_flag_same _ _ (by decide)

/-- The first error is recorded with what it names. -/
theorem Partition.dmaErr_stopped (h : getB (p.reg offDmaErr) 31 = false) :
    getB ((p.stopped ch cause host unit).reg offDmaErr) 31 = true ∧
      getF ((p.stopped ch cause host unit).reg offDmaErr) 29 27 = cause % 8 ∧
      getF ((p.stopped ch cause host unit).reg offDmaErr) 26 23 = ch % 16 ∧
      getF ((p.stopped ch cause host unit).reg offDmaErr) 22 22 = b2n host := by
  have hreg : (p.stopped ch cause host unit).reg offDmaErr =
      setB (setF (setF (setF (setF (p.reg offDmaErr) 29 27 cause) 26 23 ch) 22 22 (b2n host)) 21 0 unit) 31 true := by
    rw [Partition.stopped, Partition.reg_flag_other _ _ _ (by decide), Partition.dmaErrMark, if_neg (by simp [h]),
      Partition.reg_setReg]
  rw [hreg]
  refine ⟨getB_setB_same _ _ _ (by decide), ?_, ?_, ?_⟩
  · rw [setB, getF_setF_other _ _ _ _ _ _ (by decide) (by decide) (by decide),
      getF_setF_other _ _ _ _ _ _ (by decide) (by decide) (by decide),
      getF_setF_other _ _ _ _ _ _ (by decide) (by decide) (by decide),
      getF_setF_other _ _ _ _ _ _ (by decide) (by decide) (by decide), getF_setF_same _ _ _ _ (by decide) (by decide)]
    rfl
  · rw [setB, getF_setF_other _ _ _ _ _ _ (by decide) (by decide) (by decide),
      getF_setF_other _ _ _ _ _ _ (by decide) (by decide) (by decide),
      getF_setF_other _ _ _ _ _ _ (by decide) (by decide) (by decide), getF_setF_same _ _ _ _ (by decide) (by decide)]
    rfl
  · rw [setB, getF_setF_other _ _ _ _ _ _ (by decide) (by decide) (by decide),
      getF_setF_other _ _ _ _ _ _ (by decide) (by decide) (by decide), getF_setF_same _ _ _ _ (by decide) (by decide)]
    cases host <;> rfl

theorem Partition.dmaErr_stopped_multi (h : getB (p.reg offDmaErr) 31 = true) :
    getB ((p.stopped ch cause host unit).reg offDmaErr) 30 = true := by
  rw [Partition.stopped, Partition.reg_flag_other _ _ _ (by decide), Partition.dmaErrMark, if_pos h]
  exact Partition.getB_flag_same _ _ (by decide)

end

end

/-! ### What the sides of the host's descriptors depend on (10 R228) -/

theorem addrRegion_lt (a : Nat) : addrRegion a < 16 := Nat.mod_lt _ (by decide)

section
variable {m n : Mod} {k ch : Nat} {regs : RegFile} {chans : Table Channel}
  (hpart : n.part k = { m.part k with regs := regs, chans := chans })
  (hreg : ∀ off, off ≠ offDmaErr → off ≠ offDmaEng → (n.part k).reg off = (m.part k).reg off)
  (hchan : (n.part k).chan ch = (m.part k).chan ch) (hkeys : n.keys = m.keys)
include hpart hreg hchan hkeys

theorem Mod.memSideOk_of_stopped (d : Desc) (isDst : Bool) (a at' len : Nat) :
    n.memSideOk k ch d isDst a at' len = m.memSideOk k ch d isDst a at' len := by
  have hr := addrRegion_lt a
  have hcmp {off : Nat} (h : off < 0x1000) : (n.part k).reg off = (m.part k).reg off :=
    hreg off (by simp only [offDmaErr]; omega) (by simp only [offDmaEng]; omega)
  have hregion : (n.part k).region (addrRegion a) = (m.part k).region (addrRegion a) := by
    simp only [Partition.region, Partition.cmpLoc, Partition.pair]
    rw [hcmp, hcmp, hcmp, hcmp, hcmp, hcmp, hcmp, hcmp, hcmp] <;>
      simp only [offCmpCtrl, offCmpBase, offCmpLimit, offCmpDir, offCmpTbl] <;> omega
  have hloaded : (n.part k).cmpLoaded (addrRegion a) = (m.part k).cmpLoaded (addrRegion a) := by
    rw [Partition.cmpLoaded, Partition.cmpLoaded, hcmp (by simp only [offCmpCtrl]; omega)]
  have hslot : (n.part k).memSlot = (m.part k).memSlot := by
    rw [Partition.memSlot, Partition.memSlot, hcmp (by decide)]
  have hshards (loc : Nat) : (n.part k).shardsAllow d isDst loc = (m.part k).shardsAllow d isDst loc := by rw [hpart]; rfl
  have hversion : n.memVersion k = m.memVersion k := by
    simp only [Mod.memVersion, Mod.keySlot, hslot, hkeys]
  simp only [Mod.memSideOk, Partition.sideExt, Partition.viewAllows, hregion, hloaded, hshards, hversion, hchan]

theorem Mod.sidesOk_of_stopped (hothers : n.others k = m.others k) {d : Desc} (howner : d.owner = .host) (at' : Nat) :
    n.sidesOk k ch d at' = m.sidesOk k ch d at' := by
  have hwin (j w : Nat) : (n.part j).win w = (m.part j).win w := by
    by_cases hj : j = k
    · subst hj
      exact hreg _ (by simp only [offWinCtrl, offDmaErr]; omega) (by simp only [offWinCtrl, offDmaEng]; omega)
    · rw [Mod.part_of_others hothers hj]
  have hps : n.sidePs = m.sidePs := by
    funext kind v
    simp only [Mod.sidePs, hwin]
  have hbytes : n.unitBytes d = m.unitBytes d := by rw [Mod.unitBytes, Mod.unitBytes, hps]
  have hside (isDst : Bool) (len : Nat) : n.sideOk k ch d isDst at' len = m.sideOk k ch d isDst at' len := by
    simp only [Mod.sideOk, Mod.memSideOk_of_stopped hpart hreg hchan hkeys]
  simp only [Mod.sidesOk, Mod.descNode, howner, hbytes, hside]

end

/-! ### The failing descriptor goes -/

section
variable {m : Mod} {k ch : Nat} {d : Desc} (hd : ((m.part k).chan ch).queue.head? = some d)
include hd

/-- A head whose sides may not be used writes nothing more as it goes. -/
theorem Mod.dropHead_stuck (hsides : m.sidesOk k ch d ((m.part k).chan ch).written = false) :
    (m.dropHead k ch true).part k =
        (m.part k).modChan ch (fun h => h.popHead ((m.part k).chan ch).written) ∧
      (m.dropHead k ch true).others k = m.others k := by
  have hparts : ∀ j, ((m.orphanReads k ch).dmaKeyEnd k ch).part j = m.part j := fun _ => rfl
  have hdrop : m.dropHead k ch true = ((m.orphanReads k ch).dmaKeyEnd k ch).modPart k fun p =>
      p.modChan ch fun h => h.popHead ((m.part k).chan ch).written := by
    simp [Mod.dropHead, hd, hsides]
  rw [hdrop]
  exact ⟨Mod.part_modPart .., (Mod.others_modPart ..).trans (Mod.others_of_part fun j _ => hparts j)⟩

/-- A bus error of a side that may not be used, of a descriptor of the host. -/
theorem Mod.busError_host (howner : d.owner = .host) (hsides : m.sidesOk k ch d ((m.part k).chan ch).written = false)
    (cause : Nat) : ∃ chans, ({ m.part k with chans := chans } : Partition).chan ch = (m.part k).chan ch ∧
      (m.busError k ch cause).part k =
        ((({ m.part k with chans := chans }).stopped ch cause true (((m.part k).chan ch).written / 512)).modChan ch
          fun h => h.popHead ((m.part k).chan ch).written).flag (offChStatus ch) 7 ∧
      (m.busError k ch cause).others k = m.others k := by
  obtain ⟨n, ⟨⟨chans, hpart⟩, hchan, hkeys, hothers⟩, hstops⟩ :=
    Mod.engineStops_eq (m := m) k ch cause true (((m.part k).chan ch).written / 512)
  let p₁ : Partition := { m.part k with chans := chans }
  obtain ⟨regs, hregs⟩ := p₁.stopped_eq ch cause true (((m.part k).chan ch).written / 512)
  have hpart' : (m.engineStops k ch cause true (((m.part k).chan ch).written / 512)).part k =
      p₁.stopped ch cause true (((m.part k).chan ch).written / 512) := by
    rw [hstops, Mod.part_modPart, hpart]
  have hchan₁ : p₁.chan ch = (m.part k).chan ch := by rw [← hchan, hpart]
  have hchan' : ((m.engineStops k ch cause true (((m.part k).chan ch).written / 512)).part k).chan ch = (m.part k).chan ch := by
    rw [hpart', hregs]
    exact hchan₁
  have hothers' : (m.engineStops k ch cause true (((m.part k).chan ch).written / 512)).others k = m.others k := by
    rw [hstops, Mod.others_modPart, hothers]
  have hreg (off : Nat) (herr : off ≠ offDmaErr) (heng : off ≠ offDmaEng) :
      ((m.engineStops k ch cause true (((m.part k).chan ch).written / 512)).part k).reg off = (m.part k).reg off := by
    rw [hpart', Partition.reg_stopped_other _ _ _ _ _ herr heng]
    rfl
  have hsides' := Mod.sidesOk_of_stopped (hpart'.trans hregs) hreg hchan' (by rw [hstops]; exact hkeys) hothers' howner
    ((m.part k).chan ch).written
  obtain ⟨hdrop, hdropped⟩ := Mod.dropHead_stuck (m := m.engineStops k ch cause true (((m.part k).chan ch).written / 512))
    (by rw [hchan', hd]) (by rw [hchan', hsides', hsides])
  have herror : m.busError k ch cause =
      (((m.engineStops k ch cause true (((m.part k).chan ch).written / 512)).dropHead k ch true).modPart k fun p =>
        p.flag (offChStatus ch) 7) := by
    simp [Mod.busError, hd, howner, Desc.hostPushed, Mod.ownerFails]
  refine ⟨chans, hchan₁, ?_, ?_⟩
  · rw [herror, Mod.part_modPart, hdrop, hchan', hpart']
  · rw [herror, Mod.others_modPart, hdropped, hothers']

end

/-! ### A channel is disabled (10 R238) -/

theorem Mod.ownersFail_host (m : Mod) (k ch status detail : Nat) {ds : List Desc} (hds : ∀ d ∈ ds, d.owner = .host) :
    let n := m.forAll (fun m d => m.ownerFails k ch d status detail) ds
    (n.part k).chans = (m.part k).chans ∧ (∀ off, off ≠ offChStatus ch → (n.part k).reg off = (m.part k).reg off) ∧
      (ds ≠ [] ∨ getB ((m.part k).reg (offChStatus ch)) 7 = true → getB ((n.part k).reg (offChStatus ch)) 7 = true) := by
  induction ds generalizing m with
  | nil => exact ⟨rfl, fun _ _ => rfl, fun h => h.resolve_left fun h => h rfl⟩
  | cons d ds ih =>
    obtain ⟨hd, hrest⟩ := List.forall_mem_cons.mp hds
    have hfail : m.ownerFails k ch d status detail = m.modPart k fun p => p.flag (offChStatus ch) 7 := by
      simp [Mod.ownerFails, hd]
    obtain ⟨hchans, hreg, hbit⟩ := ih (m.ownerFails k ch d status detail) hrest
    dsimp only at hchans hreg hbit ⊢
    rw [Mod.forAll_cons]
    rw [hfail, Mod.part_modPart] at hchans hreg hbit
    refine ⟨hfail ▸ hchans, fun off hoff => ?_, fun _ => ?_⟩
    · rw [hfail, hreg off hoff, Partition.reg_flag_other _ _ _ hoff]
    · rw [hfail]
      exact hbit (.inr (Partition.getB_flag_same _ _ (by decide)))

theorem Mod.chDisable_spec {m : Mod} {k ch : Nat}
    (howner : ∀ d ∈ ((m.part k).chan ch).queue ++ ((m.part k).chan ch).waiting, d.owner = .host) :
    (((m.chDisable k ch).part k).chan ch).queue = [] ∧ (((m.chDisable k ch).part k).chan ch).waiting = [] ∧
      getB (((m.chDisable k ch).part k).reg (offChCtrl ch)) 0 = true ∧
      (((m.part k).chan ch).queue ≠ [] → getB (((m.chDisable k ch).part k).reg (offChStatus ch)) 7 = true) := by
  unfold Mod.chDisable
  extract_lets h n₁ rest n₂
  obtain ⟨hchans, hreg, hbit⟩ := n₂.ownersFail_host k ch stAborted ch howner
  have hchan : ((n₂.part k).chan ch).queue = [] ∧ ((n₂.part k).chan ch).waiting = [] := by
    simp [n₂]
  refine ⟨?_, ?_, ?_, fun hne => hbit (.inl (by simp [hne]))⟩
  · rw [Partition.chan, hchans]
    exact hchan.1
  · rw [Partition.chan, hchans]
    exact hchan.2
  · rw [hreg _ (by simp only [offChCtrl, offChStatus]; omega)]
    simp only [n₂, n₁, Mod.part_modPart, Partition.reg_modChan]
    exact Partition.getB_flag_same _ _ (by decide)

/-- Settles O46: a failing head by what the engine's stop leaves, and a channel by its own two operations. -/
theorem dmaFaults : Obligations.DmaFaults := by
  refine ⟨fun s k ch cause d hon hd howner hserves herr hcause => ?_, fun s k ch cause d hon hd hserves => ⟨fun herr => ?_, fun herr => ?_⟩,
    fun s k ch cause unit host hl hreset hqueue hcut hcause => ?_, fun s k hl hreset => ⟨?_, fun hpaths => ?_⟩,
    fun s f k ch hw hen howner => ?_, fun s f k ch hw => ?_⟩
  · have hgives := gives_of_act hon (exec_dmaBusError k ch cause s)
    simp only [hd, hserves, herr, Bool.and_self, if_true] at hgives
    have hsides : s.mod.sidesOk k.val ch.val d ((s.mod.part k.val).chan ch.val).written = false := by
      simpa [Mod.errorStands, hcause] using herr
    obtain ⟨chans, hchan, hpart, hothers⟩ := Mod.busError_host hd howner hsides cause.val
    generalize hp₁ : ({ s.mod.part k.val with chans := chans } : Partition) = p₁ at hchan hpart
    have hreg (off : Nat) : p₁.reg off = (s.mod.part k.val).reg off := by rw [← hp₁]; rfl
    have hnear : p₁.near = (s.mod.part k.val).near := by rw [← hp₁]
    refine ⟨_, hgives, ?_, ?_, ?_, fun hfirst => ?_, fun hmulti => ?_, ?_, fun j hj => Mod.part_of_others hothers hj⟩
    · rw [hpart, Partition.reg_flag_other _ _ _ (by simp only [offChStatus, offDmaEng]; omega)]
      exact p₁.getB_eng_stopped ..
    · have hqueue : (p₁.stopped ch.val cause.val true (((s.mod.part k.val).chan ch.val).written / 512)).chan ch.val =
          (s.mod.part k.val).chan ch.val := by rw [Partition.chan, Partition.chans_stopped, ← Partition.chan, hchan]
      rw [hpart, Partition.chan_flag, Partition.chan_modChan, hqueue]
      rfl
    · rw [hpart]
      exact Partition.getB_flag_same _ _ (by decide)
    · obtain ⟨hv, hcode, hch, hhost⟩ := p₁.dmaErr_stopped ch.val cause.val true
        (((s.mod.part k.val).chan ch.val).written / 512) (by rw [hreg, hfirst])
      rw [hpart, Partition.reg_flag_other _ _ _ (by simp only [offChStatus, offDmaErr]; omega)]
      exact ⟨hv, hcode.trans (by rw [hcause]), hch.trans (Nat.mod_eq_of_lt ch.isLt), hhost⟩
    · rw [hpart, Partition.reg_flag_other _ _ _ (by simp only [offChStatus, offDmaErr]; omega)]
      exact p₁.dmaErr_stopped_multi _ _ _ _ (by rw [hreg, hmulti])
    · rw [hpart, ← hnear]
      exact Partition.near_stopped ..
  · have hgives := gives_of_act hon (exec_dmaBusError k ch cause s)
    simpa [hd, hserves, herr] using hgives
  · have hgives := gives_of_act hon (exec_dmaBusError k ch cause s)
    simpa [hd, hserves, herr] using hgives
  · have hgives := gives_of_act hl.1 (exec_dmaBusError k ch cause s)
    obtain ⟨n, ⟨⟨chans, hpart⟩, hchan, hkeys, hothers⟩, hstops⟩ := Mod.engineStops_eq (m := s.mod) k.val ch.val cause.val host unit
    have hrunning := hl.2
    simp only [hqueue, hcut, List.head?_nil, beq_self_eq_true, hcause, hrunning, hreset, decide_true, Bool.not_false, Bool.and_self,
      if_true, hstops, Mod.modPart_modPart] at hgives
    generalize hp₁ : ({ s.mod.part k.val with chans := chans } : Partition) = p₁ at hpart
    have hreg (off : Nat) : p₁.reg off = (s.mod.part k.val).reg off := by rw [← hp₁]; rfl
    have hctxs : p₁.ctxs = (s.mod.part k.val).ctxs := by rw [← hp₁]
    rw [hpart] at hchan
    refine ⟨_, hgives, ?_, ?_, ?_, fun hfirst => ?_, ?_, fun j hj => ?_⟩
    · rw [Mod.part_modPart, hpart, Partition.reg_modChan]
      exact p₁.getB_eng_stopped ..
    · rw [Mod.part_modPart, Partition.chan_modChan]
    · rw [Mod.part_modPart, Partition.chan_modChan, hpart, Partition.chan, Partition.chans_stopped, ← Partition.chan, hchan, hqueue]
    · obtain ⟨hv, hcode, hch, -⟩ := p₁.dmaErr_stopped ch.val cause.val host unit (by rw [hreg, hfirst])
      rw [Mod.part_modPart, hpart, Partition.reg_modChan]
      exact ⟨hv, hcode.trans (Nat.mod_eq_of_lt (by omega)), hch.trans (Nat.mod_eq_of_lt ch.isLt)⟩
    · rw [Mod.part_modPart, hpart, ← hctxs]
      exact Partition.ctxs_stopped ..
    · rw [Mod.part_modPart_other _ hj, Mod.part_of_others hothers hj]
  · have hgives := gives_of_act hl.1 (exec_dmaEngineRestart k s)
    simpa [hreset, hl.2] using hgives
  · have hgives := gives_of_act hl.1 (exec_dmaEngineRestart k s)
    simp only [hreset, show s.mod.running = true from hl.2, Bool.not_true, Bool.or_self, Bool.false_eq_true, if_false,
      Mod.advanceAll, show (s.mod.modPart k.val fun p => p.setFld offDmaEng 16 16 0).paths = [] from hpaths] at hgives
    refine ⟨_, hgives, ?_, ?_⟩
    · rw [Mod.forAll, List.filter_nil, List.foldl_nil, Mod.part_modPart, Partition.reg_setFld]
      exact getB_setB_same _ 16 false (by decide)
    · rw [Mod.forAll, List.filter_nil, List.foldl_nil, Mod.part_modPart]
      rfl
  · have hgives := gives_of_host hw.1 (exec_dmaChDisable f k ch s)
    rw [if_pos (by simp [hw.2, hen])] at hgives
    exact ⟨_, hgives, Mod.chDisable_spec howner⟩
  · have hgives := gives_of_host hw.1 (exec_dmaChEnable f k ch s)
    rw [if_pos hw.2] at hgives
    refine ⟨_, hgives, ?_, ?_, ?_, fun j hj => Mod.part_modPart_other _ hj _⟩
    · rw [Mod.part_modPart, Partition.reg_setFld]
      exact getB_setB_same _ 0 false (by decide)
    · rw [Mod.part_modPart]
      rfl
    · rw [Mod.part_modPart]
      rfl

end Sys2Proof.Machine
end

section
/-!
PROOFS. The time exchange, a set of DEVTIME and the choice of a parent (15 R349 to R351).
-/

namespace Sys2Proof.Machine
open Claims

/-! ### The choice of a parent (15 R351) -/

section
variable {m : Mod} (hen : m.timeEn = true) (hroot : m.timeRoot = false)
include hen hroot

theorem Mod.chooseParent_first (h : m.parentUsable m.timeParent = true) :
    m.chooseParent = { m with time := { m.time with holdover := false, altUsed := false } } := by
  simp [Mod.chooseParent, hen, hroot, h]

theorem Mod.chooseParent_alt (h : m.parentUsable m.timeParent = false) (halt : m.parentUsable m.timeAlt = true) :
    m.chooseParent = { m with time := { m.time with holdover := false, altUsed := true } } := by
  simp [Mod.chooseParent, hen, hroot, h, halt]

theorem Mod.chooseParent_none (h : m.parentUsable m.timeParent = false) (halt : m.parentUsable m.timeAlt = false) :
    m.chooseParent = { m with time := { m.time with holdover := true, altUsed := false, locked := false, good := 0 } } := by
  simp [Mod.chooseParent, hen, hroot, h, halt]

/-! ### The exchange as a child (15 R349, R350) -/

/-- A large offset with no reservation open steps DEVTIME. -/
theorem Mod.timeExchange_step (h : m.parentUsable m.timeParent = true) {t1 t2 t3 t4 skew off : Int}
    (hoff : ((t2 - t1) - (t4 - t3)) / 2 - skew = off) (hlarge : (off < -8000 ∨ 8000 < off) ∧ m.anyResv = false) :
    ∃ out time, time.offset = off ∧ m.timeExchange t1 t2 t3 t4 skew =
      ({ m with out := out, time := time, devtime := addNs m.devtime (off / 8) }).chipFlag offTimeStatus 28 := by
  have hruns : ¬ (!m.timeEn || m.timeRoot || false) = true := by simp [hen, hroot]
  unfold Mod.timeExchange
  rw [Mod.chooseParent_first hen hroot h, hoff]
  extract_lets time n₀ n₁ off' near good time₁ n₂
  rw [if_neg (show ¬ (!n₀.timeEn || n₀.timeRoot || n₀.time.holdover) = true from hruns), if_pos (show (off' < -8000 ∨ 8000 < off') ∧ n₂.anyResv = false from hlarge)]
  exact ⟨_, _, rfl, rfl⟩

/-- Any other offset slews it, by at most 100 ppm of a microsecond and by no more than the offset. -/
theorem Mod.timeExchange_slew (h : m.parentUsable m.timeParent = true) {t1 t2 t3 t4 skew off : Int}
    (hoff : ((t2 - t1) - (t4 - t3)) / 2 - skew = off) (hsmall : ¬ ((off < -8000 ∨ 8000 < off) ∧ m.anyResv = false)) :
    ∃ out fresh time, time.offset = off ∧ (time.subPs - m.time.subPs).natAbs ≤ min 100 (off.natAbs * 125) ∧
      m.timeExchange t1 t2 t3 t4 skew = { m with out := out, fresh := fresh, time := time } := by
  have hruns : ¬ (!m.timeEn || m.timeRoot || false) = true := by simp [hen, hroot]
  unfold Mod.timeExchange
  rw [Mod.chooseParent_first hen hroot h, hoff]
  extract_lets time n₀ n₁ off' near good time₁ n₂
  rw [if_neg (show ¬ (!n₀.timeEn || n₀.timeRoot || n₀.time.holdover) = true from hruns), if_neg (show ¬ ((off' < -8000 ∨ 8000 < off') ∧ n₂.anyResv = false) from hsmall)]
  refine ⟨_, _, { n₂.time with subPs := n₂.time.subPs + if off < 0 then
    -((Config.free n₂.fresh % (min 100 (off.natAbs * 125) + 1) : Nat) : Int)
    else ((Config.free n₂.fresh % (min 100 (off.natAbs * 125) + 1) : Nat) : Int) }, rfl, ?_, rfl⟩
  have hps : Config.free n₂.fresh % (min 100 (off.natAbs * 125) + 1) ≤ min 100 (off.natAbs * 125) :=
    Nat.le_of_lt_succ (Nat.mod_lt _ (by omega))
  have hsub : n₂.time.subPs = m.time.subPs := rfl
  generalize Config.free n₂.fresh % (min 100 (off.natAbs * 125) + 1) = ps at hps ⊢
  dsimp only
  rw [hsub]
  split <;> omega

end

/-- Settles O35: as a child by its offset, as a parent by the state of its link, and the commit by who asks for it. -/
theorem timeTransfer : Obligations.TimeTransfer := by
  refine ⟨fun s t1 t2 t3 t4 sk ha hen hroot hparent => ⟨fun hlarge hresv => ?_, fun hsmall => ?_⟩,
    fun s t1 t2 t3 t4 n ha => ⟨fun hen hup => ?_, fun hno => ?_⟩, fun s hi hl => ⟨fun hroot hresv => ?_, fun hno => ?_⟩,
    fun s f hi hl hf => ?_, fun s ha hen hroot hparent => ⟨fun halt => ?_, fun halt => ?_⟩⟩
  · obtain ⟨out, time, hoff, heq⟩ := Mod.timeExchange_step hen hroot hparent (t1 := t1) (t2 := t2) (t3 := t3) (t4 := t4)
      (skew := sk) rfl ⟨hlarge, hresv⟩
    have hgives : Gives (.timeExchange t1 t2 t3 t4 (.child sk)) s (s.mod.timeExchange t1 t2 t3 t4 sk) :=
      gives_of_alive ha (exec_timeExchange t1 t2 t3 t4 (.child sk) s)
    refine ⟨_, hgives, ?_⟩
    rw [heq]
    exact ⟨rfl, hoff, by rw [Mod.getB_chipFlag _ _ (by decide)]; rfl⟩
  · obtain ⟨out, fresh, time, hoff, hps, heq⟩ := Mod.timeExchange_slew hen hroot hparent (t1 := t1) (t2 := t2) (t3 := t3)
      (t4 := t4) (skew := sk) rfl (by
        rintro ⟨hlarge, hresv⟩
        rcases hsmall with ⟨h1, h2⟩ | h
        · omega
        · simp [hresv] at h)
    have hgives : Gives (.timeExchange t1 t2 t3 t4 (.child sk)) s (s.mod.timeExchange t1 t2 t3 t4 sk) :=
      gives_of_alive ha (exec_timeExchange t1 t2 t3 t4 (.child sk) s)
    refine ⟨_, hgives, ?_⟩
    rw [heq]
    exact ⟨rfl, hoff, le_trans hps (min_le_left ..), le_trans hps (min_le_right ..)⟩
  · have hgives := gives_of_alive ha (exec_timeExchange t1 t2 t3 t4 (.parent n) s)
    simpa [Mod.timeAnswer, hen, hup] using hgives
  · have hgives := gives_of_alive ha (exec_timeExchange t1 t2 t3 t4 (.parent n) s)
    simpa [Mod.timeAnswer, hno] using hgives
  · have hgives := gives_of_host hl (exec_lnkTimeSetCommit .pf hi s)
    simp only [if_true, Mod.timeSetCommit, hroot, hresv, Bool.not_false, Bool.and_self] at hgives
    exact ⟨_, hgives, rfl⟩
  · have hgives := gives_of_host hl (exec_lnkTimeSetCommit .pf hi s)
    have hrefused : (s.mod.timeRoot && !s.mod.anyResv) = false := by
      rcases hno with h | h <;> simp [h]
    simp only [if_true, Mod.timeSetCommit, hrefused, Bool.false_eq_true, if_false] at hgives
    exact ⟨_, hgives, rfl, by rw [Mod.getB_chipFlag _ _ (by decide)]; rfl⟩
  · have hgives := gives_of_host hl (exec_lnkTimeSetCommit f hi s)
    rwa [if_neg hf] at hgives
  · refine ⟨_, gives_of_alive ha (exec_timeParentLoss s), ?_⟩
    rw [Mod.chooseParent_none hen hroot hparent halt]
    exact ⟨rfl, rfl⟩
  · refine ⟨_, gives_of_alive ha (exec_timeParentLoss s), ?_⟩
    rw [Mod.chooseParent_alt hen hroot hparent halt]
    exact ⟨rfl, rfl⟩

end Sys2Proof.Machine
end

section
/-!
PROOFS. Conditions of memory, patrol scrub and compression regions (11 R251 to R254, R270, R272).
-/

namespace Sys2Proof.Machine
open Claims

/-! ### Conditions of a partition's memory (11 R251, R272) -/

/-- `q` is `p` with registers below 0x400 and the notices of a condition written. -/
structure Partition.Noted (p q : Partition) : Prop where
  same : ∃ regs notices noticeRing memObj,
    q = { p with regs := regs, notices := notices, noticeRing := noticeRing, memObj := memObj }
  reg : ∀ off, 0x400 ≤ off → q.reg off = p.reg off

section
variable {p q r : Partition}

theorem Partition.Noted.refl (p : Partition) : p.Noted p := ⟨⟨_, _, _, _, rfl⟩, fun _ _ => rfl⟩

theorem Partition.Noted.trans (h : p.Noted q) (h' : q.Noted r) : p.Noted r := by
  obtain ⟨⟨_, _, _, _, rfl⟩, hreg⟩ := h
  obtain ⟨⟨_, _, _, _, rfl⟩, hreg'⟩ := h'
  exact ⟨⟨_, _, _, _, rfl⟩, fun off hoff => (hreg' off hoff).trans (hreg off hoff)⟩

theorem Partition.noted_setReg (p : Partition) {off : Nat} (h : off < 0x400) (v : Word) : p.Noted (p.setReg off v) :=
  ⟨⟨_, _, _, _, rfl⟩, fun o ho => Partition.reg_setReg_other p (by omega) v⟩

theorem Partition.noted_flag (p : Partition) {off : Nat} (h : off < 0x400) (i : Nat) : p.Noted (p.flag off i) :=
  p.noted_setReg h _

theorem Partition.noted_setPair (p : Partition) {off : Nat} (h : off + 4 < 0x400) (v : Nat) : p.Noted (p.setPair off v) :=
  (p.noted_setReg (by omega) _).trans (Partition.noted_setReg _ h _)

theorem Partition.noted_noticed (p : Partition) (body : List Byte) : p.Noted (p.noticed body) := by
  have hring : p.Noted { p with noticeRing := Table.set (p.noticeWr % 64) body p.noticeRing } :=
    ⟨⟨_, _, _, _, rfl⟩, fun _ _ => rfl⟩
  have hptr (q : Partition) : q.Noted (q.setFld offNoticePtr 6 0 (p.noticeWr + 1)) := q.noted_setReg (by decide) _
  rcases ({ p with noticeRing := Table.set (p.noticeWr % 64) body p.noticeRing } : Partition).noticeMark_eq body with
    h | ⟨i, -, h⟩
  · rw [Partition.noticed, h]
    exact hring.trans (hptr _)
  · rw [Partition.noticed, h]
    exact (hring.trans (Partition.noted_flag _ (by decide) i)).trans (hptr _)

end

section
variable (m : Mod) (k : Nat)

theorem Mod.noted_notice (code resv obj state : Nat) : (m.part k).Noted ((m.notice k code resv obj state).part k) := by
  unfold Mod.notice
  dsimp only
  split
  · exact .refl _
  · split
    · rw [Mod.part_noticePush]
      exact Partition.noted_noticed ..
    · split
      · rw [Mod.part_modPart]
        exact ⟨⟨_, _, _, _, rfl⟩, fun _ _ => rfl⟩
      · rw [Mod.part_modPart]
        exact Partition.noted_flag _ (by decide) 7

theorem Mod.noted_memCondition (chan : Nat) : (m.part k).Noted ((m.memCondition k chan).part k) := by
  unfold Mod.memCondition
  split
  · exact .refl _
  · refine Partition.Noted.trans ?_ (Mod.noted_notice ..)
    rw [Mod.part_modPart]
    exact (Partition.noted_flag _ (by decide) 3).trans ⟨⟨_, _, _, _, rfl⟩, fun _ _ => rfl⟩

theorem eccReg_lt (loc : Nat) : eccReg loc < 0x400 := by
  unfold eccReg
  split <;> decide

theorem errReg_lt (loc : Nat) : errReg loc + 4 < 0x400 := by
  unfold errReg
  split <;> decide

theorem Partition.noted_eccMark (p : Partition) (g : Nat) (scrub : Bool) : p.Noted (p.eccMark g scrub) := by
  have hecc := eccReg_lt (64 * g)
  unfold Partition.eccMark
  dsimp only
  split
  · exact p.noted_flag hecc 30
  · exact ((p.noted_flag hecc 31).trans (Partition.noted_setReg _ hecc _)).trans (Partition.noted_setPair _ (errReg_lt _) _)

theorem Mod.noted_eccError (g chan : Nat) (scrub : Bool) : (m.part k).Noted ((m.eccError k g chan scrub).part k) := by
  refine Partition.Noted.trans ?_ (Mod.noted_memCondition ..)
  rw [Mod.part_modPart]
  exact Partition.noted_eccMark ..

theorem Partition.reg_setPoison (p : Partition) (g : Nat) (b : Bool) (off : Nat) : (p.setPoison g b).reg off = p.reg off := by
  unfold Partition.setPoison
  dsimp only
  split <;> rfl

/-- A read of memory leaves the registers from 0x400 on. -/
theorem Mod.reg_memRead (key loc n : Nat) (e : Ecc) (unit : Bool) (chan : Option Nat) {off : Nat} (hoff : 0x400 ≤ off) :
    ((m.memRead k key loc n e unit chan).2.part k).reg off = (m.part k).reg off := by
  unfold Mod.memRead
  extract_lets gs m₁ p bad m₂
  have h₁ : (m₁.part k).reg off = (m.part k).reg off := by
    unfold m₁
    split
    · rw [Mod.part_modPart]
      have := eccReg_lt loc
      exact Partition.reg_setReg_other _ (by omega) _
    · rw [Mod.part_modPart, Partition.reg_setPoison]
    · rfl
  exact Mod.forAll_keeps (P := fun n => (n.part k).reg off = (m.part k).reg off)
    (fun n g hn => ((n.noted_eccError k g _ false).reg off hoff).trans hn) bad m₁ h₁

end

/-! ### Patrol scrub (11 R270) -/

theorem Partition.poisoned_setPoison (p : Partition) (g : Nat) : (p.setPoison g true).poisoned g = true := by
  have hmem (l : List Nat) : (if l.contains g then l else g :: l).contains g = true := by
    split
    · assumption
    · simp
  unfold Partition.setPoison Partition.poisoned
  by_cases h : isExt (64 * g) = true
  · simp only [h, if_true]
    exact hmem _
  · simp only [h]
    exact hmem _

/-- An uncorrectable error that a scrub finds poisons its granule, and leaves the bytes. -/
theorem Mod.patrolScrub_spec {m : Mod} {k loc : Nat} (h : (m.part k).poisoned (loc / 64) = false) (e : Ecc) :
    (e = .clean → m.patrolScrub k loc e = m) ∧
      (e = .corrected → m.patrolScrub k loc e = m.modPart k fun p => p.count (eccReg loc) 15 0) ∧
      (e = .uncorrectable → ((m.patrolScrub k loc e).part k).poisoned (loc / 64) = true) ∧
      ((m.patrolScrub k loc e).part k).near = (m.part k).near ∧ ((m.patrolScrub k loc e).part k).ext = (m.part k).ext := by
  cases e with
  | clean => simp [Mod.patrolScrub, h]
  | corrected => simp [Mod.patrolScrub, h, Partition.count, Partition.setReg]
  | uncorrectable =>
    have hscrub : m.patrolScrub k loc .uncorrectable =
        (m.modPart k fun p => p.setPoison (loc / 64) true).eccError k (loc / 64) (channelOf k loc) true := by
      simp [Mod.patrolScrub, h]
    obtain ⟨⟨regs, notices, ring, obj, hsame⟩, -⟩ :=
      (m.modPart k fun p => p.setPoison (loc / 64) true).noted_eccError k (loc / 64) (channelOf k loc) true
    rw [hscrub, hsame, Mod.part_modPart]
    exact ⟨nofun, nofun, fun _ => Partition.poisoned_setPoison .., Partition.near_setPoison .., Partition.ext_setPoison ..⟩

/-! ### Compression regions (11 R253, R254) -/

theorem Partition.enableErr_lt (p : Partition) (r : Nat) (t : List Byte) (bad : Bool) : p.enableErr r t bad < 8 := by
  unfold Partition.enableErr
  dsimp only
  (repeat' split) <;> decide

/-- The control register of a region once its enabling has ended with `err`. -/
def cmpEnabled (v : Word) (err : Nat) : Word :=
  if err = 0 then setB (setB (setF v 29 27 err) 31 true) 30 true else setB (setB (setF v 29 27 err) 30 false) 31 false

theorem getF_setB_above (w : Word) {i hi lo : Nat} (b : Bool) (h32 : i < 32) (h : hi < i) :
    getF (setB w i b) hi lo = getF w hi lo :=
  getF_setF_other _ _ _ _ _ _ le_rfl h32 (.inl h)

theorem cmpEnabled_spec (v : Word) {err : Nat} (h : err < 8) :
    (∀ hi lo, hi < 27 → getF (cmpEnabled v err) hi lo = getF v hi lo) ∧ getF (cmpEnabled v err) 29 27 = err ∧
      getB (cmpEnabled v err) 30 = (err == 0) ∧ getB (cmpEnabled v err) 31 = (err == 0) := by
  have hlow {hi lo : Nat} (h27 : hi < 27) : getF (setF v 29 27 err) hi lo = getF v hi lo :=
    getF_setF_other _ _ _ _ _ _ (by decide) (by decide) (.inl h27)
  have herr : getF (setF v 29 27 err) 29 27 = err :=
    (getF_setF_same _ _ _ _ (by decide) (by decide)).trans (Nat.mod_eq_of_lt h)
  unfold cmpEnabled
  split
  next h0 =>
    refine ⟨fun hi lo h27 => ?_, ?_, ?_, ?_⟩
    · rw [getF_setB_above _ _ (by decide) (by omega), getF_setB_above _ _ (by decide) (by omega), hlow h27]
    · rw [getF_setB_above _ _ (by decide) (by decide), getF_setB_above _ _ (by decide) (by decide), herr]
    · rw [getB_setB_same _ _ _ (by decide), h0, beq_self_eq_true]
    · rw [getB_setB_other _ _ (by decide) (by decide), getB_setB_same _ _ _ (by decide), h0, beq_self_eq_true]
  next h0 =>
    refine ⟨fun hi lo h27 => ?_, ?_, ?_, ?_⟩
    · rw [getF_setB_above _ _ (by decide) (by omega), getF_setB_above _ _ (by decide) (by omega), hlow h27]
    · rw [getF_setB_above _ _ (by decide) (by decide), getF_setB_above _ _ (by decide) (by decide), herr]
    · rw [getB_setB_other _ _ (by decide) (by decide), getB_setB_same _ _ _ (by decide), beq_eq_false_iff_ne.mpr h0]
    · rw [getB_setB_same _ _ _ (by decide), beq_eq_false_iff_ne.mpr h0]

/-- A partition with a region's enabling ended with `err`, its tables `t` loaded where that is 0. -/
def Partition.cmpResult (p : Partition) (r : Nat) (t : List Byte) (err : Nat) : Partition :=
  { p with cmpTables := if err = 0 then Table.set r t p.cmpTables else p.cmpTables }.setReg (offCmpCtrl r)
    (cmpEnabled (p.reg (offCmpCtrl r)) err)

theorem Partition.reg_cmpResult (p : Partition) (r : Nat) (t : List Byte) (err : Nat) :
    (p.cmpResult r t err).reg (offCmpCtrl r) = cmpEnabled (p.reg (offCmpCtrl r)) err := Partition.reg_setReg ..

theorem Mod.reg_cmpEnable (m : Mod) (k r : Nat) (e : Ecc) : ∃ err, err < 8 ∧
    ((m.cmpEnable k r e).part k).reg (offCmpCtrl r) = cmpEnabled ((m.part k).reg (offCmpCtrl r)) err := by
  have hoff : 0x400 ≤ offCmpCtrl r := by
    simp only [offCmpCtrl]
    omega
  generalize hF : @Mod.cmpEnable = F
  delta Mod.cmpEnable at hF
  subst hF
  beta_reduce
  extract_lets p g there
  generalize hx : (if there = true then m.memRead k (m.memKey k) g.tbl 128 e true else ({ bytes := [], bad := [] }, m)) = x
  have hreg : (x.2.part k).reg (offCmpCtrl r) = (m.part k).reg (offCmpCtrl r) := by
    rw [← hx]
    split
    · exact Mod.reg_memRead _ _ _ _ _ _ _ _ hoff
    · rfl
  obtain ⟨rd, n⟩ := x
  refine ⟨p.enableErr r rd.bytes (!rd.bad.isEmpty), Partition.enableErr_lt .., ?_⟩
  have hresult : ((n.modPart k fun q => q.cmpResult r rd.bytes (p.enableErr r rd.bytes (!rd.bad.isEmpty))).part k).reg
      (offCmpCtrl r) = cmpEnabled ((n.part k).reg (offCmpCtrl r)) (p.enableErr r rd.bytes (!rd.bad.isEmpty)) := by
    rw [Mod.part_modPart, Partition.reg_cmpResult]
  exact hresult.trans (congrArg (fun v => cmpEnabled v _) hreg)

/-- The write of a region's control register that enables it. -/
theorem Mod.cmpCtrlWrite_enable {m : Mod} {k r : Nat} {value : Word} (hen : getB value 30 = true)
    (hoff : (m.part k).cmpEn r = false) (e : Ecc) : ∃ err, err < 8 ∧
      ((m.cmpCtrlWrite k r value e).part k).reg (offCmpCtrl r) =
        cmpEnabled (setF (setF (setF ((m.part k).reg (offCmpCtrl r)) 26 24 (getF value 26 24)) 23 20 (getF value 23 20)) 15 0
          (getF value 15 0)) err := by
  have hold : ¬ getB ((m.part k).reg (offCmpCtrl r)) 30 = true := by
    rw [← Partition.cmpEn, hoff]
    decide
  unfold Mod.cmpCtrlWrite
  extract_lets old en v n
  have hctrl : (n.part k).reg (offCmpCtrl r) = v := by
    rw [Mod.part_modPart, Partition.reg_setReg]
  obtain ⟨err, herr, hreg⟩ := n.reg_cmpEnable k r e
  rw [hctrl] at hreg
  rw [if_neg hold, if_pos hen]
  exact ⟨err, herr, hreg⟩

/-- Settles O49: a scrub by what it finds, a region by the write of its control register. -/
theorem memoryUpkeep : Obligations.MemoryUpkeep := by
  refine ⟨fun s k ext g loc e hon hloc htrained hclean => ?_, fun s k ext chan hon => gives_of_act hon (exec_memRefresh k ext chan s),
    fun s f k r value e hw hr hen hoff => ?_, fun s f k r value hw hr hen hon => ?_⟩
  · have hgives := gives_of_act hon (exec_patrolScrub k ext g e s)
    simp only [hloc, htrained, if_true] at hgives
    exact ⟨_, hgives, Mod.patrolScrub_spec hclean e⟩
  · have hgives := gives_of_host hw.1 (exec_cmpRegionEnable f k r value e s)
    rw [if_pos (by simp [hw.2, hr, hen])] at hgives
    obtain ⟨err, herr, hreg⟩ := Mod.cmpCtrlWrite_enable hen hoff e
    refine ⟨_, hgives, ?_, fun j hj => Mod.part_of_others (by simp) hj⟩
    obtain ⟨hfields, hcode, hon, hloaded⟩ := cmpEnabled_spec (setF (setF (setF ((s.mod.part k.val).reg (offCmpCtrl r.val))
      26 24 (getF value 26 24)) 23 20 (getF value 23 20)) 15 0 (getF value 15 0)) herr
    dsimp only
    rw [Partition.cmpEn, Partition.cmpLoaded, hreg, hcode]
    refine ⟨?_, ?_, ?_, hon, hloaded⟩
    · rw [hfields _ _ (by decide), getF_setF_other _ _ _ _ _ _ (by decide) (by decide) (by decide),
        getF_setF_other _ _ _ _ _ _ (by decide) (by decide) (by decide), getF_setF_same _ _ _ _ (by decide) (by decide)]
      exact Nat.mod_eq_of_lt (getF_lt ..)
    · rw [hfields _ _ (by decide), getF_setF_other _ _ _ _ _ _ (by decide) (by decide) (by decide),
        getF_setF_same _ _ _ _ (by decide) (by decide)]
      exact Nat.mod_eq_of_lt (getF_lt ..)
    · rw [hfields _ _ (by decide), getF_setF_same _ _ _ _ (by decide) (by decide)]
      exact Nat.mod_eq_of_lt (getF_lt ..)
  · have hgives := gives_of_host hw.1 (exec_cmpRegionDisable f k r value s)
    rw [if_pos (by simp [hw.2, hr, hen])] at hgives
    have hwrite : s.mod.cmpCtrlWrite k.val r.val value .clean = s.mod.modPart k.val fun p =>
        p.setReg (offCmpCtrl r.val) (setB (setB ((s.mod.part k.val).reg (offCmpCtrl r.val)) 30 false) 31 false) := by
      rw [Mod.cmpCtrlWrite, hen]
      exact if_pos hon
    rw [hwrite] at hgives
    refine ⟨_, hgives, ?_, ?_, ?_, ?_, fun j hj => Mod.part_modPart_other _ hj _⟩
    · rw [Mod.part_modPart, Partition.cmpEn, Partition.reg_setReg, getB_setB_other _ _ (by decide) (by decide),
        getB_setB_same _ _ _ (by decide)]
    · rw [Mod.part_modPart, Partition.cmpLoaded, Partition.reg_setReg, getB_setB_same _ _ _ (by decide)]
    · rw [Mod.part_modPart]
      rfl
    · rw [Mod.part_modPart]
      rfl

end Sys2Proof.Machine
end

section
/-!
PROOFS. Windows, and the aperture of the host over the scratchpads (10 R232 to R236).
-/

namespace Sys2Proof.Machine
open Claims

/-! ### The control register of a window (10 R233, R234) -/

section
variable {m : Mod} {k w : Nat} {value : Word}

theorem Mod.winErr_lt (m : Mod) (k w : Nat) : m.winErr k w < 8 := by
  unfold Mod.winErr
  dsimp only
  (repeat' split) <;> decide

theorem winOpen_setFields (old : Word) (a b : Nat) : winOpen (setF (setF old 25 15 a) 5 0 b) = winOpen old := by
  rw [winOpen, getB_setF_other _ _ _ _ _ (by decide) (by decide) (by decide),
    getB_setF_other _ _ _ _ _ (by decide) (by decide) (by decide), winOpen]

/-- A write that asks for a closed window to open: the fields, and the outcome of its checks. -/
theorem Mod.winCtrlWrite_open (hopen : getB value 29 = true) (hclose : getB value 30 = false)
    (hold : winOpen ((m.part k).win w) = false) :
    let v := setF (setF ((m.part k).win w) 25 15 (getF value 25 15)) 5 0 (getF value 5 0)
    let err := (m.modPart k fun p => p.setReg (offWinCtrl w) v).winErr k w
    m.winCtrlWrite k w value =
      m.modPart k fun p => p.setReg (offWinCtrl w) (setB (setF v 28 26 err) 31 (err == 0)) := by
  intro v err
  have hv : winOpen v = false := (winOpen_setFields ..).trans hold
  have hwrite : m.winCtrlWrite k w value = (m.modPart k fun p => p.setReg (offWinCtrl w) v).modPart k fun p =>
      p.setReg (offWinCtrl w) (setB (setF v 28 26 err) 31 (winOpen v || err == 0)) := by
    simp [Mod.winCtrlWrite, hold, hopen, hclose, v, err]
  rw [hwrite, hv, Bool.false_or, Mod.modPart_modPart]
  exact Mod.modPart_congr (by simp [Partition.setReg, Table.set_set])

/-- The fields of a window's control register once the checks of its opening have ended with `err`. -/
theorem winOpened_spec (old value : Word) {err : Nat} (h : err < 8) :
    let c := setB (setF (setF (setF old 25 15 (getF value 25 15)) 5 0 (getF value 5 0)) 28 26 err) 31 (err == 0)
    getF c 25 15 = getF value 25 15 ∧ getF c 5 0 = getF value 5 0 ∧ getF c 28 26 = err ∧ winOpen c = (err == 0) := by
  intro c
  refine ⟨?_, ?_, ?_, getB_setB_same _ _ _ (by decide)⟩
  · rw [getF_setB_above _ _ (by decide) (by decide), getF_setF_other _ _ _ _ _ _ (by decide) (by decide) (by decide),
      getF_setF_other _ _ _ _ _ _ (by decide) (by decide) (by decide), getF_setF_same _ _ _ _ (by decide) (by decide)]
    exact Nat.mod_eq_of_lt (getF_lt ..)
  · rw [getF_setB_above _ _ (by decide) (by decide), getF_setF_other _ _ _ _ _ _ (by decide) (by decide) (by decide),
      getF_setF_same _ _ _ _ (by decide) (by decide)]
    exact Nat.mod_eq_of_lt (getF_lt ..)
  · rw [getF_setB_above _ _ (by decide) (by decide), getF_setF_same _ _ _ _ (by decide) (by decide)]
    exact Nat.mod_eq_of_lt h

/-- A write that asks for an open window to close leaves it open, and closing. -/
theorem Mod.winCtrlWrite_close (hclose : getB value 30 = true) (hold : winOpen ((m.part k).win w) = true) :
    ∃ v, winOpen v = true ∧ m.winCtrlWrite k w value = m.modPart k fun p => p.setReg (offWinCtrl w) (setB v 30 true) := by
  let old := (m.part k).win w
  let v := if getB value 29 then setF old 28 26 0 else old
  have hv : winOpen v = true := by
    unfold v
    split
    · rw [winOpen, getB_setF_other _ _ _ _ _ (by decide) (by decide) (by decide)]
      exact hold
    · exact hold
  refine ⟨v, hv, ?_⟩
  have hwrite : m.winCtrlWrite k w value = (m.modPart k fun p => p.setReg (offWinCtrl w) old).modPart k fun p =>
      p.setReg (offWinCtrl w) (setB v 30 (winOpen v)) := by
    simp [Mod.winCtrlWrite, hold, hclose, v, old]
  rw [hwrite, hv, Mod.modPart_modPart]
  exact Mod.modPart_congr (by simp [Partition.setReg, Table.set_set])

end

/-! ### The host's aperture over the scratchpads (10 R236) -/

section
variable (m : Mod) (k : Nat)

/-- An access of the aperture leaves every register but the scratchpads' error count. -/
theorem Mod.reg_scratchRead (t st a n : Nat) (e : Ecc) {off : Nat} (h : off ≠ offSpEcc) :
    ((m.scratchRead k t st a n e).2.part k).reg off = (m.part k).reg off := by
  unfold Mod.scratchRead
  extract_lets n₁ u
  have h₁ : (n₁.part k).reg off = (m.part k).reg off := by
    unfold n₁
    split
    · rw [Mod.part_modPart]
      exact Partition.reg_setReg_other _ h _
    · rw [Mod.part_modPart]
      rfl
    · rfl
  split
  · rw [Mod.part_modPart]
    exact (Partition.reg_setReg_other _ h _).trans h₁
  · exact h₁

theorem Mod.reg_apRead (st t base off n : Nat) (e : Ecc) {o : Nat} (h : o ≠ offSpEcc) :
    ((m.apRead k st t base off n e).part k).reg o = (m.part k).reg o := by
  unfold Mod.apRead
  extract_lets r data
  have hfold (xs : List (Nat × Nat × Nat × Nat)) (acc : List (Nat × List Byte) × Bool × Ecc × Mod) :
      ((xs.foldl (fun (acc : List (Nat × List Byte) × Bool × Ecc × Mod) (c : Nat × Nat × Nat × Nat) =>
        let (pc, m) := acc.2.2.2.scratchRead k t st (c.2.2.1 * rowBytes st + c.2.2.2) c.2.1 acc.2.2.1
        (acc.1 ++ [(c.1, pc.bytes)], acc.2.1 || pc.err, .clean, m)) acc).2.2.2.part k).reg o = (acc.2.2.2.part k).reg o := by
    induction xs generalizing acc with
    | nil => rfl
    | cons c xs ih => exact (ih _).trans (Mod.reg_scratchRead _ _ _ _ _ _ _ h)
  exact hfold _ ([], false, e, m)

theorem Mod.reg_apCommit (st t row : Nat) (bytes : Table Byte) (e : Ecc) {o : Nat} (h : o ≠ offSpEcc) :
    ((m.apCommit k st t row bytes e).part k).reg o = (m.part k).reg o := by
  unfold Mod.apCommit
  extract_lets a reads n u whole
  have hn : (n.part k).reg o = (m.part k).reg o := by
    unfold n
    clear_value reads
    split
    · rw [Mod.part_modPart]
      exact Partition.reg_setReg_other _ h _
    · rw [Mod.part_modPart]
      rfl
    · rfl
  split
  · rw [Mod.part_modPart]
    exact (Partition.reg_setReg_other _ h _).trans hn
  · rw [Mod.part_modPart]
    exact hn

theorem Mod.reg_apDrain {o : Nat} (h : o ≠ offSpEcc) : ((m.apDrain k).part k).reg o = (m.part k).reg o := by
  refine Mod.forAll_keeps (P := fun n => (n.part k).reg o = (m.part k).reg o) (fun n _ hn => ?_) _ m rfl
  dsimp only
  split
  next a as _ =>
    split
    · have hpop : ((n.modPart k fun p => { p with apQueue := as }).part k).reg o = (n.part k).reg o := by
        rw [Mod.part_modPart]
        rfl
      refine Eq.trans ?_ (hpop.trans hn)
      cases a with
      | read st t base off n e => exact Mod.reg_apRead _ _ _ _ _ _ _ _ h
      | commit st t row bytes e => exact Mod.reg_apCommit _ _ _ _ _ _ _ h
    · exact hn
  · exact hn

end

/-- An access within one row is one piece. -/
theorem apPieces_one {st base off n : Nat} (hst : st ≠ 3) (h0 : 0 < n) (hrow : off % rowBytes st + n ≤ rowBytes st)
    (hstore : base + off / rowBytes st < storeRows st) :
    apPieces st base off n = [(0, n, base + off / rowBytes st, off % rowBytes st)] := by
  have hsplit := Nat.div_add_mod off (rowBytes st)
  have hlast : (off + n - 1) / rowBytes st = off / rowBytes st := by
    refine Nat.div_eq_of_lt_le ?_ ?_
    · rw [Nat.mul_comm]
      omega
    · rw [Nat.mul_comm, Nat.mul_add, Nat.mul_one]
      omega
  have hlow : max off (rowBytes st * (off / rowBytes st)) = off := by omega
  have hhigh : min (off + n) (rowBytes st * (off / rowBytes st) + rowBytes st) = off + n := by omega
  have hstart : off - rowBytes st * (off / rowBytes st) = off % rowBytes st := by omega
  have hone : off / rowBytes st + 1 - off / rowBytes st = 1 := by omega
  simp [apPieces, hst, h0.ne', hlast, hone, hstore, hlow, hhigh, hstart]

/-- A read of words without error gives their bytes. -/
theorem Mod.apRead_one {m : Mod} {k st t base off n : Nat} (hst : st ≠ 3) (h0 : 0 < n)
    (hrow : off % rowBytes st + n ≤ rowBytes st) (hstore : base + off / rowBytes st < storeRows st)
    (hgood : ((m.part k).truss t).readBad st (base * rowBytes st + off) n = false) :
    m.apRead k st t base off n .clean =
      { m with read := some { bytes := ((m.part k).truss t).read st (base * rowBytes st + off) n, ep := false } } := by
  have hat : (base + off / rowBytes st) * rowBytes st + off % rowBytes st = base * rowBytes st + off := by
    have hsplit := Nat.div_add_mod off (rowBytes st)
    rw [Nat.add_mul, Nat.mul_comm (off / rowBytes st)]
    omega
  have hlen : (((m.part k).truss t).read st (base * rowBytes st + off) n).length = n := Cells.read_length ..
  simp [Mod.apRead, apPieces_one hst h0 hrow hstore, Mod.scratchRead, hat, hgood, hlen, zeros]

/-! ### Bytes gathered for a row -/

/-- The bytes gathered with `data` written from byte `lo` of the row on. -/
def gathered (old : Table Byte) (lo : Nat) (data : List Byte) : Table Byte :=
  (List.range data.length).foldl (fun t i => Table.set (lo + i) (data.getD i 0) t) old

theorem find_gathered (old : Table Byte) (lo : Nat) (data : List Byte) (j : Nat) :
    Table.find j (gathered old lo data) =
      if lo ≤ j ∧ j < lo + data.length then some (data.getD (j - lo) 0) else Table.find j old := by
  have hrange (n : Nat) : Table.find j ((List.range n).foldl (fun t i => Table.set (lo + i) (data.getD i 0) t) old) =
      if lo ≤ j ∧ j < lo + n then some (data.getD (j - lo) 0) else Table.find j old := by
    induction n with
    | zero =>
      rw [if_neg (by omega)]
      rfl
    | succ n ih =>
      rw [List.range_succ, List.foldl_append, List.foldl_cons, List.foldl_nil, Table.find_set, ih]
      by_cases hj : j = lo + n
      · subst hj
        rw [if_pos rfl, if_pos (by omega), Nat.add_sub_cancel_left]
      · rw [if_neg hj]
        congr 1
        simp only [eq_iff_iff]
        omega
  exact hrange data.length

theorem Table.any_key {α : Type} (g : Nat → Bool) (t : Table α) :
    (t.any fun e => g e.1) = true ↔ ∃ j, g j = true ∧ (Table.find j t).isSome = true := by
  induction t with
  | nil => simp
  | cons e t ih =>
    rw [List.any_cons, Bool.or_eq_true, ih]
    constructor
    · rintro (h | ⟨j, hj, hfind⟩)
      · exact ⟨e.1, h, by simp [Table.find]⟩
      · refine ⟨j, hj, ?_⟩
        rw [Table.find]
        split
        · rfl
        · exact hfind
    · rintro ⟨j, hj, hfind⟩
      rw [Table.find] at hfind
      split at hfind
      next h => exact .inl (h ▸ hj)
      next => exact .inr ⟨j, hj, hfind⟩

/-- The words of a row that one aligned word's bytes touch. -/
theorem any_gathered_word {a : Nat} {data : List Byte} (hlen : data.length = 8) (w : Nat) :
    ((gathered [] (8 * a) data).any fun (b : Nat × Byte) => b.1 / 8 == w) = (w == a) := by
  rw [Bool.eq_iff_iff, Table.any_key (fun j => j / 8 == w)]
  simp only [find_gathered, hlen, beq_iff_eq, Table.find_nil]
  constructor
  · rintro ⟨j, hj, hfind⟩
    split at hfind
    · omega
    · simp at hfind
  · rintro rfl
    exact ⟨8 * w, by omega, by simp⟩

theorem mergesIn_gathered_word {a : Nat} {data : List Byte} (hlen : data.length = 8) (w : Nat) :
    mergesIn (gathered [] (8 * a) data) w = false := by
  rw [mergesIn, any_gathered_word hlen]
  by_cases h : w = a
  · subst h
    have hall : ((List.range 8).all fun i => (Table.find (8 * w + i) (gathered [] (8 * w) data)).isSome) = true := by
      rw [List.all_eq_true]
      intro i hi
      rw [find_gathered, hlen, if_pos ⟨by omega, by simpa using hi⟩]
      rfl
    rw [hall, Bool.not_true, Bool.and_false]
  · simp [h]

/-! ### A word of a truss -/

/-- A write of one whole word makes it good. -/
theorem Truss.cells_write_word (t : Truss) (st : Nat) {a : Nat} {bs : List Byte} (ha : 8 ∣ a) (hlen : bs.length = 8) :
    (t.write st a bs).cells st = Cells.write (t.cells st) a bs := by
  obtain ⟨w, rfl⟩ := ha
  unfold Truss.write
  extract_lets covered bad blocked
  have hnone : blocked = [] := by
    refine List.filter_eq_nil_iff.mpr fun v hv => ?_
    have hout := (List.mem_filter.mp hv).2
    simp only [covered, wordMeets, hlen, Bool.not_eq_true', Bool.and_eq_false_iff, decide_eq_false_iff_not, Bool.and_eq_true,
      decide_eq_true_eq] at hout ⊢
    omega
  rw [Truss.cells_setStore, hnone]
  rfl

/-- The commit of one gathered word writes it, whole. -/
theorem Mod.apCommit_word {m : Mod} {k st t row a : Nat} {data : List Byte} (hlen : data.length = 8) (ha : a < rowBytes st / 8) :
    m.apCommit k st t row (gathered [] (8 * a) data) .clean = m.modPart k fun p =>
      p.modTruss t fun u => u.write st (row * rowBytes st + 8 * a) data := by
  have hreads : (List.range (rowBytes st / 8)).filter (mergesIn (gathered [] (8 * a) data)) = [] :=
    List.filter_eq_nil_iff.mpr fun w _ => by simp [mergesIn_gathered_word hlen]
  have hwhole : (List.range (rowBytes st / 8)).filter (fun w =>
      (gathered [] (8 * a) data).any fun (b : Nat × Byte) => b.1 / 8 == w) = [a] := by
    simp only [any_gathered_word hlen]
    rw [List.filter_beq, List.count_eq_one_of_mem List.nodup_range (List.mem_range.mpr ha)]
    rfl
  have hbytes (c : Cells) : ((List.range 8).map fun i =>
      Table.get (Sparse.get (row * rowBytes st + 8 * a + i) c) (8 * a + i) (gathered [] (8 * a) data)) = data := by
    refine List.ext_getElem (by simp [hlen]) fun i h₁ h₂ => ?_
    have hi : i < 8 := by omega
    simp [Table.get, find_gathered, hlen, hi]
  simp only [Mod.apCommit, hreads, List.any_nil, hwhole, List.foldl_cons, List.foldl_nil, hbytes]
  rfl

/-- The bytes of a piece of a row, gathered; or the row, with its last word. -/
theorem Mod.apWrite_one {m : Mod} {k off : Nat} {data : List Byte} (hst : (m.part k).selStore ≠ 3) (h0 : 0 < data.length)
    (hrow : off % rowBytes (m.part k).selStore + data.length ≤ rowBytes (m.part k).selStore)
    (hstore : (m.part k).selRow + off / rowBytes (m.part k).selStore < storeRows (m.part k).selStore)
    (hgather : (m.part k).gather = none) (e : Ecc) :
    let row := (m.part k).selRow + off / rowBytes (m.part k).selStore
    let bytes := gathered [] (off % rowBytes (m.part k).selStore) data
    m.apWrite k off data e =
      if rowBytes (m.part k).selStore - 4 < off % rowBytes (m.part k).selStore + data.length then
        (m.modPart k fun p => { p with gather := none }).apRequest k
          (.commit (m.part k).selStore (m.part k).selTruss row bytes e)
      else m.modPart k fun p => { p with gather := some ⟨row, bytes⟩ } := by
  intro row bytes
  simp only [Mod.apWrite, apPieces_one hst h0 hrow hstore, Mod.forAll_cons, Mod.forAll_nil, List.drop_zero, List.take_length]
  unfold Mod.apWriteRow
  extract_lets n p old bytes' w
  have hpart : n.part k = m.part k := by
    rw [Mod.part_modPart, hgather]
  have hold : old = [] := by
    unfold old p
    rw [hpart, hgather]
  have hbytes : bytes' = bytes := by
    unfold bytes'
    rw [hold]
    rfl
  have hmod (f : Partition → Partition) : n.modPart k f = m.modPart k f := by
    unfold n
    rw [Mod.modPart_modPart]
    exact Mod.modPart_congr (by rw [hgather])
  rw [hbytes]
  unfold w p
  rw [hpart, hmod, hmod]

/-- Words that are lost set `LOST`. -/
theorem Partition.loseGather_spec (p : Partition) : p.loseGather.trusses = p.trusses ∧
    ∀ hi lo, hi < 31 → getF (p.loseGather.reg offHostSel) hi lo = getF (p.reg offHostSel) hi lo := by
  unfold Partition.loseGather
  split
  · refine ⟨rfl, fun hi lo h31 => ?_⟩
    change getF ((p.flag offHostSel 31).reg offHostSel) hi lo = _
    rw [Partition.reg_flag]
    exact getF_setB_above _ true (by decide) h31
  · exact ⟨rfl, fun _ _ _ => rfl⟩

/-- A write of `DMA_HOST_SEL` selects what it names, and no word of a truss moves. -/
theorem Partition.hostSelWrite_spec (p : Partition) (value : Word) :
    (p.hostSelWrite value).selStore = getF value 2 1 ∧ (p.hostSelWrite value).selTruss = getF value 3 3 ∧
      (p.hostSelWrite value).selRow = getF value 30 17 ∧ (p.hostSelWrite value).trusses = p.trusses := by
  let v := setF (setF (p.reg offHostSel) 30 17 (getF value 30 17)) 3 1 (getF value 3 1)
  let q := p.setReg offHostSel (if getB value 31 then setB v 31 false else v)
  have hq : ∀ hi lo, hi < 31 → getF (q.reg offHostSel) hi lo = getF v hi lo := by
    intro hi lo h31
    rw [Partition.reg_setReg]
    split
    · exact getF_setB_above _ _ (by decide) h31
    · rfl
  have hwrite : p.hostSelWrite value = if v = p.reg offHostSel then q else q.loseGather := rfl
  obtain ⟨htrusses, hlost⟩ := q.loseGather_spec
  have hreg : ∀ hi lo, hi < 31 → getF ((p.hostSelWrite value).reg offHostSel) hi lo = getF v hi lo := by
    intro hi lo h31
    rw [hwrite, ← hq hi lo h31]
    split
    · rfl
    · exact hlost hi lo h31
  have hlow : getF v 3 1 = getF value 3 1 :=
    (getF_setF_same _ _ _ _ (by decide) (by decide)).trans (Nat.mod_eq_of_lt (getF_lt ..))
  refine ⟨?_, ?_, ?_, ?_⟩
  · rw [Partition.selStore, hreg _ _ (by decide)]
    simp only [getF, bits, Nat.reduceAdd, Nat.reduceSub, Nat.reducePow] at hlow ⊢
    omega
  · rw [Partition.selTruss, hreg _ _ (by decide)]
    simp only [getF, bits, Nat.reduceAdd, Nat.reduceSub, Nat.reducePow] at hlow ⊢
    omega
  · rw [Partition.selRow, hreg _ _ (by decide), getF_setF_other _ _ _ _ _ _ (by decide) (by decide) (by decide),
      getF_setF_same _ _ _ _ (by decide) (by decide)]
    exact Nat.mod_eq_of_lt (getF_lt ..)
  · rw [hwrite]
    split
    · rfl
    · exact htrusses

theorem rowBytes_eq (st : Nat) : rowBytes st = 512 ∨ rowBytes st = 1024 := by
  unfold rowBytes
  split
  · exact .inr rfl
  · exact .inl rfl

/-- The last word of a row reads back, and every other byte of its store stands. -/
theorem Partition.lastWord_written (p : Partition) (row : Nat) {data : List Byte} (hlen : data.length = 8) :
    let at' := row * rowBytes p.selStore + rowBytes p.selStore - 8
    let q := p.modTruss p.selTruss fun u => u.write p.selStore at' data
    (q.truss p.selTruss).read p.selStore at' 8 = data ∧
      ∀ a, (a < at' ∨ row * rowBytes p.selStore + rowBytes p.selStore ≤ a) →
        Sparse.get a ((q.truss p.selTruss).cells p.selStore) = Sparse.get a ((p.truss p.selTruss).cells p.selStore) := by
  intro at' q
  have hw := rowBytes_eq p.selStore
  have hword : 8 ∣ at' := by
    have hrow : 8 ∣ row * rowBytes p.selStore := Dvd.dvd.mul_left (by rcases hw with h | h <;> simp [h]) row
    omega
  have hcells : (q.truss p.selTruss).cells p.selStore = Cells.write ((p.truss p.selTruss).cells p.selStore) at' data := by
    rw [Partition.truss_modTruss, Truss.cells_write_word _ _ hword hlen]
  refine ⟨?_, fun a ha => ?_⟩
  · rw [Truss.read, hcells, ← hlen, Cells.read_write_same]
  · rw [hcells]
    exact Cells.get_write_out _ _ _ _ (by omega)

/-- The last word of a row, with no other word of it gathered, is written at once where the port has a free position. -/
theorem Mod.apWrite_lastWord {m : Mod} {k off : Nat} {data : List Byte} (hst : (m.part k).selStore ≠ 3)
    (hlen : data.length = 8) (hat : off % rowBytes (m.part k).selStore = rowBytes (m.part k).selStore - 8)
    (hstore : (m.part k).selRow + off / rowBytes (m.part k).selStore < storeRows (m.part k).selStore)
    (hgather : (m.part k).gather = none) (hqueue : (m.part k).apQueue = [])
    (hfree : (m.part k).apFree (m.part k).selStore (m.part k).selTruss = true) :
    m.apWrite k off data .clean = m.modPart k fun p => { p with gather := none }.modTruss p.selTruss fun u =>
      u.write p.selStore ((p.selRow + off / rowBytes p.selStore) * rowBytes p.selStore + rowBytes p.selStore - 8) data := by
  have hw := rowBytes_eq (m.part k).selStore
  obtain ⟨a, ha, hword⟩ : ∃ a, a < rowBytes (m.part k).selStore / 8 ∧ rowBytes (m.part k).selStore - 8 = 8 * a :=
    ⟨rowBytes (m.part k).selStore / 8 - 1, by omega, by omega⟩
  have hpos : ((m.part k).selRow + off / rowBytes (m.part k).selStore) * rowBytes (m.part k).selStore + 8 * a =
      ((m.part k).selRow + off / rowBytes (m.part k).selStore) * rowBytes (m.part k).selStore +
        rowBytes (m.part k).selStore - 8 := by omega
  rw [Mod.apWrite_one hst (by omega) (by omega) hstore hgather, if_pos (by omega), hat, hword]
  generalize hn : (m.modPart k fun p => { p with gather := none }) = n
  have hn' : n.part k = { m.part k with gather := none } := by rw [← hn, Mod.part_modPart]
  have hready : ((n.part k).apQueue.isEmpty && (n.part k).apFree (m.part k).selStore (m.part k).selTruss) = true := by
    rw [hn']
    exact Bool.and_eq_true_iff.mpr ⟨by simp [hqueue], hfree⟩
  have hact : n.apRequest k (.commit (m.part k).selStore (m.part k).selTruss
      ((m.part k).selRow + off / rowBytes (m.part k).selStore) (gathered [] (8 * a) data) .clean) =
      n.apCommit k (m.part k).selStore (m.part k).selTruss
        ((m.part k).selRow + off / rowBytes (m.part k).selStore) (gathered [] (8 * a) data) .clean := if_pos hready
  rw [hact, Mod.apCommit_word hlen ha, hpos, ← hn, Mod.modPart_modPart]
  exact Mod.modPart_congr rfl

/-- Settles O47: a window by the writes of its control register, the aperture by its pieces. -/
theorem windowsAndAperture : Obligations.WindowsAndAperture := by
  refine ⟨fun s f k w value hw hopen hclose hold => ?_, fun s f k w value hw hclose hold => ?_,
    fun s k w ha hclosing => ⟨fun hidle => ?_, fun hbusy => ?_⟩, fun s f k value hw => ?_,
    fun s k off n hl hb => ?_, fun s k off n e hl hb => ?_, fun s k off data hl hb => ?_, fun s k off data hl hb => ?_⟩
  · have hgives := gives_of_host hw.1 (exec_dmaWinOpen f k w value s)
    rw [if_pos (by simp [hw.2, hopen, hclose]), Mod.winCtrlWrite_open hopen hclose hold] at hgives
    refine ⟨_, hgives, ?_, fun off hoff => ?_, fun j hj => Mod.part_modPart_other _ hj _⟩
    · have hcode := Mod.winErr_lt (s.mod.modPart k.val fun p => p.setReg (offWinCtrl w.val)
        (setF (setF (p.win w.val) 25 15 (getF value 25 15)) 5 0 (getF value 5 0))) k.val w.val
      have herr : (s.mod.modPart k.val fun p => p.setReg (offWinCtrl w.val)
          (setF (setF (p.win w.val) 25 15 (getF value 25 15)) 5 0 (getF value 5 0))).winErr k.val w.val =
          (s.mod.modPart k.val fun p => p.setReg (offWinCtrl w.val) (setF (setF ((s.mod.part k.val).win w.val) 25 15
            (getF value 25 15)) 5 0 (getF value 5 0))).winErr k.val w.val :=
        congrArg (fun n : Mod => n.winErr k.val w.val) (Mod.modPart_congr rfl)
      rw [herr] at hcode ⊢
      generalize (s.mod.modPart k.val fun p => p.setReg (offWinCtrl w.val) (setF (setF ((s.mod.part k.val).win w.val) 25 15
        (getF value 25 15)) 5 0 (getF value 5 0))).winErr k.val w.val = err at hcode ⊢
      dsimp only
      rw [Mod.part_modPart, Partition.win, Partition.reg_setReg]
      obtain ⟨hshare, hsource, hcodes, hbit⟩ := winOpened_spec ((s.mod.part k.val).win w.val) value hcode
      exact ⟨hshare, hsource, by rw [hbit, hcodes], hcodes⟩
    · rw [Mod.part_modPart]
      exact Partition.reg_setReg_other _ hoff _
  · have hgives := gives_of_host hw.1 (exec_dmaWinClose f k w value s)
    obtain ⟨v, hv, hwrite⟩ := Mod.winCtrlWrite_close hclose hold
    rw [if_pos (by simp [hw.2, hclose]), hwrite] at hgives
    refine ⟨_, hgives, ?_, ?_, fun off hoff => ?_⟩
    · rw [Mod.part_modPart, Partition.win, Partition.reg_setReg, getB_setB_same _ _ _ (by decide)]
    · rw [Mod.part_modPart, Partition.win, Partition.reg_setReg, winOpen, getB_setB_other _ _ (by decide) (by decide)]
      exact hv
    · rw [Mod.part_modPart]
      exact Partition.reg_setReg_other _ hoff _
  · have hgives := gives_of_alive ha (exec_dmaWinCloseDone k w s)
    rw [if_pos (by simp [hclosing, hidle])] at hgives
    have hwin : (((s.mod.modPart k.val fun p => p.setFld (offWinCtrl w.val) 31 30 0).apDrain k.val).part k.val).win w.val =
        setF ((s.mod.part k.val).win w.val) 31 30 0 := by
      rw [Partition.win, Mod.reg_apDrain _ _ (by simp only [offWinCtrl, offSpEcc]; omega), Mod.part_modPart,
        Partition.reg_setFld]
      rfl
    refine ⟨_, hgives, ?_, ?_, fun hqueue => ?_⟩
    · rw [hwin, winOpen, getB_setF _ _ _ (by decide) (by decide)]
      rfl
    · rw [hwin, getB_setF _ _ _ (by decide) (by decide)]
      rfl
    · have hidle : (s.mod.modPart k.val fun p => p.setFld (offWinCtrl w.val) 31 30 0).apDrain k.val =
          s.mod.modPart k.val fun p => p.setFld (offWinCtrl w.val) 31 30 0 := by
        rw [Mod.apDrain, Mod.part_modPart, Partition.apQueue_setFld, hqueue]
        rfl
      rw [hidle, Mod.part_modPart]
      rfl
  · have hgives := gives_of_alive ha (exec_dmaWinCloseDone k w s)
    rwa [if_neg (by simp [hbusy])] at hgives
  · have hgives := gives_of_host hw.1 (exec_dmaHostSelWrite f k value s)
    rw [if_pos hw.2] at hgives
    obtain ⟨hstore, htruss, hrow, htrusses⟩ := (s.mod.part k.val).hostSelWrite_spec value
    refine ⟨_, hgives, ?_, ?_, ?_, ?_, fun j hj => Mod.part_modPart_other _ hj _⟩
    · rw [Mod.part_modPart, hstore]
    · rw [Mod.part_modPart, htruss]
    · rw [Mod.part_modPart, hrow]
    · rw [Mod.part_modPart, htrusses]
  · intro p w a hst h0 hrow hstore hgood hqueue hfree
    have hgives := gives_of_host hl (exec_hostApertureRead k off n .clean s)
    have hready : (p.apQueue.isEmpty && p.apFree p.selStore p.selTruss) = true := by simp [hqueue, hfree]
    have hact : s.mod.apRequest k.val (.read p.selStore p.selTruss p.selRow off.val n .clean) =
        s.mod.apRead k.val p.selStore p.selTruss p.selRow off.val n .clean := if_pos hready
    rw [if_pos hb, hact, Mod.apRead_one hst h0 hrow hstore hgood] at hgives
    exact hgives
  · intro p hbusy
    have hgives := gives_of_host hl (exec_hostApertureRead k off n e s)
    have hwait : ¬ (p.apQueue.isEmpty && p.apFree p.selStore p.selTruss) = true := by
      rcases hbusy with h | h <;> simp [h]
    have hact : s.mod.apRequest k.val (.read p.selStore p.selTruss p.selRow off.val n e) = s.mod.modPart k.val fun q =>
        { q with apQueue := q.apQueue ++ [.read p.selStore p.selTruss p.selRow off.val n e] } := if_neg hwait
    rw [if_pos hb, hact] at hgives
    refine hgives.trans ?_
    exact congrArg (fun m => Host.Outcome.next { s with mod := m }) (Mod.modPart_congr rfl)
  · dsimp only
    intro hst h0 h512 hfit hstore hgather
    have hw := rowBytes_eq (s.mod.part k.val).selStore
    have hgives := gives_actWrite hl h0 h512 (exec_hostApertureWrite k off data .clean s)
    rw [if_pos hb, Mod.apWrite_one hst h0 (by omega) hstore hgather, if_neg (by omega)] at hgives
    refine ⟨_, _, hgives, congrArg Partition.gather (Mod.part_modPart ..), rfl, fun i hi => ?_, ?_,
      fun j hj => Mod.part_modPart_other _ hj _⟩
    · rw [find_gathered, if_pos ⟨by omega, by omega⟩, Nat.add_sub_cancel_left]
    · rw [Mod.part_modPart]
  · dsimp only
    intro hst hlen hat hstore hgather hqueue hfree
    have hgives := gives_actWrite hl (by omega) (by omega) (exec_hostApertureWrite k off data .clean s)
    rw [if_pos hb, Mod.apWrite_lastWord hst hlen hat hstore hgather hqueue hfree] at hgives
    obtain ⟨hread, hother⟩ := Partition.lastWord_written { s.mod.part k.val with gather := none }
      ((s.mod.part k.val).selRow + off.val / rowBytes (s.mod.part k.val).selStore) hlen
    refine ⟨_, hgives, ?_, ?_, fun a ha => ?_, ?_, fun j hj => Mod.part_modPart_other _ hj _⟩
    · rw [Mod.part_modPart]
      rfl
    · rw [Mod.part_modPart]
      exact hread
    · rw [Mod.part_modPart]
      exact hother a ha
    · rw [Mod.part_modPart]
      rfl

end Sys2Proof.Machine
end

section
/-!
PROOFS. Links, their training and their lanes (15 R327, R328, R345 to R348).
-/

namespace Sys2Proof.Machine
open Claims

/-! ### What sending leaves of the links (15 R331, R333) -/

/-- A link without the frames that it holds and the marks of what it has sent. -/
def Link.wire (l : Link) : Link := { l with txSeq := 0, replay := [], sendQ := [], lastPath := 0, again := [] }

/-- `n` has the links of `m`, but for the frames that they send, and has sent all that `m` has. -/
structure Mod.Wired (m n : Mod) : Prop where
  wire : ∀ i, (n.link i).wire = (m.link i).wire
  sent : ∀ x ∈ m.out, x ∈ n.out

section
variable {m n : Mod}

theorem Mod.Wired.refl (m : Mod) : m.Wired m := ⟨fun _ => rfl, fun _ hx => hx⟩

theorem Mod.Wired.trans {l : Mod} (h : m.Wired n) (h' : n.Wired l) : m.Wired l :=
  ⟨fun i => (h'.wire i).trans (h.wire i), fun x hx => h'.sent x (h.sent x hx)⟩

theorem Mod.wired_of_same (hl : n.links = m.links) (ho : n.out = m.out) : m.Wired n :=
  ⟨fun i => by simp only [Mod.link, hl], fun x hx => ho ▸ hx⟩

theorem Mod.wired_forAll {α : Type} {f : Mod → α → Mod} (h : ∀ (m : Mod) x, m.Wired (f m x)) (xs : List α) (m : Mod) :
    m.Wired (m.forAll f xs) :=
  Mod.forAll_keeps (P := fun n => m.Wired n) (fun n x hn => hn.trans (h n x)) xs m (.refl m)

theorem Mod.wired_ite (c : Prop) [Decidable c] {l : Mod} (h : m.Wired n) (h' : m.Wired l) : m.Wired (if c then n else l) := by
  split
  · exact h
  · exact h'

end

section
variable (m : Mod) (k c n : Nat)

theorem Mod.wired_send (x : Sent) : m.Wired (m.send x) := ⟨fun _ => rfl, fun _ hx => List.mem_append_left _ hx⟩

theorem Mod.mem_send (x : Sent) : x ∈ (m.send x).out := List.mem_append_right _ (List.mem_singleton_self x)

theorem Mod.wired_modPart (f : Partition → Partition) : m.Wired (m.modPart k f) := Mod.wired_of_same rfl rfl

theorem Mod.wired_chipCount (off hi lo d : Nat) : m.Wired (m.chipCount off hi lo d) := Mod.wired_of_same rfl rfl

theorem Mod.wired_modLink {f : Link → Link} (hf : ∀ l, (f l).wire = l.wire) : m.Wired (m.modLink n f) := by
  refine ⟨fun i => ?_, fun x hx => hx⟩
  simp only [Mod.link, Mod.modLink]
  by_cases h : i = n
  · subst h
    rw [Table.get_modify_same, hf]
  · rw [Table.get_modify_other _ h]

theorem Mod.wired_msix (f : Fn) (v : Nat) : m.Wired (m.msix f v) := by
  unfold Mod.msix
  extract_lets there key e
  split
  · split
    · exact Mod.wired_of_same rfl rfl
    · exact m.wired_send _
  · exact .refl m

/-! #### Partitions -/

theorem Mod.wired_notice (code resv obj state : Nat) : m.Wired (m.notice k code resv obj state) := by
  unfold Mod.notice
  extract_lets p body
  refine Mod.wired_ite _ (.refl m) (Mod.wired_ite _ ?_ (Mod.wired_ite _ (m.wired_modPart k _) (m.wired_modPart k _)))
  exact (m.wired_modPart k _).trans (Mod.wired_msix ..)

theorem Mod.wired_memCondition (chan : Nat) : m.Wired (m.memCondition k chan) :=
  Mod.wired_ite _ (.refl m) ((m.wired_modPart k _).trans (Mod.wired_notice ..))

theorem Mod.wired_eccError (g chan : Nat) (scrub : Bool) : m.Wired (m.eccError k g chan scrub) :=
  (m.wired_modPart k _).trans (Mod.wired_memCondition ..)

theorem Mod.wired_writeGranule (key loc : Nat) (bs : List Byte) (poison : Bool) (e : Ecc) :
    m.Wired (m.writeGranule k key loc bs poison e) := by
  unfold Mod.writeGranule
  dsimp only
  split
  · exact m.wired_modPart k _
  · split
    · exact (m.wired_modPart k _).trans (Mod.wired_eccError ..)
    · exact m.wired_modPart k _
    · exact m.wired_modPart k _

theorem Mod.wired_memWrite (key loc : Nat) (bs : List Byte) (bad : List Nat) (e : Ecc) :
    m.Wired (m.memWrite k key loc bs bad e) :=
  Mod.wired_forAll (fun m _ => m.wired_writeGranule ..) _ m

theorem Mod.wired_commitEntry (w : MirrorWait) : m.Wired (m.commitEntry k w) :=
  ((m.wired_memWrite ..).trans (Mod.wired_modPart ..)).trans (Mod.wired_modPart ..)

theorem Mod.wired_releaseWaits (mask : Nat) : m.Wired (m.releaseWaits mask) :=
  Mod.wired_forAll (fun m k => (Mod.wired_forAll (fun m w => m.wired_commitEntry k w) _ m).trans (Mod.wired_modPart ..)) _ m

theorem Mod.wired_signals (xs : List Signal) : m.Wired (m.signals xs) :=
  (Mod.wired_forAll (fun m (x : Signal) => m.wired_modPart x.part _) xs m).trans (Mod.wired_of_same rfl rfl)

theorem Mod.wired_bindSignal (b : Binding) (t : Dword) : m.Wired (m.bindSignal b t) :=
  Mod.wired_forAll (fun m _ => m.wired_signals _) _ m

/-! #### Frames -/

theorem Mod.wired_frameMsg (f : OutFrame) : m.Wired (m.frameMsg n f).2 := by
  unfold Mod.frameMsg
  split
  · exact Mod.wired_of_same rfl rfl
  · exact .refl m

theorem Mod.wired_placeFrame (f : OutFrame) : m.Wired (m.placeFrame n f) := by
  unfold Mod.placeFrame
  split
  next msg n₁ hmsg =>
    extract_lets seq type g ls lane n₂ n₃
    have h₁ : m.Wired n₁ := by
      have h := m.wired_frameMsg n f
      rwa [hmsg] at h
    have h₂ : m.Wired n₂ := by
      unfold n₂
      split
      · exact h₁.trans (Mod.wired_send ..)
      · exact h₁
    have h₃ : m.Wired n₃ := by
      refine (h₂.trans ?_).trans (Mod.wired_send ..)
      exact Mod.wired_modLink _ _ fun _ => rfl
    split
    · exact h₃.trans (Mod.wired_send ..)
    · exact h₃

theorem Mod.wired_linkPump : m.Wired (m.linkPump n) := by
  refine Mod.wired_forAll (fun m _ => ?_) _ m
  dsimp only
  split
  · exact .refl m
  · split
    · exact .refl m
    · refine .trans ?_ (Mod.wired_placeFrame ..)
      exact Mod.wired_modLink _ _ fun _ => rfl

theorem Mod.wired_portPump (p : Nat) : m.Wired (m.portPump p) := by
  refine Mod.wired_forAll (fun m _ => ?_) _ m
  dsimp only
  split
  · split
    · refine .trans ?_ (Mod.wired_placeFrame ..)
      exact Mod.wired_of_same rfl rfl
    · exact .refl m
  · exact .refl m

theorem Mod.wired_bindStep (i b : Nat) : m.Wired (m.bindStep i b) := by
  unfold Mod.bindStep
  split
  · exact .refl m
  · split
    · split
      · refine .trans ?_ (Mod.wired_placeFrame ..)
        exact Mod.wired_of_same rfl rfl
      · exact .refl m
    · exact .refl m

theorem Mod.wired_bindPump (i : Nat) : m.Wired (m.bindPump i) := by
  unfold Mod.bindPump
  split
  · exact .refl m
  · exact Mod.wired_forAll (fun m _ => Mod.wired_forAll (fun m b => m.wired_bindStep i b) _ m) _ m

theorem Mod.wired_pump : m.Wired (m.pump n) := by
  unfold Mod.pump
  extract_lets n₁
  have h₁ : m.Wired n₁ := (m.wired_linkPump n).trans (Mod.wired_portPump ..)
  split
  · exact h₁.trans (Mod.wired_bindPump ..)
  · exact h₁

theorem Mod.wired_resend (f : LinkFrame × Nat → Bool) : m.Wired (m.resend n f) := by
  unfold Mod.resend
  refine Mod.wired_ite _ (.refl m) (Mod.wired_ite _ (m.wired_modLink n fun _ => rfl) ?_)
  refine Mod.wired_forAll (fun m e => Mod.wired_ite _ ?_ (.refl m)) _ m
  refine .trans (.trans ?_ (Mod.wired_chipCount ..)) (Mod.wired_send ..)
  exact Mod.wired_modLink _ _ fun _ => rfl

theorem Mod.wired_resumeLink : m.Wired (m.resumeLink n) := by
  refine .trans (.trans ?_ (Mod.wired_resend ..)) (Mod.wired_pump ..)
  exact Mod.wired_modLink _ _ fun _ => rfl

theorem Mod.wired_sendNaks (seqs : List Nat) : m.Wired (m.sendNaks n seqs) :=
  Mod.wired_forAll (fun m _ => m.wired_send _) _ m

/-! #### Lanes and bindings -/

theorem Mod.wired_lanesChanged (was : Bool) : m.Wired (m.lanesChanged n was) := by
  have hnotice (m : Mod) (state : Nat) : m.Wired (m.noticeLink n state) := by
    refine Mod.wired_forAll (fun m k => Mod.wired_ite _ (.refl m) (Mod.wired_ite _ (m.wired_notice ..) ?_)) _ m
    exact Mod.wired_forAll (fun m e => m.wired_notice ..) _ m
  have hvoid : m.Wired (m.voidLane n) :=
    Mod.wired_forAll (fun m k => Mod.wired_forAll (fun m e => Mod.wired_ite _ (m.wired_modPart ..) (.refl m)) _ m) _ m
  exact Mod.wired_ite _ (hvoid.trans (hnotice ..)) (Mod.wired_ite _ (hnotice ..) (.refl m))

theorem Mod.wired_sisterQueue (b part : Nat) (msg : List Byte) (bad : List Nat) : m.Wired (m.sisterQueue b part msg bad) := by
  unfold Mod.sisterQueue Mod.sisterSend
  split
  · exact .refl m
  · split
    · exact .refl m
    · refine .trans ?_ (Mod.wired_bindPump ..)
      exact Mod.wired_of_same rfl rfl

theorem Mod.wired_breakBind (b cause : Nat) (tell : Bool) : m.Wired (m.breakBind b cause tell) := by
  unfold Mod.breakBind
  split
  · exact .refl m
  next x _ =>
    refine Mod.wired_ite _ (.refl m) ?_
    extract_lets n₁ n₂
    have h₂ : m.Wired n₂ := by
      unfold n₂
      split
      · refine .trans ?_ (Mod.wired_sisterQueue ..)
        exact Mod.wired_of_same rfl rfl
      · exact Mod.wired_of_same rfl rfl
    refine Mod.wired_ite _ (h₂.trans (Mod.wired_of_same rfl rfl)) ?_
    refine h₂.trans (.trans (.trans ?_ (Mod.wired_releaseWaits ..)) (Mod.wired_bindSignal ..))
    exact Mod.wired_of_same rfl rfl

end

section
variable (m : Mod) (n : Nat)

@[simp] theorem Mod.link_setLinks (l : Link) : ({ m with links := Table.set n l m.links } : Mod).link n = l :=
  Table.get_set_same ..

end

/-! ### Training (15 R327, R328, R347) -/

section
variable {m : Mod} {n : Nat} {q : LinkPartner}

theorem Mod.linkTrain_refused (hdown : (m.link n).live = 0) (h : m.portRule n q = false) :
    ((m.linkTrain n q).link n).live = 0 ∧ ((m.linkTrain n q).link n).miscable = true := by
  have htrain : m.linkTrain n q = m.modLink n Link.reject := by simp [Mod.linkTrain, h, hdown]
  rw [htrain, Mod.link_modLink]
  exact ⟨rfl, rfl⟩

/-- The link as it comes up, before its place is judged. -/
def Mod.comesUp (m : Mod) (n : Nat) (q : LinkPartner) : Mod :=
  ({ m with links := Table.set n { Link.reset with
    partner := some q, trained := true, live := q.lanes &&& ~~~(m.link n).lostLanes, lossTimes := (m.link n).lossTimes
    lostLanes := (m.link n).lostLanes } m.links }).sendIdentity n

theorem Mod.linkTrain_accepted (hnone : (m.link n).partner = none) (h : m.portRule n q = true)
    (hlanes : q.lanes &&& ~~~(m.link n).lostLanes ≠ 0) :
    ((m.comesUp n q).placeLink n).Wired (m.linkTrain n q) := by
  have htrain : m.linkTrain n q =
      ((((m.comesUp n q).placeLink n).resend n fun _ => true).pump n).lanesChanged n (m.laneSecond n) := by
    simp only [Mod.linkTrain, h, hnone, Bool.not_true, Bool.false_eq_true, if_false, Option.isSome_none, Bool.false_and,
      if_neg hlanes]
    rfl
  rw [htrain]
  exact (Mod.wired_resend ..).trans ((Mod.wired_pump ..).trans (Mod.wired_lanesChanged ..))

end

theorem Mod.link_comesUp (m : Mod) (n : Nat) (q : LinkPartner) : (m.comesUp n q).link n =
    { Link.reset with
      partner := some q, trained := true, live := q.lanes &&& ~~~(m.link n).lostLanes, lossTimes := (m.link n).lossTimes
      lostLanes := (m.link n).lostLanes } :=
  Mod.link_setLinks ..

theorem Mod.placeLink_comesUp (m : Mod) (n : Nat) (q : LinkPartner) : (m.comesUp n q).placeLink n =
    if m.coordsKnown q && !m.coordRule n q then (m.comesUp n q).modLink n Link.reject
    else (m.comesUp n q).modLink n fun l => { l with coordOk := m.coordsKnown q, miscable := false } := by
  rw [Mod.placeLink, Mod.link_comesUp]
  rfl

/-! ### Lanes (15 R345 to R348) -/

theorem Mod.wired_fecCount (m : Mod) (n : Nat) : m.Wired (m.fecCount n) := by
  unfold Mod.fecCount Mod.chipCountSome
  split
  next d m' hdraw =>
    obtain ⟨-, rfl⟩ := Prod.mk.inj hdraw
    refine .trans ?_ (Mod.wired_chipCount ..)
    exact Mod.wired_of_same rfl rfl

/-- A lane that carries is lost. -/
theorem Mod.laneLoss_live {m : Mod} {n i : Nat} (h : bit (m.link n).live.toNat i = true) :
    ((m.laneLoss n i).link n).live = setLane (m.link n).live i false ∧ ((m.laneLoss n i).link n).widening = false ∧
      .squelch n i ∈ (m.laneLoss n i).out := by
  unfold Mod.laneLoss
  extract_lets l fails m₀ was second times held n₁ n₂ n₃ n₄ n₅
  rw [if_neg (by simp [l, h])]
  have hlink : (n₁.link n).live = setLane (m.link n).live i false ∧ (n₁.link n).widening = false := by
    unfold n₁
    rw [Mod.link_modLink]
    exact ⟨rfl, rfl⟩
  have h₂ : n₁.Wired n₂ := Mod.wired_ite _ (Mod.wired_of_same rfl rfl) (.refl n₁)
  have h₃ : n₂.Wired n₃ := (Mod.wired_fecCount ..).trans ((Mod.wired_chipCount ..).trans (Mod.wired_send ..))
  have hsquelch : .squelch n i ∈ n₃.out := Mod.mem_send ..
  have h₅ : n₃.Wired n₅ := (Mod.wired_sendNaks ..).trans
    ((Mod.wired_resend ..).trans ((Mod.wired_resumeLink ..).trans (Mod.wired_lanesChanged ..)))
  have hend : ∀ x, n₅.Wired x → (x.link n).live = setLane (m.link n).live i false ∧ (x.link n).widening = false ∧
      .squelch n i ∈ x.out := by
    intro x hx
    have hwire := (((h₂.trans h₃).trans h₅).trans hx).wire n
    exact ⟨(congrArg Link.live hwire).trans hlink.1, (congrArg Link.widening hwire).trans hlink.2,
      hx.sent _ (h₅.sent _ hsquelch)⟩
  split
  · exact hend _ (Mod.wired_forAll (fun m e => Mod.wired_ite _ (m.wired_breakBind ..) (.refl m)) _ n₅)
  · exact hend _ (.refl n₅)

theorem Link.same_lanes {l k : Link} (h : l.wire = k.wire) :
    l.live = k.live ∧ l.standby = k.standby ∧ l.widening = k.widening := by
  simp only [Link.wire, Link.mk.injEq] at h
  obtain ⟨-, -, -, -, hlive, hstandby, -, -, hwidening, -⟩ := h
  exact ⟨hlive, hstandby, hwidening⟩

theorem Mod.link_resumeLink (m : Mod) (n : Nat) (f : Link → Link) :
    (((m.modLink n f).resumeLink n).link n).wire = (f (m.link n)).wire := by
  rw [← Mod.link_modLink m n f]
  exact (Mod.wired_resumeLink ..).wire n

/-- A lane that carries nothing no longer stands by. -/
theorem Mod.laneLoss_quiet {m : Mod} {n i : Nat} (h : bit (m.link n).live.toNat i = false) :
    ((m.laneLoss n i).link n).live = (m.link n).live ∧
      ((m.laneLoss n i).link n).standby = setLane (m.link n).standby i false := by
  unfold Mod.laneLoss
  extract_lets l fails m₁
  rw [if_pos (by simp [l, h])]
  have hlink : m₁.link n = { m.link n with standby := setLane (m.link n).standby i false } := Mod.link_modLink ..
  clear_value m₁
  split
  · obtain ⟨hlive, hstandby, -⟩ := Link.same_lanes (Mod.link_resumeLink m₁ n fun l => { l with widening := false, peerQuiet := false })
    rw [hlive, hstandby, hlink]
    exact ⟨rfl, rfl⟩
  · rw [hlink]
    exact ⟨rfl, rfl⟩

/-! ### Widening (15 R348) -/

theorem Mod.linkWiden_spec {m : Mod} {n : Nat} {q : LinkPartner} (hq : (m.link n).partner = some q) :
    m.linkWiden n = if m.mayWiden n then
      (if decide (Config.serialHash < q.hash) && (m.link n).peerQuiet then
        (m.modLink n fun l => { l with widening := true }).sendLane n true false true
      else m.sendLane n false false true) else m := by
  unfold Mod.linkWiden
  rw [hq]
  cases m.mayWiden n <;> rfl

/-- A link that changes and then tells its lanes. -/
theorem Mod.sendLane_modLink (m : Mod) (n : Nat) (f : Link → Link) (widen ack quiet : Bool) :
    ((m.modLink n f).sendLane n widen ack quiet).link n = f (m.link n) ∧
      ((m.modLink n f).sendLane n widen ack quiet).out =
        m.out ++ [.linkLane n (f (m.link n)).live (f (m.link n)).standby widen ack quiet] := by
  refine ⟨Mod.link_modLink .., ?_⟩
  rw [← Mod.link_modLink m n f]
  rfl

theorem Mod.widening_of_mayWiden {m : Mod} {n : Nat} (h : m.mayWiden n = true) : (m.link n).widening = false := by
  simp only [Mod.mayWiden, Bool.and_eq_true, Bool.not_eq_true'] at h
  exact h.1.1.2

/-- Settles O32: beyond what a link does itself, its frames go out, which moves no lane. -/
theorem linksAndLanes : Obligations.LinksAndLanes := by
  refine ⟨fun p ll hp hll => ?_, fun s n q hon hlow hhigh hnone hdown => ⟨fun hport => ?_, fun hport hlanes hcoord => ?_, fun hport hlanes hknown hcoord => ?_⟩,
    fun s n i ha hpartner => ⟨fun hlive => ?_, fun hlive => ?_⟩, fun s n i ha => ⟨fun hup hlive hlost => ?_, fun hlost => ?_⟩,
    fun s n q ha hpartner => ?_, fun s n ok ha => ⟨fun hw => ?_, fun hw => ?_⟩,
    fun s n lv sb w a q ha => ⟨fun hup => ?_, fun hup => ?_⟩, fun s n hl => ?_, fun s n f hl hf => ?_⟩
  · unfold portOf bayOfLink
    omega
  · have hgives := gives_of_act hon (exec_linkTrain n q s)
    rw [if_pos ⟨hlow, hhigh⟩] at hgives
    exact ⟨_, hgives, Mod.linkTrain_refused hdown hport⟩
  · have hgives := gives_of_act hon (exec_linkTrain n q s)
    rw [if_pos ⟨hlow, hhigh⟩] at hgives
    obtain ⟨hwire, hsent⟩ := Mod.linkTrain_accepted hnone hport hlanes
    have hplace : ¬ (s.mod.coordsKnown q && !s.mod.coordRule n.val q) = true := by
      cases hk : s.mod.coordsKnown q <;> simp_all
    rw [Mod.placeLink_comesUp, if_neg hplace] at hwire hsent
    have hlink := hwire n.val
    rw [Mod.link_modLink, Mod.link_comesUp] at hlink
    exact ⟨_, hgives, congrArg Link.partner hlink, congrArg Link.trained hlink, congrArg Link.live hlink,
      congrArg Link.coordOk hlink, hsent _ (Mod.mem_send ..)⟩
  · have hgives := gives_of_act hon (exec_linkTrain n q s)
    rw [if_pos ⟨hlow, hhigh⟩] at hgives
    obtain ⟨hwire, -⟩ := Mod.linkTrain_accepted hnone hport hlanes
    rw [Mod.placeLink_comesUp, if_pos (by simp [hknown, hcoord])] at hwire
    have hlink := hwire n.val
    rw [Mod.link_modLink] at hlink
    exact ⟨_, hgives, congrArg Link.live hlink, congrArg Link.miscable hlink⟩
  · have hgives := gives_of_alive ha (exec_laneLoss n i s)
    rw [if_pos hpartner] at hgives
    exact ⟨_, hgives, Mod.laneLoss_live hlive⟩
  · have hgives := gives_of_alive ha (exec_laneLoss n i s)
    rw [if_pos hpartner] at hgives
    exact ⟨_, hgives, Mod.laneLoss_quiet hlive⟩
  · have hgives := gives_of_alive ha (exec_laneStandbyReady n i s)
    simpa [hup, hlive, hlost] using hgives
  · have hgives := gives_of_alive ha (exec_laneStandbyReady n i s)
    simpa [hlost] using hgives
  · have hgives := gives_of_alive ha (exec_linkWiden n s)
    rw [Mod.linkWiden_spec hpartner] at hgives
    refine ⟨fun hmay => ?_, fun hmay => ?_⟩
    · rw [if_pos hmay] at hgives
      refine ⟨_, hgives, ?_⟩
      split
      next hfirst =>
        obtain ⟨hlink, hsent⟩ := Mod.sendLane_modLink s.mod n.val (fun l => { l with widening := true }) true false true
        rw [hlink, hsent, hfirst]
        exact ⟨rfl, rfl⟩
      next hsecond =>
        rw [Bool.not_eq_true] at hsecond
        rw [hsecond]
        exact ⟨Mod.widening_of_mayWiden hmay, rfl⟩
    · rwa [if_neg (by simp [hmay])] at hgives
  · have hgives := gives_of_alive ha (exec_linkWidenDone n ok s)
    rw [if_pos hw] at hgives
    refine ⟨_, hgives, ?_⟩
    obtain ⟨hlive, hstandby, hwidening⟩ := Link.same_lanes
      (((Mod.wired_lanesChanged _ n.val (s.mod.laneSecond n.val)).wire n.val).trans (Mod.link_resumeLink ..))
    exact ⟨hwidening, hstandby, hlive⟩
  · have hgives := gives_of_alive ha (exec_linkWidenDone n ok s)
    simpa [hw] using hgives
  · have hgives := gives_of_alive ha (exec_laneEntryRx n lv sb w a q s)
    simp only [hup, Bool.not_true, Bool.false_eq_true, if_false] at hgives
    refine ⟨_, hgives, ?_⟩
    obtain ⟨hlink, hsent⟩ := Mod.sendLane_modLink s.mod n.val
      (fun l => { l with peerQuiet := q, widening := l.widening || w && s.mod.mayWiden n.val }) false true true
    split
    next hok =>
      rw [hlink, hsent]
      exact ⟨rfl, rfl, fun _ _ => rfl⟩
    next hno =>
      rw [Mod.link_modLink]
      exact ⟨rfl, rfl, fun h h' => absurd (by simp [h, h']) hno⟩
  · have hgives := gives_of_alive ha (exec_laneEntryRx n lv sb w a q s)
    simpa [hup] using hgives
  · have hgives := gives_of_host hl (exec_laneHeldRelease .pf n s)
    rw [if_pos rfl] at hgives
    refine ⟨_, hgives, ?_, ?_⟩
    · rw [Mod.heldRelease, Mod.link_modLink]
    · have hchip : (s.mod.heldRelease n.val).chipReg (offLinkCtrl n.val) =
          setF (s.mod.chipReg (offLinkCtrl n.val)) 1 1 0 := Mod.chipReg_setChip ..
      rw [hchip, getB_setF _ _ _ le_rfl (by decide)]
      rfl
  · have hgives := gives_of_host hl (exec_laneHeldRelease f n s)
    rwa [if_neg hf] at hgives

end Sys2Proof.Machine
end

section
/-!
PROOFS. Partitions that come and go, their keys, and the mode of their events (04 R113, 17 R371 to R373, R384, 18 R410).
-/

namespace Sys2Proof.Machine
open Claims

/-! ### A partition's registers that outlast it -/

theorem Table.find_filter {α : Type} (g : Nat → Bool) (n : Nat) (t : Table α) :
    Table.find n (t.filter fun (e : Nat × α) => g e.1) = if g n then Table.find n t else none := by
  induction t with
  | nil => simp
  | cons e t ih =>
    obtain ⟨k, v⟩ := e
    rw [List.filter_cons]
    by_cases hk : k = n
    · subst hk
      cases hg : g k <;> simp [Table.find, ih, hg]
    · cases hg : g k <;> simp [Table.find, ih, hk]

theorem Partition.reg_of_filter {p q : Partition} {g : Nat → Bool} (h : q.regs = p.regs.filter fun (e : Nat × Word) => g e.1)
    (off : Nat) : q.reg off = if g off then p.reg off else partRegReset off := by
  rw [Partition.reg, Table.get, h, Table.find_filter]
  cases g off <;> rfl

theorem Partition.reg_cleared (p : Partition) (off : Nat) :
    p.cleared.reg off = if off == offTruss then p.reg off else partRegReset off :=
  Partition.reg_of_filter (g := fun o => o == offTruss) rfl off

theorem Partition.event_cleared (p : Partition) (e : Nat) : p.cleared.event e = 0 := rfl

section
variable (m : Mod) (r : Request) (status detail : Nat) (payload : List Byte)

theorem Mod.part_respond (k : Nat) : (m.respond r status detail payload).part k = m.part k := by
  rw [Mod.part, Mod.parts_respond]
  rfl

theorem Mod.jobs_respond : (m.respond r status detail payload).jobs = m.jobs := by
  obtain ⟨out, pcie, mbx, mgmtBusy, h⟩ := m.respond_eq r status detail payload
  rw [h]

theorem Mod.keySlot_respond (i : Nat) : (m.respond r status detail payload).keySlot i = m.keySlot i := by
  rw [Mod.keySlot, Mod.keys_respond]
  rfl

theorem Mod.parts_finish : (m.finish r status detail payload).parts = m.parts := Mod.parts_respond ..

theorem Mod.keys_finish : (m.finish r status detail payload).keys = m.keys := Mod.keys_respond ..

theorem Mod.binds_respond : (m.respond r status detail payload).binds = m.binds := by
  obtain ⟨out, pcie, mbx, mgmtBusy, h⟩ := m.respond_eq r status detail payload
  rw [h]

theorem Mod.binds_finish : (m.finish r status detail payload).binds = m.binds := Mod.binds_respond ..

end

/-! ### Requests that are judged -/

section
variable {m : Mod} {r : Request} {bad : Option (Nat × Nat)} {ok : Mod → Mod}

theorem Mod.judge_ok (h : bad = none) : m.judge r bad ok = ok m := by rw [h]; rfl

theorem Mod.judge_bad {status detail : Nat} (h : bad = some (status, detail)) : m.judge r bad ok = m.respond r status detail := by
  rw [h]; rfl

end

/-! ### PART_CREATE (17 R371) -/

/-- The partition as it is created in place of `p`. -/
def Partition.createdFor (p : Partition) (tenant key : Nat) : Partition :=
  { p.cleared with created := true, tenant := BitVec.ofNat 16 tenant, reservedKey := key }

section
variable {m : Mod} {r : Request} (h : m.partBad r = none)
include h

theorem Mod.partCreate_spec : ∃ key, key ≠ 0 ∧
    (m.partCreate r).part (pcPart r.payload) = (m.part (pcPart r.payload)).createdFor (pcTenant r.payload) key ∧
    (∀ j, j ≠ pcPart r.payload → (m.partCreate r).part j = m.part j) ∧ (m.partCreate r).keys = m.keys ∧
    (m.partCreate r).jobs = m.jobs := by
  rw [Mod.partCreate, Mod.judge_ok h]
  refine ⟨(m.draw).1 + 1, by simp, ?_, fun j hj => ?_, ?_, ?_⟩
  · rw [Mod.part_respond, Mod.part_modPart]
    rfl
  · rw [Mod.part_respond, Mod.part_modPart_other _ hj]
    rfl
  · rw [Mod.keys_respond]
    rfl
  · rw [Mod.jobs_respond]
    rfl

end

/-! ### PART_DELETE (17 R372, R373) -/

/-- `n` has the partitions, the keys and the bindings of `m`. -/
def Mod.SameKeep (m n : Mod) : Prop := n.parts = m.parts ∧ n.keys = m.keys ∧ n.binds = m.binds

theorem Mod.sameKeep_finish (m : Mod) (r : Request) (status detail : Nat) (payload : List Byte) :
    m.SameKeep (m.finish r status detail payload) :=
  ⟨Mod.parts_finish .., Mod.keys_finish .., Mod.binds_finish ..⟩

theorem Mod.sameKeep_forAll {α : Type} {f : Mod → α → Mod} (h : ∀ (m : Mod) x, m.SameKeep (f m x)) (xs : List α) (m : Mod) :
    m.SameKeep (m.forAll f xs) := by
  refine Mod.forAll_keeps (P := fun n => m.SameKeep n) (fun n x hn => ?_) xs m ⟨rfl, rfl, rfl⟩
  obtain ⟨hparts, hkeys, hbinds⟩ := h n x
  exact ⟨hparts.trans hn.1, hkeys.trans hn.2.1, hbinds.trans hn.2.2⟩

theorem Mod.sameKeep_shardFinish (m : Mod) (k slot status detail : Nat) (payload : List Byte) :
    m.SameKeep (m.shardFinish k slot status detail payload) := by
  unfold Mod.shardFinish
  split
  · exact Mod.sameKeep_finish ..
  · exact ⟨rfl, rfl, rfl⟩

/-- A key slot without the users that a filter takes from it. -/
def KeySlot.rid (f : KeyUse → Bool) (s : KeySlot) : KeySlot := { s with users := s.users.filter fun u => !f u.2 }

theorem Mod.keySlot_keyRelease (m : Mod) (f : KeyUse → Bool) (i : Nat) : (m.keyRelease f).keySlot i = (m.keySlot i).rid f := by
  unfold Mod.keySlot Table.get
  rw [show (m.keyRelease f).keys = m.keys.map fun e => (e.1, e.2.rid f) from rfl, Table.find_mapValues i (fun _ s => KeySlot.rid f s)]
  cases Table.find i m.keys <;> rfl

theorem Mod.apAbandon_eq (m : Mod) (k : Nat) : ∃ read,
    m.apAbandon k = ({ m with read := read }).modPart k fun p => { p with apQueue := [] } := by
  unfold Mod.apAbandon
  dsimp only
  split <;> exact ⟨_, rfl⟩

theorem Mod.dropResvs_eq (m : Mod) (k : Nat) : ∃ fabric,
    m.dropResvs k = ({ m with fabric := fabric }).modPart k fun p => { p with resvs := [] } := by
  obtain ⟨fabric, h⟩ := Mod.forAll_keeps (P := fun n => ∃ fabric, n = { m with fabric := fabric })
    (f := fun m (e : Nat × Reservation) =>
      { m with fabric := e.2.slots.foldl (fun t s => Table.modify 0 s.1 (· - s.2) t) m.fabric })
    (by rintro _ e ⟨fabric, rfl⟩; exact ⟨_, rfl⟩) (m.part k).resvs m ⟨_, rfl⟩
  rw [Mod.dropResvs, h]
  exact ⟨fabric, rfl⟩

theorem Mod.sameKeep_orphanReads (m : Mod) (k : Nat) (chs : List Nat) :
    m.SameKeep (m.forAll (fun m ch => m.orphanReads k ch) chs) :=
  Mod.sameKeep_forAll (f := fun m ch => m.orphanReads k ch) (fun _ _ => ⟨rfl, rfl, rfl⟩) chs m

/-- The partition that goes without its reservations and the requests of its aperture. -/
def Partition.left (p : Partition) : Partition := { p with apQueue := [], resvs := [] }

theorem Mod.apAbandon_spec (m : Mod) (k : Nat) :
    (m.apAbandon k).part k = { m.part k with apQueue := [] } ∧ (∀ j, j ≠ k → (m.apAbandon k).part j = m.part j) ∧
      (m.apAbandon k).keys = m.keys ∧ (m.apAbandon k).binds = m.binds := by
  obtain ⟨read, h⟩ := m.apAbandon_eq k
  rw [h]
  exact ⟨Mod.part_modPart .., fun j hj => Mod.part_modPart_other _ hj _, rfl, rfl⟩

theorem Mod.dropResvs_spec (m : Mod) (k : Nat) :
    (m.dropResvs k).part k = { m.part k with resvs := [] } ∧ (∀ j, j ≠ k → (m.dropResvs k).part j = m.part j) ∧
      (m.dropResvs k).keys = m.keys ∧ (m.dropResvs k).binds = m.binds := by
  obtain ⟨fabric, h⟩ := m.dropResvs_eq k
  rw [h]
  exact ⟨Mod.part_modPart .., fun j hj => Mod.part_modPart_other _ hj _, rfl, rfl⟩

theorem Mod.part_of_parts {m n : Mod} (h : n.parts = m.parts) (k : Nat) : n.part k = m.part k := by
  rw [Mod.part, h]
  rfl

theorem Mod.keyRelease_of_keys {m n : Mod} (h : n.keys = m.keys) (f : KeyUse → Bool) :
    (n.keyRelease f).keys = (m.keyRelease f).keys := by
  rw [Mod.keyRelease, h]
  rfl

/-- Of partitions, keys and bindings only the partition that goes and its uses of keys change. -/
theorem Mod.partLeave_spec (m : Mod) (k : Nat) : ∃ f,
    (m.partLeave k).part k = (m.part k).left ∧ (∀ j, j ≠ k → (m.partLeave k).part j = m.part j) ∧
    (m.partLeave k).keys = (m.keyRelease f).keys ∧ (m.partLeave k).binds = m.binds := by
  obtain ⟨hap, hap', hapKeys, hapBinds⟩ := m.apAbandon_spec k
  obtain ⟨hresv, hresv', hresvKeys, hresvBinds⟩ := (m.apAbandon k).dropResvs_spec k
  obtain ⟨hparts', hkeys', hbinds'⟩ := ((m.apAbandon k).dropResvs k).sameKeep_orphanReads k (List.range 16)
  unfold Mod.partLeave
  dsimp only
  generalize ((m.apAbandon k).dropResvs k).forAll (fun m ch => m.orphanReads k ch) (List.range 16) = n at hparts' hkeys' hbinds' ⊢
  obtain ⟨hparts, hkeys, hbinds⟩ := Mod.sameKeep_forAll
    (f := fun m (e : Nat × Shard) => m.shardFinish k e.1 stPartitionReset 0) (fun m e => m.sameKeep_shardFinish ..)
    (m.part k).shards (n.keyRelease _)
  refine ⟨_, ?_, fun j hj => ?_, hkeys.trans (Mod.keyRelease_of_keys (hkeys'.trans (hresvKeys.trans hapKeys)) _),
    hbinds.trans (hbinds'.trans (hresvBinds.trans hapBinds))⟩
  · rw [Mod.part_of_parts (hparts.trans hparts'), hresv, hap]
    rfl
  · rw [Mod.part_of_parts (hparts.trans hparts'), hresv' j hj, hap' j hj]

/-! ### Keys that nobody uses are erased at once (17 R384) -/

theorem Mod.exists_of_parts {m n : Mod} (h : n.parts = m.parts) (j : Nat) : n.exists? j = m.exists? j := by
  rw [Mod.exists?, Mod.part_of_parts h]
  rfl

theorem Mod.exists_modPart (m : Mod) (k : Nat) {f : Partition → Partition} (hf : (f (m.part k)).created = (m.part k).created)
    (j : Nat) : (m.modPart k f).exists? j = m.exists? j := by
  unfold Mod.exists?
  by_cases h : j = k
  · rw [h, Mod.part_modPart, hf]
  · rw [Mod.part_modPart_other _ h]

theorem Mod.eraseBegin_spec (m : Mod) (slot : Nat) (hb : m.binds = []) :
    (m.eraseBegin slot).keys = (m.modKey slot fun s => { s with state := .erasing }).keys ∧ (m.eraseBegin slot).binds = [] ∧
      ∀ j, (m.eraseBegin slot).exists? j = m.exists? j := by
  unfold Mod.eraseBegin
  generalize allParts = ks
  extract_lets m₁ m₂
  have h₂ : m₂.keys = m₁.keys ∧ m₂.binds = [] ∧ ∀ j, m₂.exists? j = m.exists? j := by
    refine Mod.forAll_keeps (P := fun n => n.keys = m₁.keys ∧ n.binds = [] ∧ ∀ j, n.exists? j = m.exists? j)
      (fun n k hn => ?_) _ m₁ ⟨rfl, hb, fun j => Mod.exists_of_parts (n := m₁) (m := m) rfl j⟩
    split
    · exact ⟨hn.1, hn.2.1, fun j => (n.exists_modPart k rfl j).trans (hn.2.2 j)⟩
    · exact hn
  rw [h₂.2.1]
  exact h₂

theorem Mod.keySlot_of_keys {m n : Mod} (h : n.keys = m.keys) (i : Nat) : n.keySlot i = m.keySlot i := by
  rw [Mod.keySlot, h]
  rfl

theorem Mod.keySlot_modKey_other (m : Mod) {i slot : Nat} (h : i ≠ slot) (f : KeySlot → KeySlot) :
    (m.modKey slot f).keySlot i = m.keySlot i := Table.get_modify_other _ h ..

theorem Mod.eraseNow_unused (m : Mod) (slot : Nat) (hb : m.binds = []) (hu : (m.keySlot slot).users = []) :
    (m.eraseNow slot).binds = [] ∧ (∀ j, (m.eraseNow slot).exists? j = m.exists? j) ∧
      ((m.eraseNow slot).keySlot slot).state = .erasing ∧ ∀ i, i ≠ slot → (m.eraseNow slot).keySlot i = m.keySlot i := by
  unfold Mod.eraseNow
  extract_lets m₁ users hit m₂ m₃
  have h₁ : (m₁.keySlot slot).users = [] ∧ m₁.binds = [] ∧ (∀ j, m₁.exists? j = m.exists? j) ∧
      (m₁.keySlot slot).state = .erasing ∧ ∀ i, i ≠ slot → m₁.keySlot i = m.keySlot i := by
    unfold m₁
    split
    next h => exact ⟨hu, hb, fun _ => rfl, by simpa using h, fun _ _ => rfl⟩
    · obtain ⟨hkeys, hbinds, hexists⟩ := m.eraseBegin_spec slot hb
      refine ⟨?_, hbinds, hexists, ?_, fun i hi => (Mod.keySlot_of_keys hkeys i).trans ?_⟩
      · rw [Mod.keySlot_of_keys hkeys, Mod.keySlot_modKey]
        exact hu
      · rw [Mod.keySlot_of_keys hkeys, Mod.keySlot_modKey]
      · exact m.keySlot_modKey_other hi _
  obtain ⟨husers, hbinds, hexists, hstate, hslots⟩ := h₁
  have h₃ : m₃ = m₁ := by
    have husers' : users = [] := husers
    have hhit : hit = [] := by
      unfold hit
      rw [husers']
      rfl
    unfold m₃ m₂
    rw [husers', hhit]
    rfl
  rw [h₃]
  refine ⟨hbinds, hexists, ?_, fun i hi => (m₁.keySlot_modKey_other hi _).trans (hslots i hi)⟩
  rw [Mod.keySlot_modKey]
  exact hstate

theorem Mod.slotFree_spec (m : Mod) (slot : Nat) :
    (m.slotFree slot).parts = m.parts ∧ (m.slotFree slot).binds = m.binds ∧ (m.slotFree slot).keySlot slot = KeySlot.reset ∧
      ∀ i, i ≠ slot → (m.slotFree slot).keySlot i = m.keySlot i := by
  unfold Mod.slotFree
  extract_lets m₁
  obtain ⟨hparts, hkeys, hbinds⟩ := Mod.sameKeep_forAll
    (f := fun m r => if erases slot r then m.finish r stOk 0 else m)
    (fun m r => by
      split
      · exact m.sameKeep_finish ..
      · exact ⟨rfl, rfl, rfl⟩) m₁.acting m₁
  refine ⟨hparts, hbinds, ?_, fun i hi => ?_⟩
  · rw [Mod.keySlot_of_keys hkeys, Mod.keySlot, Table.get, Table.find_erase_same]
    rfl
  · rw [Mod.keySlot_of_keys hkeys, Mod.keySlot, Table.get, Table.find_erase_other hi]
    rfl

/-- What becomes of the slots of a tenant whose last partition goes. -/
def Mod.freeOf (t : BitVec 16) (m : Mod) (e : Nat × KeySlot) : Mod :=
  if e.2.state != .free && e.2.tenant == t then (m.eraseNow e.1).slotFree e.1 else m

/-- An entry of the slot `i` that is the tenant's. -/
def ofTenant (t : BitVec 16) (i : Nat) (e : Nat × KeySlot) : Bool := e.1 == i && (e.2.state != .free && e.2.tenant == t)

theorem Mod.freeOf_spec (t : BitVec 16) (es : List (Nat × KeySlot)) (m : Mod) (hb : m.binds = [])
    (hu : ∀ i, (m.keySlot i).users = []) :
    (∀ j, (m.forAll (Mod.freeOf t) es).exists? j = m.exists? j) ∧
      ∀ i, (m.forAll (Mod.freeOf t) es).keySlot i = if es.any (ofTenant t i) then KeySlot.reset else m.keySlot i := by
  induction es generalizing m with
  | nil => exact ⟨fun _ => rfl, fun _ => rfl⟩
  | cons e es ih =>
    rw [Mod.forAll_cons]
    by_cases h : (e.2.state != .free && e.2.tenant == t) = true
    · obtain ⟨hbinds, hexists, -, hslots⟩ := m.eraseNow_unused e.1 hb (hu e.1)
      obtain ⟨hparts', hbinds', hfree, hslots'⟩ := (m.eraseNow e.1).slotFree_spec e.1
      have hone : Mod.freeOf t m e = (m.eraseNow e.1).slotFree e.1 := if_pos h
      have hother : ∀ i, i ≠ e.1 → ((m.eraseNow e.1).slotFree e.1).keySlot i = m.keySlot i :=
        fun i hi => (hslots' i hi).trans (hslots i hi)
      obtain ⟨ihexists, ihslots⟩ := ih ((m.eraseNow e.1).slotFree e.1) (hbinds'.trans hbinds) fun i => by
        by_cases hi : i = e.1
        · rw [hi, hfree]
          rfl
        · rw [hother i hi, hu]
      rw [hone]
      refine ⟨fun j => (ihexists j).trans ((Mod.exists_of_parts hparts' j).trans (hexists j)), fun i => (ihslots i).trans ?_⟩
      by_cases hi : i = e.1
      · subst hi
        rw [hfree, ite_self, List.any_cons, if_pos (by simp [ofTenant, h])]
      · rw [hother i hi, List.any_cons, show ofTenant t i e = false by simp [ofTenant, Ne.symm hi], Bool.false_or]
    · have hone : Mod.freeOf t m e = m := if_neg h
      rw [hone]
      refine ⟨(ih m hb hu).1, fun i => ((ih m hb hu).2 i).trans ?_⟩
      rw [List.any_cons, show ofTenant t i e = false by simp only [ofTenant, Bool.not_eq_true] at h ⊢; rw [h, Bool.and_false],
        Bool.false_or]

/-- A partition that goes, and what becomes of its tenant's keys. -/
def Mod.gone (m : Mod) (k : Nat) : Mod := ((m.partLeave k).clearPairs k).modPart k Partition.cleared

section
variable {m : Mod} {r : Request} {k : Nat} (hk : pcPart r.payload = k) (h : m.partBad r = none)

include hk h in
theorem Mod.partDelete_eq : m.partDelete r = (if (m.gone k).tenantHere (m.part k).tenant then m.gone k
    else (m.gone k).forAll (Mod.freeOf (m.part k).tenant) (m.gone k).keys).respond r stOk 0 := by
  subst hk
  rw [Mod.partDelete, Mod.judge_ok h]
  rfl

theorem Table.mem_of_find {α : Type} {n : Nat} {v : α} {t : Table α} (h : Table.find n t = some v) : (n, v) ∈ t := by
  induction t with
  | nil => exact absurd h (by simp)
  | cons e t ih =>
    rw [Table.find] at h
    split at h
    next hn => rw [← Option.some.inj h, ← hn]; exact List.mem_cons_self
    · exact List.mem_cons_of_mem _ (ih h)

theorem Table.get_mem {α : Type} (d : α) (n : Nat) (t : Table α) : Table.get d n t = d ∨ (n, Table.get d n t) ∈ t := by
  unfold Table.get
  cases h : Table.find n t with
  | none => exact .inl rfl
  | some v => exact .inr (Table.mem_of_find h)

theorem Mod.gone_spec (m : Mod) (k : Nat) : ∃ f,
    (m.gone k).part k = (m.part k).left.cleared ∧ (∀ j, j ≠ k → (m.gone k).part j = m.part j) ∧
      (m.gone k).keys = (m.keyRelease f).keys ∧ (m.gone k).binds = m.binds := by
  obtain ⟨f, hpart, hother, hkeys, hbinds⟩ := m.partLeave_spec k
  refine ⟨f, ?_, fun j hj => ?_, hkeys, hbinds⟩
  · rw [Mod.gone, Mod.part_modPart, Mod.part_of_parts (n := (m.partLeave k).clearPairs k) (m := m.partLeave k) rfl, hpart]
  · rw [Mod.gone, Mod.part_modPart_other _ hj, Mod.part_of_parts (n := (m.partLeave k).clearPairs k) (m := m.partLeave k) rfl,
      hother j hj]

theorem Mod.tenantHere_iff (m : Mod) (t : BitVec 16) :
    m.tenantHere t = true ↔ ∃ j, j < 64 ∧ m.exists? j = true ∧ (m.part j).tenant = t := by
  simp [Mod.tenantHere, allParts]

end

section
variable {m : Mod} {r : Request} {k : Nat} {t : BitVec 16} (hk : pcPart r.payload = k) (h : m.partBad r = none)
  (hlast : ∀ j, j < 64 → j ≠ k → m.exists? j = true → (m.part j).tenant ≠ (m.part k).tenant)

include hlast in
theorem Mod.tenantHere_gone : ¬ (m.gone k).tenantHere (m.part k).tenant = true := by
  obtain ⟨f, hpart, hother, -⟩ := m.gone_spec k
  rw [Mod.tenantHere_iff]
  rintro ⟨j, hj, hexists, htenant⟩
  by_cases hjk : j = k
  · rw [hjk, Mod.exists?, hpart] at hexists
    exact absurd hexists Bool.false_ne_true
  · rw [Mod.exists?, hother j hjk] at hexists
    rw [hother j hjk] at htenant
    exact hlast j hj hjk hexists htenant

theorem Mod.exists_gone (m : Mod) (k j : Nat) : (m.gone k).exists? j = (m.exists? j && j != k) := by
  obtain ⟨f, hpart, hother, -⟩ := m.gone_spec k
  by_cases hjk : j = k
  · rw [hjk, Mod.exists?, hpart, bne_self_eq_false, Bool.and_false]
    rfl
  · rw [Mod.exists?, hother j hjk, show (j != k) = true by simpa using hjk, Bool.and_true]
    rfl

/-- Keys without users lose none. -/
theorem Mod.keys_gone (husers : ∀ e ∈ m.keys, e.2.users = []) : (m.gone k).keys = m.keys := by
  obtain ⟨f, -, -, hkeys, -⟩ := m.gone_spec k
  rw [hkeys]
  refine (List.map_congr_left fun e he => ?_).trans (List.map_id _)
  rw [husers e he]
  obtain ⟨i, v⟩ := e
  have hv : v.users = [] := husers _ he
  cases v
  cases hv
  rfl

include hk h hlast in
/-- The last partition of a tenant goes, and with it the tenant's keys. -/
theorem Mod.partDelete_last (husers : ∀ e ∈ m.keys, e.2.users = []) (hb : m.binds = []) :
    (∀ j, (m.partDelete r).exists? j = (m.exists? j && j != k)) ∧
      (∀ i, ((m.partDelete r).keySlot i).state = .free ∨ ((m.partDelete r).keySlot i).tenant ≠ (m.part k).tenant) ∧
      (∀ i, (∀ e ∈ m.keys, e.1 = i → e.2.tenant ≠ (m.part k).tenant) → (m.partDelete r).keySlot i = m.keySlot i) := by
  have hkeys := Mod.keys_gone (k := k) husers
  have hbinds : (m.gone k).binds = [] := by
    obtain ⟨f, -, -, -, hbinds⟩ := m.gone_spec k
    rw [hbinds, hb]
  have hunused (i : Nat) : (m.keySlot i).users = [] := by
    rcases Table.get_mem KeySlot.reset i m.keys with hget | hmem
    · rw [Mod.keySlot, hget]
      rfl
    · exact husers _ hmem
  obtain ⟨hexists, hfree⟩ := Mod.freeOf_spec (m.part k).tenant m.keys (m.gone k) hbinds
    (fun i => (congrArg KeySlot.users (Mod.keySlot_of_keys hkeys i)).trans (hunused i))
  rw [Mod.partDelete_eq hk h, if_neg (Mod.tenantHere_gone hlast), hkeys]
  refine ⟨fun j => ?_, fun i => ?_, fun i hi => ?_⟩
  · rw [Mod.exists_of_parts (Mod.parts_respond ..), hexists, Mod.exists_gone]
  · rw [Mod.keySlot_respond, hfree]
    split
    · exact .inl rfl
    next hany =>
      rw [Mod.keySlot_of_keys hkeys]
      rcases Table.get_mem KeySlot.reset i m.keys with hget | hmem
      · rw [Mod.keySlot, hget]
        exact .inl rfl
      · have hnot : ofTenant (m.part k).tenant i (i, m.keySlot i) = false :=
          Bool.eq_false_iff.mpr fun hof => hany (List.any_eq_true.mpr ⟨_, hmem, hof⟩)
        simp only [ofTenant, beq_self_eq_true, Bool.true_and, Bool.and_eq_false_iff, bne_eq_false_iff_eq, beq_eq_false_iff_ne] at hnot
        exact hnot
  · rw [Mod.keySlot_respond, hfree, if_neg, Mod.keySlot_of_keys hkeys]
    rw [Bool.not_eq_true, List.any_eq_false]
    intro e he hof
    simp only [ofTenant, Bool.and_eq_true, beq_iff_eq] at hof
    exact hi e he hof.1 hof.2.2

end

/-- Settles O19: a partition comes and goes in place, and a tenant's keys go with its last partition. -/
theorem partitionsComeAndGo : Obligations.PartitionsComeAndGo := by
  refine ⟨fun s r rest ht hop hsub hbad => ?_, fun s r rest ht hop hsub hbad => ⟨?_, ?_⟩⟩
  · have hgives := gives_of_turn_figures ht rfl hop (by simp [hsub]) (exec_partCreate r.fn s) (by simp)
    obtain ⟨key, hkey, hpart, hother, hkeys, hjobs⟩ := Mod.partCreate_spec (m := turned s rest) hbad
    refine ⟨_, hgives, ?_, hother, hkeys, hjobs⟩
    dsimp only
    rw [hpart]
    refine ⟨rfl, hkey, rfl, rfl, rfl, fun e => rfl, fun off hoff => ?_, ?_⟩
    · exact (Partition.reg_cleared _ off).trans (if_neg (by simpa using hoff))
    · exact (Partition.reg_cleared _ offTruss).trans (if_pos (by simp))
  · rintro ⟨j, hj, hjk, hexists, htenant⟩
    have hgives := gives_of_turn_figures ht rfl hop (by simp [hsub]) (exec_partDelete r.fn s) (by simp)
    obtain ⟨f, hpart, hother, hkeys, hbinds⟩ := (turned s rest).gone_spec (pcPart r.payload)
    have hhere : ((turned s rest).gone (pcPart r.payload)).tenantHere ((turned s rest).part (pcPart r.payload)).tenant = true := by
      rw [Mod.tenantHere_iff]
      refine ⟨j, hj, ?_, ?_⟩
      · rw [Mod.exists?, hother j hjk]
        exact hexists
      · rw [hother j hjk]
        exact htenant
    rw [Mod.partDelete_eq (m := turned s rest) rfl hbad, if_pos hhere] at hgives
    refine ⟨_, hgives, ?_⟩
    simp only [Mod.part_respond, Mod.keySlot_respond, hpart]
    refine ⟨rfl, rfl, rfl, fun off hoff => ?_, ?_, hother, fun i => ?_⟩
    · exact (Partition.reg_cleared _ off).trans (if_neg (by simpa using hoff))
    · exact (Partition.reg_cleared _ offTruss).trans (if_pos (by simp))
    · rw [Mod.keySlot_of_keys hkeys, Mod.keySlot_keyRelease]
      exact ⟨rfl, rfl⟩
  · intro hlast husers hnobinds
    have hgives := gives_of_turn_figures ht rfl hop (by simp [hsub]) (exec_partDelete r.fn s) (by simp)
    exact ⟨_, hgives, Mod.partDelete_last (m := turned s rest) rfl hbad hlast husers hnobinds⟩

/-! ### Fence mode and event mode (04 R113, 17 R371, 18 R410) -/

theorem offQdCtrl_ne_evtCtrl (c q : Nat) : offEvtCtrl ≠ offQdCtrl c q := by
  unfold offEvtCtrl offQdCtrl
  omega

theorem Partition.reg_restored (p : Partition) (z : ResetState) : (p.restored z).reg offEvtCtrl = 0 := by
  have hqueues (xs : List Nat) (q : Partition) : (xs.foldl (fun (p : Partition) i =>
      if getB (p.reg (offQdCtrl (i / 4) (i % 4))) 0 then p.setReg (offQdCtrl (i / 4) (i % 4)) 0 else p) q).reg offEvtCtrl =
      q.reg offEvtCtrl := by
    induction xs generalizing q with
    | nil => rfl
    | cons i xs ih =>
      rw [List.foldl_cons, ih]
      split
      · exact Partition.reg_setReg_other _ (offQdCtrl_ne_evtCtrl _ _) _
      · rfl
  change (p.restoreRegs z).reg offEvtCtrl = 0
  unfold Partition.restoreRegs
  extract_lets slot p₁ p₂ p₃ p₄
  have h₁ : p₁.reg offEvtCtrl = 0 :=
    Partition.reg_of_filter (p := p) (g := keptReg) rfl offEvtCtrl
  have h₃ : p₃.reg offEvtCtrl = 0 := by
    unfold p₃ p₂ Partition.count
    rw [Partition.reg_setReg_other _ (by decide), Partition.reg_setFld_other _ _ _ _ _ (by decide),
      Partition.reg_setReg_other _ (by decide), h₁]
  rw [hqueues]
  unfold p₄
  split
  · rw [Partition.reg_flag_other _ _ _ (by decide), h₃]
  · exact h₃

theorem Mod.reg_restore (m : Mod) (k : Nat) (z : ResetState) : ((m.restore k z).part k).reg offEvtCtrl = 0 := by
  unfold Mod.restore
  extract_lets m₁ m₂
  have hparts : ∀ (xs : List Request) (n : Mod), (n.forAll (fun n r =>
      if r.opcode = 0x11 ∧ fld r.payload 0 1 = k then n.finish r stOk 0 (n.partResetAnswer k z) else n) xs).parts = n.parts :=
    fun xs n => (Mod.sameKeep_forAll (fun n r => by
      split
      · exact n.sameKeep_finish ..
      · exact ⟨rfl, rfl, rfl⟩) xs n).1
  have h₂ : (m₂.part k).reg offEvtCtrl = (m₁.part k).reg offEvtCtrl := by
    rw [Mod.part_msixPart]
    exact (m₁.noted_notice k 4 0xFFFF 0 1).reg offEvtCtrl (by decide)
  rw [Mod.part_of_parts (hparts ..), h₂, Mod.part_of_parts (n := m₁) (m := (m.lostEvents k).modPart k fun p => p.restored z) rfl,
    Mod.part_modPart, Partition.reg_restored]

theorem gives_resetRow {s : State} {c : Instr} {k n : Nat} {act : Mod → ResetState → Mod} {z : ResetState} (hl : Live s)
    (hc : exec c s = s.act fun m => m.resetRow k n act) (hz : (s.mod.part k).resetting = some z) (hn : z.phase + 1 = n) :
    Gives c s (act s.mod { z with phase := n }) := by
  have hgives := gives_of_act hl.1 hc
  rw [Mod.resetRow, Mod.molique, if_pos hl.2] at hgives
  simpa only [hz, hn, if_true] using hgives

/-- Settles O20: no reset or creation leaves anything of `EVT_CTRL`, and ARM writes its one bit. -/
theorem fenceAndEventMode : Obligations.FenceAndEventMode := by
  refine ⟨fun s r rest ht hop hsub hbad => ?_, fun s k z hl hz hphase => ?_, fun s f k hw => ?_⟩
  · have hgives := gives_of_turn_figures ht rfl hop (by simp [hsub]) (exec_partCreate r.fn s) (by simp)
    obtain ⟨key, -, hpart, -⟩ := Mod.partCreate_spec (m := turned s rest) hbad
    refine ⟨_, hgives, ?_⟩
    rw [hpart]
    have hreg : (((turned s rest).part (pcPart r.payload)).createdFor (pcTenant r.payload) key).reg offEvtCtrl = 0 :=
      Partition.reg_cleared ((turned s rest).part (pcPart r.payload)) offEvtCtrl
    rw [hreg]
    rfl
  · refine ⟨_, gives_resetRow hl (exec_resetRestore k s) hz (by omega), ?_⟩
    rw [Mod.reg_restore]
    rfl
  · have hgives := gives_of_host hw.1 (exec_evtCtrlArm f k s)
    rw [if_pos hw.2] at hgives
    refine ⟨_, hgives, ?_, rfl, fun off hoff => ?_, ?_, fun j hj => Mod.part_modPart_other _ hj _⟩
    · rw [Mod.part_modPart, Partition.getB_flag_same _ _ (by decide)]
    · rw [Mod.part_modPart, Partition.reg_flag_other _ _ _ hoff]
    · rw [Mod.part_modPart]
      rfl

end Sys2Proof.Machine
end

section
/-!
PROOFS. Reports: IDENT_GET, HEALTH_GET, ATTEST_GET and FAULT_READ (02 R56, 17 R394, 18 R409).
-/

namespace Sys2Proof.Machine
open Claims

/-! ### Fields of a structure laid out one after the other (00 R8) -/

section
variable {xs ys : List Byte} {a n : Nat}

theorem fld_append_left (h : a + n ≤ xs.length) : fld (xs ++ ys) a n = fld xs a n := by
  rw [fld, fld, List.drop_append_of_le_length (by omega), List.take_append_of_le_length (by rw [List.length_drop]; omega)]

theorem fld_append_right (h : xs.length ≤ a) : fld (xs ++ ys) a n = fld ys (a - xs.length) n := by
  rw [fld, fld, List.drop_append, List.drop_eq_nil_of_le h, List.nil_append]

theorem slice_append_left (h : a + n ≤ xs.length) : slice (xs ++ ys) a n = slice xs a n := by
  unfold slice
  rw [List.drop_append_of_le_length (by omega), List.take_append_of_le_length (by rw [List.length_drop]; omega)]

theorem slice_append_right (h : xs.length ≤ a) : slice (xs ++ ys) a n = slice ys (a - xs.length) n := by
  unfold slice
  rw [List.drop_append, List.drop_eq_nil_of_le h, List.nil_append]

theorem fld_leBytes (n v : Nat) : fld (leBytes n v) 0 n = v % 256 ^ n := by
  rw [fld, List.drop_zero, List.take_of_length_le (length_leBytes n v).le, leNat_leBytes]

@[simp] theorem length_slice (xs : List Byte) (a n : Nat) : (slice xs a n).length = n := by
  unfold slice
  simp only [List.length_append, List.length_replicate, List.length_take]
  omega

theorem slice_self (h : xs.length = n) : slice xs 0 n = xs := by
  unfold slice
  simp [List.take_of_length_le h.le, h]

end

/-- A number made of bits holds each of them. -/
theorem bit_foldl (f : Nat → Bool) (n : Nat) :
    (List.range n).foldl (fun a i => a + b2n (f i) * 2 ^ i) 0 < 2 ^ n ∧
      ∀ i, i < n → bit ((List.range n).foldl (fun a i => a + b2n (f i) * 2 ^ i) 0) i = f i := by
  induction n with
  | zero => simp
  | succ n ih =>
    obtain ⟨hlt, hbit⟩ := ih
    rw [List.range_succ, List.foldl_append]
    simp only [List.foldl_cons, List.foldl_nil]
    generalize (List.range n).foldl (fun a i => a + b2n (f i) * 2 ^ i) 0 = v at hlt hbit ⊢
    have hb : b2n (f n) ≤ 1 := by cases f n <;> decide
    refine ⟨?_, fun i hi => ?_⟩
    · have := Nat.mul_le_mul_right (2 ^ n) hb
      rw [Nat.pow_succ]
      omega
    · rw [bit_eq_testBit]
      cases hf : f n with
      | false =>
        rcases Nat.lt_succ_iff_lt_or_eq.mp hi with hi | rfl
        · rw [← hbit i hi, bit_eq_testBit]
          simp [b2n]
        · rw [hf]
          simpa [b2n] using Nat.testBit_lt_two_pow hlt
      | true =>
        rw [show v + b2n true * 2 ^ n = 2 ^ n + v by simp [b2n, Nat.add_comm]]
        rcases Nat.lt_succ_iff_lt_or_eq.mp hi with hi | rfl
        · rw [Nat.testBit_two_pow_add_gt hi, ← hbit i hi, bit_eq_testBit]
        · rw [Nat.testBit_two_pow_add_eq, Nat.testBit_lt_two_pow hlt, hf]
          rfl

/-! ### IDENT_GET and HEALTH_GET (02 R56) -/

section
variable (m : Mod) (f : Fn)

theorem Mod.identity_spec : (m.identity f).length = 64 ∧ slice (m.identity f) 0 8 = orderCode ∧
    slice (m.identity f) 16 16 = slice Config.serial 0 16 ∧ fld (m.identity f) 32 4 = Config.siliconRev.toNat ∧
    fld (m.identity f) 36 4 = Config.bootRomVer.toNat ∧ fld (m.identity f) 48 4 = m.boot.stage % 2 ^ 32 ∧
    fld (m.identity f) 52 4 = fnCode f := by
  have hcode : fnCode f < 2 ^ 32 := by
    cases f with
    | vf k => exact lt_trans k.isLt (by decide)
    | pf => decide
    | mgmt => decide
  have hrev := Config.siliconRev.isLt
  have hver := Config.bootRomVer.isLt
  unfold Mod.identity
  generalize hb : leBytes 8 (if m.running then (match m.fw with | some i => i.build | none => 0) else 0) = build
  have hbuild : build.length = 8 := hb ▸ length_leBytes ..
  have hserial : slice (slice Config.serial 0 16) 0 16 = slice Config.serial 0 16 := slice_self (length_slice ..)
  refine ⟨by simp [hbuild], ?_, ?_, ?_, ?_, ?_, ?_⟩
  · simp only [List.append_assoc]
    rw [slice_append_left (by simp)]
    rfl
  · simp [List.append_assoc, slice_append_right, slice_append_left, hserial]
  all_goals simp [List.append_assoc, fld_append_right, fld_append_left, fld_leBytes, hbuild]
  all_goals omega

theorem Mod.health_spec : (m.health f).length = 32 ∧
    (∀ n, n < 128 → (∀ k, f = .vf k → n / 2 = k.val) →
      bit (fld (m.health f) 0 16) n = (m.part (n / 2)).inService (n % 2)) ∧
    (∀ n k, n < 128 → f = .vf k → n / 2 ≠ k.val → bit (fld (m.health f) 0 16) n = false) ∧
    bit (fld (m.health f) 16 4) 0 = m.boot.nearTrained ∧ bit (fld (m.health f) 16 4) 1 = m.boot.extTrained ∧
    fld (m.health f) 20 4 = m.linksUp % 2 ^ 32 := by
  have hsum : ∀ a b c d : Bool, bit ((b2n a + 2 * b2n b + 4 * b2n c + 8 * b2n d) % 256 ^ 4) 0 = a ∧
      bit ((b2n a + 2 * b2n b + 4 * b2n c + 8 * b2n d) % 256 ^ 4) 1 = b := by decide
  unfold Mod.health
  extract_lets own trussOk chansOk
  obtain ⟨hlt, hbit⟩ := bit_foldl (fun n => own n && (m.part (n / 2)).inService (n % 2)) 128
  have htruss (bs : List Byte) : fld (leBytes 16 trussOk ++ bs) 0 16 = trussOk := by
    rw [fld_append_left (by simp), fld_leBytes]
    exact Nat.mod_eq_of_lt (lt_of_lt_of_le hlt (by decide))
  simp only [List.append_assoc]
  refine ⟨?_, fun n hn hown => ?_, fun n k hn hf hk => ?_, ?_, ?_, ?_⟩
  · simp [sleBytes]
  · rw [htruss, hbit n hn]
    have hmine : own n = true := by
      unfold own
      split
      next k => simpa using hown k rfl
      · rfl
    rw [hmine, Bool.true_and]
  · rw [htruss, hbit n hn]
    have hnot : own n = false := by
      subst hf
      simpa [own] using hk
    rw [hnot, Bool.false_and]
  · rw [fld_append_right (by simp), fld_append_left (by simp), length_leBytes, fld_leBytes, (hsum ..).1]
  · rw [fld_append_right (by simp), fld_append_left (by simp), length_leBytes, fld_leBytes, (hsum ..).2]
  · rw [fld_append_right (by simp), fld_append_right (by simp), fld_append_left (by simp), length_leBytes, length_leBytes, fld_leBytes]
    rfl

end

/-! ### FAULT_READ copies a record (18 R409) -/

theorem Sparse.get_filter_key {w : Nat} (g : Nat → Bool) (b : Nat) (m : Sparse w) :
    Sparse.get b (m.filter fun e => g e.1) = if g b then Sparse.get b m else 0 := by
  induction m with
  | nil => simp [Sparse.get]
  | cons e m ih =>
    obtain ⟨a, v⟩ := e
    rw [List.filter_cons]
    by_cases hab : a = b
    · subst hab
      cases hg : g a <;> simp [Sparse.get, ih, hg]
    · cases hg : g a <;> simp [Sparse.get, ih, hab]

/-- Cells stored one after the other at a distance stand there as they stood. -/
theorem Sparse.get_foldl_set {w : Nat} (dst i : Nat) {bs : Sparse w} (hwf : Sparse.wf bs = true) (m : Sparse w) :
    Sparse.get (dst + i) (bs.foldl (fun a c => Sparse.set (dst + c.1) c.2 a) m) =
      if Sparse.get i bs = 0 then Sparse.get (dst + i) m else Sparse.get i bs := by
  induction bs generalizing m with
  | nil => simp [Sparse.get]
  | cons c bs ih =>
    rw [List.foldl_cons, ih (Sparse.wf_tail hwf)]
    by_cases hi : c.1 = i
    · have hbelow : Sparse.get i bs = 0 := Sparse.get_below (Sparse.wf_tail hwf) (hi ▸ Sparse.wf_head_lt hwf)
      have hhead : Sparse.get i (c :: bs) = c.2 := by simp [Sparse.get, hi]
      rw [hbelow, if_pos rfl, hhead, if_neg (Sparse.wf_head_ne hwf), hi, Sparse.get_set_same]
    · have hhead : Sparse.get i (c :: bs) = Sparse.get i bs := by simp [Sparse.get, hi]
      rw [hhead, Sparse.get_set_other (by omega)]

theorem Sparse.get_foldl_set_out {w : Nat} {dst a n : Nat} {bs : Sparse w} (hbs : ∀ c ∈ bs, c.1 < n)
    (ha : a < dst ∨ dst + n ≤ a) (m : Sparse w) :
    Sparse.get a (bs.foldl (fun x c => Sparse.set (dst + c.1) c.2 x) m) = Sparse.get a m := by
  induction bs generalizing m with
  | nil => rfl
  | cons c bs ih =>
    obtain ⟨hc, hrest⟩ := List.forall_mem_cons.mp hbs
    rw [List.foldl_cons, ih hrest, Sparse.get_set_other (by omega)]

theorem Partition.putRange_near {p : Partition} {key dst n : Nat} {bs : Cells} (hdst : isExt dst = false)
    (hwf : Memory.wf bs = true) (hbs : ∀ c ∈ bs, c.1 < n) :
    (∀ i, i < n → Sparse.get (dst + i) (p.putRange key dst n bs).near = Sparse.get i bs) ∧
      (∀ a, (a < dst ∨ dst + n ≤ a) → Sparse.get a (p.putRange key dst n bs).near = Sparse.get a p.near) ∧
      (p.putRange key dst n bs).ext = p.ext ∧ (p.putRange key dst n bs).regs = p.regs := by
  have hclear (a : Nat) := Sparse.get_filter_key (fun b => !(decide (dst ≤ b) && decide (b < dst + n))) a p.near
  have hput : (p.putRange key dst n bs).near =
      bs.foldl (fun (a : Cells) (c : Host.Cell) => Sparse.set (dst + c.1) c.2 a) (Cells.clear p.near dst n) ∧
      (p.putRange key dst n bs).ext = p.ext ∧ (p.putRange key dst n bs).regs = p.regs := by
    unfold Partition.putRange
    rw [hdst]
    exact ⟨rfl, rfl, rfl⟩
  obtain ⟨hnear, hext, hregs⟩ := hput
  refine ⟨fun i hi => ?_, fun a ha => ?_, hext, hregs⟩
  · rw [hnear, Sparse.get_foldl_set dst i hwf]
    split
    next hzero =>
      rw [hzero]
      refine (hclear (dst + i)).trans (if_neg ?_)
      simp [hi]
    · rfl
  · rw [hnear, Sparse.get_foldl_set_out hbs ha]
    refine (hclear a).trans (if_pos ?_)
    simp
    omega

/-! ### ATTEST_GET (17 R394) -/

theorem Mod.keyUse_spec (m : Mod) (slot ver : Nat) (u : KeyUse) :
    (ver, u) ∈ ((m.keyUse slot ver u).keySlot slot).users ∧
      ∀ i, ((m.keyUse slot ver u).keySlot i).state = (m.keySlot i).state ∧
        ((m.keyUse slot ver u).keySlot i).current = (m.keySlot i).current := by
  refine ⟨?_, fun i => ?_⟩
  · rw [Mod.keyUse, Mod.keySlot_modKey]
    split
    next h => simpa using h
    · simp
  · by_cases hi : i = slot
    · subst hi
      rw [Mod.keyUse, Mod.keySlot_modKey]
      split <;> exact ⟨rfl, rfl⟩
    · rw [Mod.keyUse, Mod.keySlot_modKey_other _ hi]
      exact ⟨rfl, rfl⟩

section
variable {m : Mod} {r : Request} (h : allZero (slice r.payload 34 6) = true)
include h

theorem fieldBad_of_reserved : fieldBad [(!allZero (slice r.payload 34 6), 34)] = none := by
  rw [h]
  rfl

theorem Mod.attest_refused {st d : Nat} (hslot : m.signSlot r = .inr (st, d)) : m.attest r = m.respond r st d := by
  rw [Mod.attest, Mod.judge_ok (fieldBad_of_reserved h), hslot]

theorem Mod.attest_spec {key : Option (Nat × Nat)} (hslot : m.signSlot r = .inl key) :
    (m.attest r).pke = m.pke ++ [.attest r (m.reportBody r (key.map m.slotScalar)) key none] ∧
      (m.attest r).acting = m.acting ++ [r] ∧ (m.attest r).parts = m.parts ∧ (m.attest r).mbx = m.mbx ∧
      (∀ v, key = some v → (v.2, .attest (fnIdx r.fn)) ∈ ((m.attest r).keySlot v.1).users) ∧
      (∀ i, ((m.attest r).keySlot i).state = (m.keySlot i).state ∧ ((m.attest r).keySlot i).current = (m.keySlot i).current) := by
  rw [Mod.attest, Mod.judge_ok (fieldBad_of_reserved h), hslot]
  cases key with
  | none => exact ⟨rfl, rfl, rfl, rfl, fun v hv => absurd hv (by simp), fun _ => ⟨rfl, rfl⟩⟩
  | some v =>
    obtain ⟨huser, hslots⟩ := m.keyUse_spec v.1 v.2 (.attest (fnIdx r.fn))
    refine ⟨rfl, rfl, rfl, rfl, fun w hw => ?_, hslots⟩
    obtain rfl := Option.some.inj hw
    exact huser

end

/-! ### FAULT_READ (18 R409) -/

section
variable {m : Mod} {r : Request}

theorem Mod.faultReadPart_spec {e : Ecc} (hfields : faultReadFields r.payload = none) (hbad : m.faultReadBad r = none) :
    let k := frPart r.payload
    let slot := (m.part k).recordSlot (frIndex r.payload)
    let sc := m.recordScan k slot e
    let body := (sc.2.part k).recordWhole slot
    (sc.1 ≠ [] → m.faultReadPart r e = sc.2.respond r stIntegrity 2) ∧
    (sc.1 = [] → sc.2.keyless k (frDst r.payload) = false → m.faultReadPart r e =
        (sc.2.modPart k fun p => p.putRange (sc.2.memKey k) (frDst r.payload) 0x100000 body).respond r stOk 0
          (Cells.read body 0 64)) ∧
    (sc.1 = [] → sc.2.keyless k (frDst r.payload) = true →
      m.faultReadPart r e = sc.2.respond r stOk 0 (Cells.read body 0 64)) := by
  intro k slot sc body
  have hform : m.faultReadPart r e =
      if !sc.1.isEmpty then sc.2.respond r stIntegrity 2
      else (if sc.2.keyless k (frDst r.payload) then sc.2
        else sc.2.modPart k fun p => p.putRange (sc.2.memKey k) (frDst r.payload) 0x100000 body).respond r stOk 0
          (Cells.read body 0 64) := by
    rw [Mod.faultReadPart, hfields, hbad]
    rfl
  rw [hform]
  refine ⟨fun h => if_pos (by simpa using h), fun h hkey => ?_, fun h hkey => ?_⟩
  · rw [if_neg (by simp [h]), hkey]
    rfl
  · rw [if_neg (by simp [h]), hkey]
    rfl

theorem Mod.recordScan_clean {m : Mod} {k slot : Nat} (h : (m.recordScan k slot .clean).1 = []) :
    (m.recordScan k slot .clean).2 = m := by
  have hbad : (m.part k).extPoison.filter
      (fun i => decide (recordGranule slot ≤ i) && decide (i < recordGranule slot + 16384)) = [] := h
  unfold Mod.recordScan
  dsimp only
  rw [hbad]
  rfl

theorem Mod.faultReadList_spec {xs : List (List Byte)} {most : Nat} (hfields : faultReadFields r.payload = none) :
    (∀ k, r.fn = .vf k → m.faultReadList r xs most = m.respond r stNotPermitted 1) ∧
    ((∀ k, r.fn ≠ .vf k) → frIndex r.payload < xs.length →
      m.faultReadList r xs most = m.respond r stOk 0 ((xs.drop (frIndex r.payload)).take most).flatten) ∧
    ((∀ k, r.fn ≠ .vf k) → xs.length ≤ frIndex r.payload →
      m.faultReadList r xs most = m.respond r stBadField 2) := by
  unfold Mod.faultReadList
  rw [hfields]
  cases hf : r.fn with
  | vf k => exact ⟨fun _ _ => rfl, fun h => absurd rfl (h k), fun h => absurd rfl (h k)⟩
  | pf =>
    refine ⟨fun k h => Fn.noConfusion h, fun _ h => ?_, fun _ h => ?_⟩
    · simp [orBad, firstBad, Mod.judge, Nat.not_le.mpr h]
    · simp [orBad, firstBad, Mod.judge, h]
  | mgmt =>
    refine ⟨fun k h => Fn.noConfusion h, fun _ h => ?_, fun _ h => ?_⟩
    · simp [orBad, firstBad, Mod.judge, Nat.not_le.mpr h]
    · simp [orBad, firstBad, Mod.judge, h]

end

/-- Settles O17: each report's bytes stand one after the other, and each request is judged before it answers. -/
theorem reports : Obligations.Reports := by
  refine ⟨fun s r rest ht hop => ?_, fun s r rest ht hop => ?_, fun s r rest key ht hop hz hslot => ?_,
    fun s r rest st d ht hop hz hslot => ?_, fun s r rest e ht hop hkind hfields hbad => ?_,
    fun p key dst n bs hdst hwf hbs => Partition.putRange_near hdst hwf hbs,
    fun s r rest c xs most ht hop hfn hfields hc => ?_, fun s r rest c k ht hop hfn hfields hc => ?_⟩
  · exact ⟨gives_of_turn_figures ht rfl hop rfl (exec_identGet r.fn s) (by simp), s.mod.identity_spec r.fn⟩
  · exact ⟨gives_of_turn_figures ht rfl hop rfl (exec_healthGet r.fn s) (by simp), s.mod.health_spec r.fn⟩
  · exact ⟨_, gives_of_turn_figures ht rfl hop rfl (exec_attestGet r.fn s) (by simp), Mod.attest_spec (m := turned s rest) hz hslot⟩
  · have hgives := gives_of_turn_figures ht rfl hop rfl (exec_attestGet r.fn s) (by simp)
    rwa [Mod.attest_refused (m := turned s rest) hz hslot] at hgives
  · have hgives := gives_of_turn_figures ht rfl hop (by simp [hkind]) (exec_faultReadPartition r.fn e s) (by simp)
    obtain ⟨hintegrity, hcopied, hkeyless⟩ := Mod.faultReadPart_spec (m := turned s rest) (e := e) hfields hbad
    refine ⟨fun h => ?_, fun h hkey => ?_, fun h hkey => ?_, fun he h => ?_⟩
    · exact hintegrity h ▸ hgives
    · exact hcopied h hkey ▸ hgives
    · exact hkeyless h hkey ▸ hgives
    · subst he
      exact Mod.recordScan_clean h
  · rcases hc with ⟨rfl, hkind, rfl, rfl⟩ | ⟨rfl, hkind, rfl, rfl⟩
    · have hgives := gives_of_turn_figures ht rfl hop (by simp [hkind]) (exec_faultReadModule r.fn s) (by simp)
      obtain ⟨-, hentry, hnone⟩ := Mod.faultReadList_spec (m := turned s rest) (xs := s.mod.modRecords) (most := 1) hfields
      exact ⟨fun h => hentry hfn h ▸ hgives, fun h => hnone hfn h ▸ hgives⟩
    · have hgives := gives_of_turn_figures ht rfl hop (by simp [hkind]) (exec_faultReadSupersedeLog r.fn s) (by simp)
      obtain ⟨-, hentry, hnone⟩ := Mod.faultReadList_spec (m := turned s rest) (xs := s.mod.supersede.reverse) (most := 127) hfields
      exact ⟨fun h => hentry hfn h ▸ hgives, fun h => hnone hfn h ▸ hgives⟩
  · rcases hc with ⟨rfl, hkind⟩ | ⟨rfl, hkind⟩
    · have hgives := gives_of_turn_figures ht rfl hop (by simp [hkind]) (exec_faultReadModule r.fn s) (by simp)
      rwa [(Mod.faultReadList_spec hfields).1 k hfn] at hgives
    · have hgives := gives_of_turn_figures ht rfl hop (by simp [hkind]) (exec_faultReadSupersedeLog r.fn s) (by simp)
      rwa [(Mod.faultReadList_spec hfields).1 k hfn] at hgives

end Sys2Proof.Machine
end

section
/-!
PROOFS. Reservations open and close (03 R74).
-/

namespace Sys2Proof.Machine
open Claims

/-! ### RESV_OPEN (03 R74) -/

/-- Draws change nothing but the count of what has been drawn. -/
theorem Mod.drawSlots_eq (m : Mod) (paths : List Nat) : ∃ fresh, (m.drawSlots paths).2 = { m with fresh := fresh } := by
  have hfold (acc : Table Nat × Mod) (hacc : ∃ fresh, acc.2 = { m with fresh := fresh }) :
      ∃ fresh, (paths.foldl (fun (acc : Table Nat × Mod) path =>
        (Table.set path (1 + acc.2.draw.1 % 60) acc.1, acc.2.draw.2)) acc).2 = { m with fresh := fresh } := by
    induction paths generalizing acc with
    | nil => exact hacc
    | cons path paths ih =>
      obtain ⟨slots, n⟩ := acc
      obtain ⟨fresh, rfl⟩ := hacc
      exact ih _ ⟨fresh + 1, rfl⟩
  exact hfold _ ⟨m.fresh, rfl⟩

theorem Mod.resvSerial_msixPart (m : Mod) (k v : Nat) : (m.msixPart k v).resvSerial = m.resvSerial := by
  unfold Mod.msixPart
  obtain ⟨out, pcie, h⟩ := m.msix_eq (fnOfIdx (k % 64)) v
  rw [h]

theorem Mod.resvSerial_notice (m : Mod) (k code resv obj state : Nat) :
    (m.notice k code resv obj state).resvSerial = m.resvSerial := by
  unfold Mod.notice
  dsimp only
  split
  · rfl
  · split
    · exact Mod.resvSerial_msixPart ..
    · split <;> rfl

theorem Mod.resvStand_spec (m : Mod) (k : Nat) (v : Reservation) :
    Table.find (m.part k).freeResv ((m.resvStand k v).part k).resvs = some v ∧
      (m.resvStand k v).resvSerial = m.resvSerial + 1 := by
  unfold Mod.resvStand
  extract_lets m₁ was m₂
  have h₂ : Table.find (m.part k).freeResv (m₂.part k).resvs = some v := by
    rw [Mod.part_modPart]
    exact Table.find_set_same ..
  split
  · obtain ⟨_, _, _, _, hsame⟩ := (m₂.noted_notice k 4 0xFFFF 0 0).same
    refine ⟨?_, ?_⟩
    · rw [hsame]
      exact h₂
    · exact Mod.resvSerial_notice ..
  · exact ⟨h₂, rfl⟩

section
variable {m : Mod} {r : Request} {img : List Byte} (hfields : m.resvFields r = none) (hbars : m.resvBars r.payload = none)
  (himg : m.roFrame r.payload = some img)
include hfields hbars himg

theorem Mod.resvOpen_spec :
    let k := roCtx r.payload / 16
    let d := m.drawSlots ((m.part k).framePaths k img)
    let v := d.2.newResv r.payload img d.1
    d.2.resvTests k img v.1 v.2 = none → m.resvOpen r = (d.2.resvStand k v.1).respond r stOk 0 v.1.response := by
  intro k d v htests
  rw [Mod.resvOpen, Mod.judge_ok (by rw [hfields, hbars]; rfl), himg]
  exact Mod.judge_ok htests

end

/-! ### RESV_CLOSE (03 R74) -/

section
variable {m : Mod} {r : Request} {v : Reservation} (hflags : fld r.payload 4 4 ≤ 1) (hid : fld r.payload 0 4 < 1024)
  (hmgmt : r.fn ≠ .mgmt) (hvf : ∀ j, r.fn = .vf j → fld r.payload 0 4 / 16 = j.val)
  (hv : Table.find (fld r.payload 0 4 % 16) (m.part (fld r.payload 0 4 / 16)).resvs = some v) (hopen : v.closed = false)
include hflags hid hmgmt hvf hv hopen

theorem Mod.resvClose_eq : m.resvClose r =
    let k := fld r.payload 0 4 / 16
    let i := fld r.payload 0 4 % 16
    let n := m.modPart k fun p => { p with resvs := Table.set i { v with closed := true } p.resvs }
    let mark (u : Run) : Run := if u.hasQueue v.queueNo then { u with abort := true } else u
    ((if fld r.payload 4 4 = 1 then
      (n.modCtx k v.ctxNo fun x =>
        { x with run := x.run.map mark, parked := x.parked.map fun e => (e.1, mark e.2) }).endQueue k v.ctxNo v.queueNo stAborted 0
      else n).releaseResv k v.ctxNo v.queueNo).respond r stOk 0 := by
  have hown : (match r.fn with
      | .pf => true
      | .vf j => decide (fld r.payload 0 4 / 16 = j.val)
      | .mgmt => false) = true := by
    cases hf : r.fn with
    | pf => rfl
    | vf j => exact decide_eq_true (hvf j hf)
    | mgmt => exact absurd hf hmgmt
  unfold Mod.resvClose
  extract_lets id flags k own
  have hfind : (if own && decide (id < 1024) then Table.find (id % 16) (m.part k).resvs else none) = some v := by
    rw [show own = true from hown, decide_eq_true hid]
    exact hv
  rw [if_neg (Nat.not_lt.mpr hflags), hfind]
  simp only [hopen, Bool.false_eq_true, if_false]
  rfl

end

/-! ### The slot of a closed reservation (03 R74) -/

theorem Table.mem_set {α : Type} {n : Nat} {v : α} {t : Table α} {e : Nat × α} (h : e ∈ Table.set n v t) :
    e = (n, v) ∨ e ∈ t := by
  induction t with
  | nil => exact .inl (List.mem_singleton.mp h)
  | cons f t ih =>
    obtain ⟨k, w⟩ := f
    rw [Table.set] at h
    split at h
    · exact (List.mem_cons.mp h)
    · split at h
      · exact (List.mem_cons.mp h).imp_right (List.mem_cons_of_mem _)
      · rcases List.mem_cons.mp h with rfl | h
        · exact .inr List.mem_cons_self
        · exact (ih h).imp_right (List.mem_cons_of_mem _)

/-- A search that only one key can meet finds that key's value. -/
theorem Table.find?_of_find {α : Type} {n : Nat} {v : α} {t : Table α} {p : Nat × α → Bool} (hv : Table.find n t = some v)
    (hp : p (n, v) = true) (honly : ∀ e ∈ t, p e = true → e.1 = n) : t.find? p = some (n, v) := by
  induction t with
  | nil => exact absurd hv (by simp)
  | cons e t ih =>
    obtain ⟨k, w⟩ := e
    obtain ⟨hhead, hrest⟩ := List.forall_mem_cons.mp honly
    rw [Table.find] at hv
    split at hv
    next hk =>
      obtain rfl := Option.some.inj hv
      subst hk
      exact List.find?_cons_of_pos hp
    next hk =>
      rw [List.find?_cons_of_neg fun h => hk (hhead h)]
      exact ih hv hrest

/-- A closed reservation with no raise left goes. -/
theorem Mod.find_releaseResv {m : Mod} {k c q i : Nat} {v : Reservation} (hv : (m.part k).resvOf c q = some (i, v))
    (hclosed : v.closed = true) (hlanded : (((m.part k).ctx c).queue q).landed = [])
    (hstarted : ((m.part k).ctx c).startedQueue q = false) :
    Table.find i ((m.releaseResv k c q).part k).resvs = none := by
  unfold Mod.releaseResv
  simp only [hv, hclosed, hlanded, hstarted, List.isEmpty_nil, Bool.not_false, Bool.and_self, if_true]
  rw [Mod.part_of_parts (n := { m.modPart k _ with fabric := _ }) (m := m.modPart k fun p => { p with resvs := Table.erase i p.resvs })
    rfl, Mod.part_modPart]
  exact Table.find_erase_same ..

/-- Settles O22: each request's checks pass by hypothesis, and only its own slot answers to a closed reservation's queue. -/
theorem reservationsOpenAndClose : Obligations.ReservationsOpenAndClose := by
  refine ⟨fun s r rest img ht hop hfields hbars himg => ?_, fun s r rest v ht hop hflags hid hmgmt => ?_⟩
  · intro k d v htests m
    obtain ⟨fresh, hd⟩ := (turned s rest).drawSlots_eq ((s.mod.part k).framePaths k img)
    have hgives := gives_of_turn_figures ht rfl hop rfl (exec_resvOpen r.fn s) (by simp)
    rw [Mod.resvOpen_spec (m := turned s rest) hfields hbars himg htests] at hgives
    obtain ⟨hfind, hserial⟩ := d.2.resvStand_spec k v.1
    have hparts : d.2.part k = s.mod.part k := Mod.part_of_parts (by rw [hd]; rfl) k
    have hcount : d.2.resvSerial = s.mod.resvSerial := by rw [hd]; rfl
    exact ⟨hgives, hparts ▸ hfind, hcount, hserial.trans (by rw [hcount]), rfl⟩
  · intro k i hvf hv hopen m mark
    have hgives := gives_of_turn_figures ht rfl hop rfl (exec_resvClose r.fn s) (by simp)
    rw [Mod.resvClose_eq (m := turned s rest) hflags hid hmgmt hvf hv hopen] at hgives
    dsimp only at hgives
    refine ⟨fun hzero => ?_, fun hone => ?_, fun hlanded hstarted honly => ?_⟩
    · rwa [if_neg (by omega)] at hgives
    · rwa [if_pos hone] at hgives
    · have hpart : m.part k = { s.mod.part k with resvs := Table.set i { v with closed := true } (s.mod.part k).resvs } :=
        Mod.part_modPart ..
      refine Mod.find_releaseResv (v := { v with closed := true }) ?_ rfl ?_ ?_
      · rw [hpart]
        refine Table.find?_of_find (Table.find_set_same ..) ?_ fun e he hmatch => ?_
        · simp [Reservation.ctxNo, Reservation.queueNo]
        · rcases Table.mem_set he with rfl | he
          · rfl
          · simp only [Bool.and_eq_true, beq_iff_eq] at hmatch
            exact honly e he hmatch.1 hmatch.2
      · rw [hpart]
        exact hlanded
      · rw [hpart]
        exact hstarted

end Sys2Proof.Machine
end

section
/-!
PROOFS. Keys that load, and erases that settle (17 R375, R376, R384).
-/

namespace Sys2Proof.Machine
open Claims

/-! ### Erases that can take effect (17 R384) -/

theorem Mod.forAll_same {α : Type} {f : Mod → α → Mod} {m : Mod} {xs : List α} (h : ∀ x ∈ xs, f m x = m) : m.forAll f xs = m := by
  induction xs with
  | nil => rfl
  | cons x xs ih =>
    obtain ⟨hx, hxs⟩ := List.forall_mem_cons.mp h
    rw [Mod.forAll_cons, hx, ih hxs]

/-- One slot as an erase settles. -/
def Mod.settleOne (m : Mod) (e : Nat × KeySlot) : Mod :=
  if e.2.state == .erasing && e.2.users.isEmpty && !m.eraseHeld e.1 then m.slotFree e.1 else m

theorem Mod.settleErases_eq (m : Mod) : m.settleErases = m.forAll Mod.settleOne m.keys := rfl

theorem Mod.settleErases_idle {m : Mod} (h : ∀ e ∈ m.keys, e.2.state = .erasing → e.2.users ≠ [] ∨ m.eraseHeld e.1 = true) :
    m.settleErases = m := by
  refine Mod.forAll_same fun e he => if_neg ?_
  simp only [Bool.and_eq_true, beq_iff_eq, List.isEmpty_iff, Bool.not_eq_true', not_and, Bool.not_eq_false]
  rintro ⟨hstate, husers⟩
  exact (h e he hstate).resolve_left (absurd husers)

/-- What the settling of erases leaves: the partitions, what waits for its turn, and no request more that acts. -/
structure Mod.Settles (m n : Mod) : Prop where
  parts : n.parts = m.parts
  taken : n.taken = m.taken
  acting : ∀ r ∈ n.acting, r ∈ m.acting
  slot : ∀ i, n.keySlot i = m.keySlot i ∨ n.keySlot i = KeySlot.reset

section
variable {m n : Mod}

theorem Mod.Settles.refl (m : Mod) : m.Settles m := ⟨rfl, rfl, fun _ h => h, fun _ => .inl rfl⟩

theorem Mod.Settles.trans {l : Mod} (h : m.Settles n) (h' : n.Settles l) : m.Settles l where
  parts := h'.parts.trans h.parts
  taken := h'.taken.trans h.taken
  acting r hr := h.acting r (h'.acting r hr)
  slot i := by
    rcases h'.slot i with hi | hi
    · rw [hi]
      exact h.slot i
    · exact .inr hi

theorem Mod.Settles.held (h : m.Settles n) {slot : Nat} (hheld : m.eraseHeld slot = false) : n.eraseHeld slot = false := by
  rw [Mod.eraseHeld, List.any_eq_false] at hheld ⊢
  intro r hr hsome
  rw [h.taken] at hr
  refine hheld r hr ?_
  simp only [Bool.and_eq_true, List.any_eq_true] at hsome ⊢
  obtain ⟨hnames, x, hx, herases⟩ := hsome
  exact ⟨hnames, x, h.acting x hx, herases⟩

theorem Mod.settles_finish (m : Mod) (r : Request) (status detail : Nat) (payload : List Byte) :
    m.Settles (m.finish r status detail payload) where
  parts := Mod.parts_finish ..
  taken := Mod.taken_respond ..
  acting x hx := by
    rw [Mod.finish, Mod.acting_respond] at hx
    exact (List.mem_filter.mp hx).1
  slot i := .inl (Mod.keySlot_of_keys (Mod.keys_finish ..) i)

theorem Mod.settles_forAll {α : Type} {f : Mod → α → Mod} (h : ∀ (m : Mod) x, m.Settles (f m x)) (xs : List α) (m : Mod) :
    m.Settles (m.forAll f xs) :=
  Mod.forAll_keeps (P := fun n => m.Settles n) (fun n x hn => hn.trans (h n x)) xs m (.refl m)

theorem Mod.settles_slotFree (m : Mod) (slot : Nat) : m.Settles (m.slotFree slot) := by
  obtain ⟨hparts, -, hfree, hother⟩ := m.slotFree_spec slot
  have hrest : ({ m with keys := Table.erase slot m.keys } : Mod).Settles (m.slotFree slot) := by
    unfold Mod.slotFree
    refine Mod.settles_forAll (fun m r => ?_) _ _
    split
    · exact m.settles_finish ..
    · exact .refl m
  refine ⟨hparts, hrest.taken, hrest.acting, fun i => ?_⟩
  by_cases hi : i = slot
  · exact .inr (hi ▸ hfree)
  · exact .inl (hother i hi)

theorem Mod.settles_settleOne (m : Mod) (e : Nat × KeySlot) : m.Settles (m.settleOne e) := by
  unfold Mod.settleOne
  split
  · exact m.settles_slotFree e.1
  · exact .refl m

theorem Mod.settles_settleErases (m : Mod) : m.Settles m.settleErases :=
  Mod.settles_forAll Mod.settles_settleOne m.keys m

/-- A slot that no entry lets settle stands. -/
theorem Mod.keySlot_settleOnes_other {es : List (Nat × KeySlot)} {i : Nat}
    (h : ∀ e ∈ es, e.1 = i → e.2.state ≠ .erasing ∨ e.2.users ≠ []) (m : Mod) :
    (m.forAll Mod.settleOne es).keySlot i = m.keySlot i := by
  induction es generalizing m with
  | nil => rfl
  | cons e es ih =>
    obtain ⟨he, hes⟩ := List.forall_mem_cons.mp h
    rw [Mod.forAll_cons, ih hes]
    unfold Mod.settleOne
    split
    next hcond =>
      simp only [Bool.and_eq_true, beq_iff_eq, List.isEmpty_iff] at hcond
      obtain ⟨⟨hstate, husers⟩, -⟩ := hcond
      have hi : i ≠ e.1 := fun hi => (he hi.symm).elim (absurd hstate) (absurd husers)
      exact (m.slotFree_spec e.1).2.2.2 i hi
    · rfl

/-- A slot that is being erased, without users and not held, is free once erases have settled. -/
theorem Mod.keySlot_settleOnes {es : List (Nat × KeySlot)} {i : Nat} {x : KeySlot} (hx : (i, x) ∈ es)
    (hstate : x.state = .erasing) (husers : x.users = []) (m : Mod) (hheld : m.eraseHeld i = false) :
    (m.forAll Mod.settleOne es).keySlot i = KeySlot.reset := by
  induction es generalizing m with
  | nil => exact absurd hx List.not_mem_nil
  | cons e es ih =>
    rw [Mod.forAll_cons]
    rcases List.mem_cons.mp hx with rfl | hx
    · have hone : m.settleOne (i, x) = m.slotFree i := if_pos (by simp [hstate, husers, hheld])
      rw [hone]
      rcases (Mod.settles_forAll Mod.settles_settleOne es (m.slotFree i)).slot i with h | h
      · exact h.trans (m.slotFree_spec i).2.2.1
      · exact h
    · exact ih hx _ ((m.settles_settleOne e).held hheld)

theorem Mod.keySlot_settleErases {i : Nat} (hstate : (m.keySlot i).state = .erasing) (husers : (m.keySlot i).users = [])
    (hheld : m.eraseHeld i = false) : m.settleErases.keySlot i = KeySlot.reset := by
  rcases Table.get_mem KeySlot.reset i m.keys with hget | hmem
  · rw [Mod.keySlot, hget] at hstate
    exact absurd hstate (by decide)
  · exact Mod.keySlot_settleOnes hmem hstate husers m hheld

end

/-! ### Keys load (17 R375, R376) -/

section
variable {s : State} {r : Request} {rest : List Request} {f : Fn} {op : Nat} {sub : Request → Bool} {act : Mod → Request → Mod}

theorem gives_of_key_turn (ht : Turn s r rest) (hf : r.fn = f) (hop : r.opcode = op) (hsub : sub r = true) {c : Instr}
    (hc : exec c s = s.act fun m => (m.mbxRow f op sub act).settleErases)
    (hact : (act (turned s rest) r).figures = (turned s rest).figures) :
    Gives c s (act (turned s rest) r).settleErases := by
  rw [← Mod.mbxRow_of_turn ht hf hop hsub (Mod.taken_of_figures hact)]
  exact gives_of_act ht.1 hc

end

section
variable {m : Mod} {r : Request} (h : m.keyBad r = none)
include h

theorem Mod.keyPlain_good (hmat : materialBad (klKind r.payload) (slice r.payload 128 (materialLen (klKind r.payload))) = false) :
    m.keyPlain r = (m.keyInstall r (slice r.payload 128 (materialLen (klKind r.payload)))).respond r stOk 0
      ((m.keyInstall r (slice r.payload 128 (materialLen (klKind r.payload)))).keyAnswer (klSlot r.payload) (klKind r.payload)
        (zeros 96)) := by
  rw [Mod.keyPlain]
  exact Mod.judge_ok (by rw [h, hmat]; rfl)

theorem Mod.keyPlain_bad (hmat : materialBad (klKind r.payload) (slice r.payload 128 (materialLen (klKind r.payload))) = true) :
    m.keyPlain r = m.respond r stBadField 128 := by
  rw [Mod.keyPlain]
  exact Mod.judge_bad (by rw [h, hmat]; rfl)

theorem Mod.keyQueue_good :
    m.keyQueue r = { m.draw.2 with pke := m.pke ++ [PkeJob.load r m.draw.1], acting := m.acting ++ [r] } := by
  rw [Mod.keyQueue]
  exact Mod.judge_ok h

end

section
variable {x : KeySlot} {c : KeyVer} (kind : Nat) (t : BitVec 16) (mat : List Byte)

theorem KeySlot.install_first (h : x.current = none) : x.install kind t mat =
    { state := .loaded, kind := kind, tenant := t, current := some { ver := 1, material := mat }, retiring := none, users := [] } := by
  rw [KeySlot.install, h]

theorem KeySlot.install_again (h : x.current = some c) : x.install kind t mat =
    { x with current := some { ver := c.ver + 1, material := mat }, retiring := if x.usersOf (some c) = 0 then none else some c } := by
  rw [KeySlot.install, h]

/-- A version that is still used can be found after the next one is loaded. -/
theorem KeySlot.version_install (h : x.current = some c) (hused : x.usersOf (some c) ≠ 0) :
    (x.install kind t mat).version c.ver = some c := by
  rw [KeySlot.install_again kind t mat h, if_neg hused]
  simp [KeySlot.version]

end

/-- Settles O25: an installed key is the slot's next version, and what queues for the engine is one job. -/
theorem keyLoads : Obligations.KeyLoads := by
  refine ⟨fun s r rest ht hop hsub hbad => ?_, fun m r mat => ⟨?_, fun i hi => ?_, rfl⟩, fun s r rest c ht hop hc hbad => ?_,
    fun x kind t mat h => KeySlot.install_first kind t mat h, fun x kind t mat c h => ?_,
    fun x kind t mat c h hused => KeySlot.version_install kind t mat h hused, fun m h => Mod.settleErases_idle h⟩
  · have hgives := gives_of_key_turn ht rfl hop (by simp [hsub]) (exec_keyLoadPlain r.fn s) (by simp)
    refine ⟨fun hmat => ?_, fun hmat => ?_⟩
    · rwa [Mod.keyPlain_good (m := turned s rest) hbad hmat] at hgives
    · rwa [Mod.keyPlain_bad (m := turned s rest) hbad hmat] at hgives
  · exact Mod.keySlot_modKey ..
  · exact Mod.keySlot_modKey_other _ hi _
  · intro d
    rcases hc with ⟨rfl, hsub⟩ | ⟨rfl, hsub⟩
    · have hgives := gives_of_key_turn ht rfl hop (by simp [hsub]) (exec_keyLoadWrapped r.fn s) (by simp)
      rwa [Mod.keyQueue_good (m := turned s rest) hbad] at hgives
    · have hgives := gives_of_key_turn ht rfl hop (by simp [hsub]) (exec_keyLoadGenerate r.fn s) (by simp)
      rwa [Mod.keyQueue_good (m := turned s rest) hbad] at hgives
  · rw [KeySlot.install_again kind t mat h]
    exact ⟨rfl, rfl, rfl⟩

end Sys2Proof.Machine
end

section
/-!
PROOFS. Memory keys that bind, and keys that are erased (17 R378, R384).
-/

namespace Sys2Proof.Machine
open Claims

/-! ### The slot of a partition's memory key (17 R378) -/

theorem Partition.memSlot_setFld (p : Partition) {slot : Nat} (h : slot < 65536) :
    (p.setFld offKsStatus 15 0 slot).memSlot = slot := by
  rw [Partition.memSlot, Partition.reg_setFld, getF_setF_same _ _ _ _ (by decide) (by decide)]
  exact Nat.mod_eq_of_lt h

/-- `n` has the keys of `m`, and its requests that wait and that act. -/
structure Mod.SameDesk (m n : Mod) : Prop where
  keys : n.keys = m.keys
  taken : n.taken = m.taken
  acting : n.acting = m.acting

theorem Mod.sameDesk_finish {m n : Mod} (h : m.SameDesk n) (r : Request) (status detail : Nat) (payload : List Byte) :
    (m.finish r status detail payload).SameDesk (n.finish r status detail payload) := by
  refine ⟨?_, ?_, ?_⟩
  · rw [Mod.keys_finish, Mod.keys_finish, h.keys]
  · rw [Mod.finish, Mod.finish, Mod.taken_respond, Mod.taken_respond]
    exact h.taken
  · rw [Mod.finish, Mod.finish, Mod.acting_respond, Mod.acting_respond]
    exact congrArg (List.filter fun x => x.id != r.id) h.acting

theorem Mod.sameDesk_forAll {α : Type} {f : Mod → α → Mod} (hf : ∀ {m n : Mod} x, m.SameDesk n → (f m x).SameDesk (f n x))
    (xs : List α) {m n : Mod} (h : m.SameDesk n) : (m.forAll f xs).SameDesk (n.forAll f xs) := by
  induction xs generalizing m n with
  | nil => exact h
  | cons x xs ih => exact ih (hf x h)

theorem Mod.sameDesk_slotFree {m n : Mod} (h : m.SameDesk n) (slot : Nat) : (m.slotFree slot).SameDesk (n.slotFree slot) := by
  unfold Mod.slotFree
  dsimp only
  rw [h.acting]
  refine Mod.sameDesk_forAll (fun r hr => ?_) _ ⟨congrArg (Table.erase slot) h.keys, h.taken, rfl⟩
  split
  · exact Mod.sameDesk_finish hr ..
  · exact hr

theorem Mod.sameDesk_settleErases {m n : Mod} (h : m.SameDesk n) : m.settleErases.SameDesk n.settleErases := by
  rw [Mod.settleErases_eq, Mod.settleErases_eq, h.keys]
  refine Mod.sameDesk_forAll (fun e he => ?_) _ h
  unfold Mod.settleOne Mod.eraseHeld
  rw [he.taken, he.acting]
  split
  · exact Mod.sameDesk_slotFree he _
  · exact he

theorem klSlot_lt (pl : List Byte) : klSlot pl < 65536 :=
  (leNat_lt _).trans_le (Nat.pow_le_pow_right (by decide) (List.length_take_le ..) : _ ≤ 256 ^ 2)

section
variable {m : Mod} {r : Request} (h : m.keyBad r = none)
include h

/-- The partition's memory slot is written, and the request is answered. -/
theorem Mod.keyBind_good : m.keyBind r = ((m.modPart (klPart r.payload) fun p => p.setFld offKsStatus 15 0 (klSlot r.payload)).respond
    r stOk 0 ((m.modPart (klPart r.payload) fun p => p.setFld offKsStatus 15 0 (klSlot r.payload)).keyAnswer (klSlot r.payload) 1
      (zeros 96))) := by
  rw [Mod.keyBind]
  exact Mod.judge_ok h

theorem Mod.keyUnbind_good : m.keyUnbind r = ((m.modPart (klPart r.payload) fun p => p.setFld offKsStatus 15 0 0xFFFF).respond
    r stOk 0 ((m.modPart (klPart r.payload) fun p => p.setFld offKsStatus 15 0 0xFFFF).keyAnswer (klSlot r.payload) 1
      (zeros 96))) := by
  rw [Mod.keyUnbind]
  exact Mod.judge_ok h

end

theorem Mod.boundTo_spec (m : Mod) (r : Request) (k : Nat) {slot : Nat} (hslot : slot < 65536) (payload : List Byte) :
    let n := ((m.modPart k fun p => p.setFld offKsStatus 15 0 slot).respond r stOk 0 payload).settleErases
    (n.part k).memSlot = slot ∧ n.keys = m.settleErases.keys ∧
      (∀ off, off ≠ offKsStatus → (n.part k).reg off = (m.part k).reg off) ∧ (n.part k).ext = (m.part k).ext ∧
      (n.part k).near = (m.part k).near ∧ ∀ j, j ≠ k → n.part j = m.part j := by
  intro n
  have hparts (j : Nat) : n.part j = (m.modPart k fun p => p.setFld offKsStatus 15 0 slot).part j :=
    Mod.part_of_parts ((Mod.settles_settleErases _).parts.trans (Mod.parts_respond ..)) j
  have hpart : n.part k = (m.part k).setFld offKsStatus 15 0 slot := (hparts k).trans (Mod.part_modPart ..)
  refine ⟨?_, ?_, fun off hoff => ?_, ?_, ?_, fun j hj => (hparts j).trans (Mod.part_modPart_other _ hj _)⟩
  · rw [hpart, Partition.memSlot_setFld _ hslot]
  · exact (Mod.sameDesk_settleErases (m := m) (n := (m.modPart k fun p => p.setFld offKsStatus 15 0 slot).respond r stOk 0 payload)
      ⟨Mod.keys_respond .., Mod.taken_respond .., Mod.acting_respond ..⟩).keys
  · rw [hpart, Partition.reg_setFld_other _ _ _ _ _ hoff]
  · rw [hpart]
    rfl
  · rw [hpart]
    rfl

/-! ### The erasing of keys (17 R384) -/

theorem Mod.users_settleErases {m : Mod} {i : Nat} (h : (m.keySlot i).users = []) : (m.settleErases.keySlot i).users = [] := by
  rcases (m.settles_settleErases).slot i with hi | hi
  · rw [hi, h]
  · rw [hi]
    rfl

theorem Mod.users_eraseNow (m : Mod) (slot : Nat) : ((m.eraseNow slot).keySlot slot).users = [] :=
  congrArg KeySlot.users (Mod.keySlot_modKey ..)

theorem Mod.eraseHeld_of_unnamed {m : Mod} {slot : Nat}
    (h : ∀ q ∈ m.taken, (q.opcode = 0x30 → klSlot q.payload ≠ slot) ∧ erases slot q = false) : m.eraseHeld slot = false := by
  rw [Mod.eraseHeld, List.any_eq_false]
  intro q hq hsome
  obtain ⟨hload, herase⟩ := h q hq
  simp only [herase, Bool.or_false, Bool.and_eq_true, beq_iff_eq] at hsome
  exact hload hsome.1.1 hsome.1.2

/-- One partition as it loses the slot. -/
def Mod.unbindOne (slot : Nat) (m : Mod) (k : Nat) : Mod :=
  if (m.part k).created && (m.part k).memSlot == slot then m.modPart k fun p => p.setFld offKsStatus 15 0 0xFFFF else m

theorem Mod.eraseBegin_eq (m : Mod) (slot : Nat) (hb : m.binds = []) :
    m.eraseBegin slot = (m.modKey slot fun s => { s with state := .erasing }).forAll (Mod.unbindOne slot) allParts := by
  have hbinds (ks : List Nat) (n : Mod) (hn : n.binds = []) : (n.forAll (Mod.unbindOne slot) ks).binds = [] := by
    refine Mod.forAll_keeps (P := fun n => n.binds = []) (fun n k hn => ?_) ks n hn
    unfold Mod.unbindOne
    split
    · exact hn
    · exact hn
  have hform : m.eraseBegin slot = ((m.modKey slot fun s => { s with state := .erasing }).forAll (Mod.unbindOne slot) allParts).forAll
      (fun m (e : Nat × Binding) => if e.2.keySlot == slot then m.endBind e.1 stKeyRevoked else m)
      ((m.modKey slot fun s => { s with state := .erasing }).forAll (Mod.unbindOne slot) allParts).binds := rfl
  rw [hform, hbinds allParts (m.modKey slot fun s => { s with state := .erasing }) hb, Mod.forAll_nil]

theorem Mod.part_unbindOne {slot k : Nat} (m : Mod) (a : Nat) (h : (m.part k).memSlot ≠ slot) :
    (m.unbindOne slot a).part k = m.part k := by
  unfold Mod.unbindOne
  split
  next hcond =>
    simp only [Bool.and_eq_true, beq_iff_eq] at hcond
    exact Mod.part_modPart_other _ (fun hk => h (by rw [hk]; exact hcond.2)) _
  · rfl

theorem Mod.part_unbindOne_other {slot k a : Nat} (m : Mod) (h : k ≠ a) : (m.unbindOne slot a).part k = m.part k := by
  unfold Mod.unbindOne
  split
  · exact Mod.part_modPart_other _ h _
  · rfl

theorem Mod.memSlot_unbindOne {slot : Nat} (m : Mod) (k : Nat) (hc : (m.part k).created = true)
    (h : (m.part k).memSlot = slot) : ((m.unbindOne slot k).part k).memSlot = 0xFFFF := by
  have hone : m.unbindOne slot k = m.modPart k fun p => p.setFld offKsStatus 15 0 0xFFFF := if_pos (by simp [hc, h])
  rw [hone, Mod.part_modPart, Partition.memSlot_setFld _ (by decide)]

/-- Every partition that exists among `ks` loses the slot, and no other partition changes. -/
theorem Mod.unbindOnes_spec (slot : Nat) (ks : List Nat) (m : Mod) :
    (∀ k, (m.part k).memSlot ≠ slot → (m.forAll (Mod.unbindOne slot) ks).part k = m.part k) ∧
    (∀ k, (m.part k).memSlot = 0xFFFF → ((m.forAll (Mod.unbindOne slot) ks).part k).memSlot = 0xFFFF) ∧
    ∀ k ∈ ks, (m.part k).created = true → (m.part k).memSlot = slot →
      ((m.forAll (Mod.unbindOne slot) ks).part k).memSlot = 0xFFFF := by
  induction ks generalizing m with
  | nil => exact ⟨fun _ _ => rfl, fun _ h => h, fun k hk => absurd hk List.not_mem_nil⟩
  | cons a ks ih =>
    obtain ⟨ihother, ihnone, ihbound⟩ := ih (m.unbindOne slot a)
    have hnone (k : Nat) (hk : (m.part k).memSlot = 0xFFFF) : ((m.unbindOne slot a).part k).memSlot = 0xFFFF := by
      unfold Mod.unbindOne
      split
      · by_cases hka : k = a
        · rw [hka, Mod.part_modPart, Partition.memSlot_setFld _ (by decide)]
        · rw [Mod.part_modPart_other _ hka, hk]
      · exact hk
    refine ⟨fun k hk => ?_, fun k hk => ihnone k (hnone k hk), fun k hk hc hslot => ?_⟩
    · rw [Mod.forAll_cons, ihother k (by rwa [Mod.part_unbindOne m a hk]), Mod.part_unbindOne m a hk]
    · by_cases hka : k = a
      · subst hka
        exact ihnone k (m.memSlot_unbindOne k hc hslot)
      · have hsame := m.part_unbindOne_other (slot := slot) hka
        exact ihbound k ((List.mem_cons.mp hk).resolve_left hka) (by rwa [hsame]) (by rwa [hsame])

/-- Without bindings the begin of an erase marks the slot and unbinds it everywhere. -/
theorem Mod.eraseBegin_unbinds (m : Mod) (slot : Nat) (hb : m.binds = []) :
    (m.eraseBegin slot).keySlot slot = { m.keySlot slot with state := .erasing } ∧
    (∀ i, i ≠ slot → (m.eraseBegin slot).keySlot i = m.keySlot i) ∧
    (∀ k, k < 64 → (m.part k).created = true → (m.part k).memSlot = slot → ((m.eraseBegin slot).part k).memSlot = 0xFFFF) ∧
    (∀ k, (m.part k).memSlot ≠ slot → (m.eraseBegin slot).part k = m.part k) := by
  obtain ⟨hkeys, -, -⟩ := m.eraseBegin_spec slot hb
  refine ⟨(Mod.keySlot_of_keys hkeys slot).trans (Mod.keySlot_modKey ..),
    fun i hi => (Mod.keySlot_of_keys hkeys i).trans (m.keySlot_modKey_other hi _), ?_⟩
  rw [m.eraseBegin_eq slot hb]
  obtain ⟨hother, -, hbound⟩ := Mod.unbindOnes_spec slot allParts (m.modKey slot fun s => { s with state := .erasing })
  exact ⟨fun k hk hc hslot => hbound k (List.mem_range.mpr hk) hc hslot, fun k hk => hother k hk⟩

/-- Settles O26: a slot leaves a partition by its one register, and what an erase waits for is in the slot's users and the queue. -/
theorem keysBindAndErase : Obligations.KeysBindAndErase := by
  refine ⟨fun s r rest c slot ht hop hc hbad => ?_, fun s r rest ht hop hnow hbad => ?_, fun s r rest ht hop hnow hbad => ?_,
    fun m slot hb => m.eraseBegin_unbinds slot hb, fun m i hstate husers hheld => Mod.keySlot_settleErases hstate husers hheld,
    fun m i h => Mod.keySlot_settleOnes_other h m, fun s i ha hstate husers hheld => ?_, fun s i v ha hstate hret hused => ?_⟩
  · rcases hc with ⟨rfl, hsub, rfl⟩ | ⟨rfl, hsub, rfl⟩
    · have hgives := gives_of_key_turn ht rfl hop (by simp [hsub]) (exec_keyBindMem r.fn s) (by simp)
      rw [Mod.keyBind_good (m := turned s rest) hbad] at hgives
      exact ⟨_, hgives, (turned s rest).boundTo_spec r _ (klSlot_lt _) _⟩
    · have hgives := gives_of_key_turn ht rfl hop (by simp [hsub]) (exec_keyUnbindMem r.fn s) (by simp)
      rw [Mod.keyUnbind_good (m := turned s rest) hbad] at hgives
      exact ⟨_, hgives, (turned s rest).boundTo_spec r _ (by decide) _⟩
  · intro slot
    have hgives := gives_of_key_turn ht rfl hop (by simp [hnow]) (exec_keyEraseNow r.fn s) (by simp)
    have hnow : (turned s rest).keyEraseNow r = ((turned s rest).hold r).eraseNow slot := Mod.judge_ok hbad
    rw [hnow] at hgives
    refine ⟨hgives, Mod.users_settleErases (Mod.users_eraseNow ..), fun husers hb hunnamed => ?_⟩
    obtain ⟨-, -, hstate, -⟩ := ((turned s rest).hold r).eraseNow_unused slot hb husers
    have htaken : (((turned s rest).hold r).eraseNow slot).taken = rest :=
      Mod.taken_of_figures (m := (turned s rest).hold r) (by simp)
    exact Mod.keySlot_settleErases hstate (Mod.users_eraseNow ..)
      (Mod.eraseHeld_of_unnamed fun q hq => hunnamed q (htaken ▸ hq))
  · have hgives := gives_of_key_turn ht rfl hop (by simp [hnow]) (exec_keyErase r.fn s) (by simp)
    have hlater : (turned s rest).keyErase r = ((turned s rest).hold r).eraseBegin (keSlot r.payload) := Mod.judge_ok hbad
    rwa [hlater] at hgives
  · have hgives := gives_of_alive ha (exec_keyUserEnd i s)
    have hend : s.mod.userEnd i.val = s.mod.slotFree i.val := if_pos (by simp [hstate, husers, hheld])
    rw [hend] at hgives
    obtain ⟨-, -, hfree, hother⟩ := s.mod.slotFree_spec i.val
    exact ⟨_, hgives, hfree, hother⟩
  · have hgives := gives_of_alive ha (exec_keyUserEnd i s)
    have hend : s.mod.userEnd i.val = s.mod.modKey i.val fun x => { x with retiring := none } := by
      unfold Mod.userEnd
      dsimp only
      rw [if_neg (by simp [hstate]), if_pos (by simp [hret, hused])]
    rw [hend] at hgives
    exact ⟨_, hgives, Mod.keySlot_modKey .., fun j hj => s.mod.keySlot_modKey_other hj _⟩

end Sys2Proof.Machine
end

section
/-!
PROOFS. The public-key engine (17 R380, R394).
-/

namespace Sys2Proof.Machine
open Claims

/-! ### The operation at the front of the public-key engine (17 R380, R394) -/

theorem gives_pkeEnds {s : State} {j : PkeJob} {rest : List PkeJob} (ha : Alive s) (hpke : s.mod.pke = j :: rest) :
    Gives .pkeOperationDone s (({ s.mod with pke := rest } : Mod).pkeEnds j) := by
  have hgives := gives_of_alive ha (exec_pkeOperationDone s)
  rwa [hpke] at hgives

theorem gives_wrapped {s : State} {w : WrappedDone} {rest : List WrappedDone} (hl : Live s) (hw : s.mod.wrapped = w :: rest) :
    Gives .keyLoadWrappedResponse s (({ s.mod with wrapped := rest } : Mod).finish w.req w.status w.detail w.payload) := by
  have hgives := gives_of_molique hl (exec_keyLoadWrappedResponse s)
  rwa [hw] at hgives

section
variable (m : Mod)

/-- Where a reason is noted, nothing but one register of a partition or of the chip changes. -/
theorem Mod.pkeReason_eq (f : Fn) (reason : Nat) : ∃ parts chip, m.pkeReason f reason = { m with parts := parts, chip := chip } := by
  unfold Mod.pkeReason
  split <;> exact ⟨_, _, rfl⟩

theorem Mod.generateDone_good {r : Request} {d : Nat} (h : m.keyBad r = none) : m.generateDone r d =
    (m.keyInstall r (leBytes 48 (scalarOf d))).finish r stOk 0
      ((m.keyInstall r (leBytes 48 (scalarOf d))).keyAnswer (klSlot r.payload) 3 (pointBytes (scalarMul (scalarOf d) curveG))) := by
  rw [Mod.generateDone, h]

theorem Mod.wrappedDone_spec (r : Request) : ∃ w, (m.wrappedDone r).wrapped = m.wrapped ++ [w] ∧ w.req = r ∧
    (m.wrappedDone r).pke = m.pke ∧ (m.wrappedDone r).acting = m.acting ∧ (m.wrappedDone r).mbx = m.mbx := by
  unfold Mod.wrappedDone
  extract_lets res m₁
  have h₁ : ∃ parts chip, m₁ = { m with parts := parts, chip := chip } := by
    unfold m₁
    split
    · exact m.pkeReason_eq r.fn _
    · exact ⟨_, _, rfl⟩
  obtain ⟨parts, chip, h₁⟩ := h₁
  rw [h₁]
  split <;> exact ⟨_, rfl, rfl, rfl, rfl, rfl⟩

theorem Mod.verifyDone_spec {l : FwLoad} (h : m.fwLoad = some l) :
    (m.verifyDone).pke = m.pke ∧ (m.verifyDone).fwLoad = some { l with verdict := some ((imageVerify l.bytes).getD 0) } ∧
      ∀ w, imageVerify l.bytes = some w → getF ((m.verifyDone).chipReg offKsStatus64) 19 16 = w % 16 := by
  unfold Mod.verifyDone
  rw [h]
  dsimp only
  cases hv : imageVerify l.bytes with
  | none => exact ⟨rfl, rfl, fun w hw => absurd hw (by simp)⟩
  | some w =>
    refine ⟨rfl, rfl, fun x hx => ?_⟩
    obtain rfl := Option.some.inj hx
    simp only [Mod.pkeReason]
    rw [Mod.chipReg_setChipFld, getF_setF_same _ _ _ _ (by decide) (by decide)]
    rfl

theorem Mod.spdmAt_spdmSend (t : SpdmPort) (msg : List Byte) (a : SpdmAnswer) (next : Spdm → Spdm) :
    ((m.spdmSend t msg a next).spdmAt t) = { next (m.spdmAt t) with
      transcript := (next (m.spdmAt t)).transcript ++ msg ++ Config.spdmResponse a.code a.contents msg } :=
  Table.get_set_same ..

theorem Mod.signDone_session (t : SpdmPort) (msg : List Byte) (a : SpdmAnswer) :
    ((m.signDone t msg a none).spdmAt t).session = (m.spdmAt t).session := by
  rw [Mod.signDone, Mod.spdmAt_spdmSend]

theorem Mod.signDone_exchange (t : SpdmPort) (msg : List Byte) (a : SpdmAnswer) (z : Nat) :
    ((m.signDone t msg a (some z)).spdmAt t).session = 1 ∧ ((m.signDone t msg a (some z)).spdmAt t).secret = z := by
  rw [Mod.signDone, Mod.spdmAt_spdmSend]
  exact ⟨rfl, rfl⟩

end

section
variable {m : Mod} {t : SpdmPort} {msg : List Byte} {d : Nat}

theorem Mod.agreeDone_screened {w : Nat} {b : Bool}
    (h : screenPoint (exchangePoint msg).1 (exchangePoint msg).2 = some (w, b)) :
    m.agreeDone t msg d = (m.setChipFld offKsStatus64 19 16 w).send (.spdm t .error) := by
  rw [Mod.agreeDone, h]
  rfl

theorem Mod.agreeDone_infinity (h : screenPoint (exchangePoint msg).1 (exchangePoint msg).2 = none)
    (hmul : scalarMul d (some (exchangePoint msg)) = none) :
    m.agreeDone t msg d = (m.setChipFld offKsStatus64 19 16 6).send (.spdm t .error) := by
  rw [Mod.agreeDone, h, hmul]
  rfl

theorem Mod.agreeDone_agreed {z y : Nat} (h : screenPoint (exchangePoint msg).1 (exchangePoint msg).2 = none)
    (hmul : scalarMul d (some (exchangePoint msg)) = some (z, y)) : m.agreeDone t msg d =
      { m with pke := m.pke ++ [PkeJob.sign t msg (.keyExchange (pointBytes (scalarMul d curveG)) (0, 0)) (some z)] } := by
  rw [Mod.agreeDone, h, hmul]

end

/-- Settles O27: the engine ends the job at its front, and each kind of job ends in its own way. -/
theorem keyEngine : Obligations.KeyEngine := by
  refine ⟨fun s r d rest ha hpke hop hbad => ?_, fun s r d rest ha hpke hop => ?_, fun s w rest hl hw => gives_wrapped hl hw,
    fun s l rest ha hpke hload => ?_, fun s r body rest ha hpke => gives_pkeEnds ha hpke,
    fun s r body v rest ha hpke => gives_pkeEnds ha hpke, fun s r body sig v rest ha hpke => gives_pkeEnds ha hpke,
    fun s t msg a z rest ha hpke => ?_, fun s t msg d rest ha hpke => gives_pkeEnds ha hpke,
    fun s t msg d rest ha hpke => ?_⟩
  · have hgives := gives_pkeEnds ha hpke
    rw [show ({ s.mod with pke := rest } : Mod).pkeEnds (.load r d) = ({ s.mod with pke := rest } : Mod).generateDone r d from
      if_neg (by omega), Mod.generateDone_good _ hbad] at hgives
    exact hgives
  · have hgives := gives_pkeEnds ha hpke
    rw [show ({ s.mod with pke := rest } : Mod).pkeEnds (.load r d) = ({ s.mod with pke := rest } : Mod).wrappedDone r from
      if_pos hop] at hgives
    obtain ⟨w, hwrapped, hreq, hpke', hacting, hmbx⟩ := ({ s.mod with pke := rest } : Mod).wrappedDone_spec r
    exact ⟨_, w, hgives, hpke', hwrapped, hreq, hacting, hmbx⟩
  · obtain ⟨hpke', hfw, hreason⟩ := ({ s.mod with pke := rest } : Mod).verifyDone_spec hload
    exact ⟨_, gives_pkeEnds ha hpke, hpke', hfw, hreason⟩
  · refine ⟨_, gives_pkeEnds ha hpke, rfl, rfl, fun hz => ?_, fun x hz => ?_, rfl, rfl⟩
    · subst hz
      exact Mod.signDone_session ..
    · subst hz
      exact Mod.signDone_exchange ..
  · have hends {n : Mod} (hn : ({ s.mod with pke := rest } : Mod).agreeDone t msg d = n) : Gives .pkeOperationDone s n :=
      hn ▸ gives_pkeEnds ha hpke
    exact ⟨fun w b h => hends (Mod.agreeDone_screened h), fun h hmul => hends (Mod.agreeDone_infinity h hmul),
      fun z y h hmul => hends (Mod.agreeDone_agreed h hmul)⟩

end Sys2Proof.Machine
end

section
/-!
PROOFS. Contexts and frames (04 R98, R101).
-/

namespace Sys2Proof.Machine
open Claims

/-! ### CTX_CREATE (04 R98) -/

/-- The offsets of a context's doorbell page. -/
def inPage (c off : Nat) : Bool := decide (0x10000 + 0x1000 * c ≤ off) && decide (off < 0x11000 + 0x1000 * c)

theorem Partition.reg_resetPage (p : Partition) (c off : Nat) :
    (p.resetPage c).reg off = if inPage c off then partRegReset off else p.reg off := by
  rw [Partition.reg_of_filter (p := p) (g := fun o => !inPage c o) rfl off]
  cases inPage c off <;> rfl

/-- The partition in which a context is created. -/
def Partition.newCtx (p : Partition) (c : Nat) (ftz : Bool) : Partition :=
  (p.resetPage c).modCtx c fun old => { Context.reset with created := true, ftz := ftz, lastHandle := old.lastHandle }

theorem Mod.ctxCreate_good {m : Mod} {r : Request} (h : m.ctxCreateBad r = none) : m.ctxCreate r =
    (m.modPart (fld r.payload 0 2 / 16) fun p => p.newCtx (fld r.payload 0 2 % 16) (bit (fld r.payload 2 2) 0)).respond r stOk 0 := by
  rw [Mod.ctxCreate]
  exact Mod.judge_ok h

/-! ### Poison of granules (11 R252) -/

section
variable (p : Partition) (g : Nat)

theorem Partition.poisoned_clear_same : (p.setPoison g false).poisoned g = false := by
  unfold Partition.setPoison Partition.poisoned
  dsimp only
  split
  · simp
  · simp

theorem Partition.poisoned_clear {g' : Nat} (h : p.poisoned g' = false) : (p.setPoison g false).poisoned g' = false := by
  unfold Partition.poisoned at h ⊢
  have hsub : ∀ {l : List Nat}, l.contains g' = false → (l.filter (· != g)).contains g' = false := by
    intro l hl
    rw [Bool.eq_false_iff] at hl ⊢
    intro hc
    exact hl (List.contains_iff_mem.mpr (List.mem_filter.mp (List.contains_iff_mem.mp hc)).1)
  unfold Partition.setPoison
  dsimp only
  split at h
  next hext =>
    rw [if_pos hext]
    split
    · exact hsub h
    · exact h
  next hext =>
    rw [if_neg hext]
    split
    · exact h
    · exact hsub h

/-- The partition with granules written whole, so no longer poisoned. -/
def Partition.cleansed (p : Partition) (gs : List Nat) : Partition := gs.foldl (fun p g => p.setPoison g false) p

theorem Partition.cleansed_eq (gs : List Nat) :
    ∃ nearPoison extPoison, p.cleansed gs = { p with nearPoison := nearPoison, extPoison := extPoison } := by
  induction gs generalizing p with
  | nil => exact ⟨_, _, rfl⟩
  | cons g gs ih =>
    obtain ⟨near, ext, h⟩ := ih (p.setPoison g false)
    refine ⟨near, ext, h.trans ?_⟩
    unfold Partition.setPoison
    dsimp only
    split <;> rfl

theorem Partition.poisoned_cleansed {gs : List Nat} (h : g ∈ gs) : (p.cleansed gs).poisoned g = false := by
  have hkeep (gs : List Nat) (p : Partition) (h : p.poisoned g = false) : (p.cleansed gs).poisoned g = false := by
    induction gs generalizing p with
    | nil => exact h
    | cons g' gs ih => exact ih _ (p.poisoned_clear g' h)
  induction gs generalizing p with
  | nil => exact absurd h List.not_mem_nil
  | cons g' gs ih =>
    rcases List.mem_cons.mp h with rfl | h
    · exact hkeep gs _ (p.poisoned_clear_same _)
    · exact ih _ h

end

/-! ### FRAME_LOAD (04 R101) -/

theorem Mod.memRead_clean {m : Mod} {k key loc n : Nat} {unit : Bool} {chan : Option Nat}
    (h : (m.memRead k key loc n .clean unit chan).1.bad = []) : (m.memRead k key loc n .clean unit chan).2 = m := by
  unfold Mod.memRead at h ⊢
  dsimp only at h ⊢
  rw [h]
  rfl

theorem Mod.tenantRead_clean {m : Mod} {k loc n : Nat} (h : (m.tenantRead k loc n .clean).1.bad = []) :
    (m.tenantRead k loc n .clean).2 = m := by
  unfold Mod.tenantRead at h ⊢
  split at h
  next hkey => rw [if_pos hkey]
  next hkey =>
    rw [if_neg hkey]
    exact Mod.memRead_clean h

theorem freeGranules_free {used : List Nat} {fuel g n : Nat} {x : Nat} (h : x ∈ freeGranules used fuel g n) : x ∉ used := by
  induction fuel generalizing g n with
  | zero => exact absurd h List.not_mem_nil
  | succ fuel ih =>
    cases n with
    | zero => exact absurd h List.not_mem_nil
    | succ n =>
      rw [freeGranules] at h
      split at h
      · exact ih h
      next hfree =>
        rcases List.mem_cons.mp h with rfl | h
        · simpa using hfree
        · exact ih h

/-- The partition with an image stored in a context's frames. -/
def Partition.stored (p : Partition) (c replace : Nat) (img : List Byte) : Partition :=
  let kept := Table.erase replace (p.ctx c).frames
  let gs := storeGranules kept img.length
  let h := (p.ctx c).lastHandle + 1
  (p.cleansed (gs.map (frameGranule c))).modCtx c fun x =>
    { x with frames := Table.set h { image := img, granules := gs } kept, lastHandle := h }

theorem Mod.storeFrame_eq (m : Mod) {r : Request} (img : List Byte) (h : flReport r.payload = 0) : ∃ payload,
    m.storeFrame r img = (m.modPart (flCtx r.payload / 16) fun p => p.stored (flCtx r.payload % 16) (flReplace r.payload) img).respond
      r stOk 0 payload := by
  rw [Mod.storeFrame]
  dsimp only
  rw [if_pos h]
  refine ⟨_, congrArg (fun m : Mod => m.respond r stOk 0 _) (Mod.modPart_congr ?_)⟩
  unfold Partition.stored Partition.cleansed
  dsimp only
  rw [List.foldl_map]

theorem Mod.frameLoad_good {m : Mod} {r : Request} (hbad : m.frameLoadBad r = none) :
    let k := flCtx r.payload / 16
    let rd := m.tenantRead k (flSrc r.payload) (flLen r.payload) .clean
    rd.1.bad = [] → frameBad rd.1.bytes (flLen r.payload) (flReport r.payload) = none →
    storeFull (Table.erase (flReplace r.payload) ((m.part k).ctx (flCtx r.payload % 16)).frames) (flLen r.payload) = false →
    m.frameLoad r .clean = m.storeFrame r rd.1.bytes := by
  intro k rd hclean himage hroom
  have hsame : rd.2 = m := Mod.tenantRead_clean hclean
  rw [Mod.frameLoad, Mod.judge_ok hbad]
  change (if !rd.1.bad.isEmpty then rd.2.respond r stIntegrity 0
    else rd.2.judge r (orBad (frameBad rd.1.bytes (flLen r.payload) (flReport r.payload))
      (firstBad [(storeFull (Table.erase (flReplace r.payload) ((rd.2.part k).ctx (flCtx r.payload % 16)).frames)
        (flLen r.payload), stNoResource, 0)])) fun m => m.storeFrame r rd.1.bytes) = _
  rw [hsame, hclean, himage, hroom]
  rfl

theorem Partition.ctx_cleansed (p : Partition) (gs : List Nat) (d : Nat) : (p.cleansed gs).ctx d = p.ctx d := by
  obtain ⟨near, ext, h⟩ := p.cleansed_eq gs
  rw [h]
  rfl

theorem Partition.stored_spec (p : Partition) (c replace : Nat) (img : List Byte) :
    let h := (p.ctx c).lastHandle + 1
    let kept := Table.erase replace (p.ctx c).frames
    let q := p.stored c replace img
    (∃ f, Table.find h (q.ctx c).frames = some f ∧ f.image = img ∧
      ∀ g ∈ f.granules, (∀ e ∈ kept, g ∉ e.2.granules) ∧ q.poisoned (frameGranule c g) = false) ∧
    (q.ctx c).lastHandle = h ∧
    (∀ i, i ≠ h → i ≠ replace → Table.find i (q.ctx c).frames = Table.find i (p.ctx c).frames) ∧
    (replace ≠ h → Table.find replace (q.ctx c).frames = none) ∧ (∀ d, d ≠ c → q.ctx d = p.ctx d) ∧ q.near = p.near ∧
    q.ext = p.ext := by
  intro h kept q
  have hctx : q.ctx c = { p.ctx c with
      frames := Table.set h ⟨img, storeGranules kept img.length⟩ kept, lastHandle := h } := by
    refine (Partition.ctx_modCtx ..).trans ?_
    rw [Partition.ctx_cleansed]
  have hmem : q.near = p.near ∧ q.ext = p.ext := by
    obtain ⟨near, ext, hsame⟩ := p.cleansed_eq ((storeGranules kept img.length).map (frameGranule c))
    unfold q Partition.stored
    dsimp only
    rw [hsame]
    exact ⟨rfl, rfl⟩
  refine ⟨⟨⟨img, storeGranules kept img.length⟩, ?_, rfl, fun g hg => ⟨fun e he hused => ?_, ?_⟩⟩, ?_, fun i hi hr => ?_,
    fun hr => ?_, fun d hd => ?_, hmem.1, hmem.2⟩
  · rw [hctx]
    exact Table.find_set_same ..
  · exact freeGranules_free hg (List.mem_flatMap.mpr ⟨e, he, hused⟩)
  · exact p.poisoned_cleansed _ (List.mem_map_of_mem hg)
  · rw [hctx]
  · rw [hctx]
    exact (Table.find_set_other hi ..).trans (Table.find_erase_other hr _)
  · rw [hctx]
    exact (Table.find_set_other hr ..).trans (Table.find_erase_same ..)
  · exact (Partition.ctx_modCtx_other _ hd _).trans (Partition.ctx_cleansed ..)

/-- Settles O21: a new context is written whole with its page, and a stored frame takes free granules. -/
theorem contextsAndFrames : Obligations.ContextsAndFrames := by
  refine ⟨fun s r rest ht hop hbad => ?_, fun s r rest ht hop hbad => ?_⟩
  · intro k c
    have hgives := gives_of_turn_figures ht rfl hop rfl (exec_ctxCreate r.fn s) (by simp)
    rw [Mod.ctxCreate_good (m := turned s rest) hbad] at hgives
    refine ⟨_, hgives, ?_⟩
    simp only [Mod.part_respond]
    have hpart : ((turned s rest).modPart k fun p => p.newCtx c (bit (fld r.payload 2 2) 0)).part k =
        (s.mod.part k).newCtx c (bit (fld r.payload 2 2) 0) := Mod.part_modPart ..
    have hreg (off : Nat) := (s.mod.part k).reg_resetPage c off
    rw [hpart]
    refine ⟨?_, fun off hlow hhigh => ?_, fun off hout => ?_, fun d hd => ?_, fun j hj => ?_, rfl, rfl⟩
    · exact Partition.ctx_modCtx ..
    · exact (hreg off).trans (if_pos (by simp [inPage, hlow, hhigh]))
    · refine (hreg off).trans (if_neg ?_)
      simp only [inPage, Bool.and_eq_true, decide_eq_true_eq]
      omega
    · exact Partition.ctx_modCtx_other _ hd _
    · exact Mod.part_modPart_other _ hj _
  · intro k c x rd kept hclean himage hreport hroom
    have hgives := gives_of_turn_figures ht rfl hop rfl (exec_frameLoad r.fn .clean s) (by simp)
    obtain ⟨payload, hstore⟩ := (turned s rest).storeFrame_eq rd.1.bytes hreport
    rw [Mod.frameLoad_good (m := turned s rest) hbad hclean himage hroom, hstore] at hgives
    obtain ⟨⟨f, hfind, himg, hgranules⟩, hlast, hothers, hreplaced, hctx, hnear, hext⟩ :=
      (s.mod.part k).stored_spec c (flReplace r.payload) rd.1.bytes
    refine ⟨_, f, hgives, ?_⟩
    simp only [Mod.part_respond]
    have hpart : ((turned s rest).modPart k fun p => p.stored c (flReplace r.payload) rd.1.bytes).part k =
        (s.mod.part k).stored c (flReplace r.payload) rd.1.bytes := Mod.part_modPart ..
    rw [hpart]
    exact ⟨hfind, himg, hgranules, hlast, hothers, hreplaced, hctx, hnear, hext, fun j hj => Mod.part_modPart_other _ hj _⟩

end Sys2Proof.Machine
end

section
/-!
PROOFS. Weight shards and their background scrub (14 R316 to R321).
-/

namespace Sys2Proof.Machine
open Claims

/-! ### Shards that are fetched and copied (14 R316, R317) -/

/-- `n` has the shards and the acting requests of `m`, but that the shard in a slot of `k` may have failed. -/
structure Mod.Fetches (k slot : Nat) (m n : Mod) : Prop where
  acting : n.acting = m.acting
  other : ∀ i, i ≠ slot → (n.part k).shard i = (m.part k).shard i
  slot : ∀ x, (m.part k).shard slot = some x → ∃ failed, (n.part k).shard slot = some { x with failed := failed }

theorem Mod.Fetches.trans {k slot : Nat} {m n l : Mod} (h : m.Fetches k slot n) (h' : n.Fetches k slot l) :
    m.Fetches k slot l where
  acting := h'.acting.trans h.acting
  other i hi := (h'.other i hi).trans (h.other i hi)
  slot x hx := by
    obtain ⟨failed, hn⟩ := h.slot x hx
    obtain ⟨failed', hl⟩ := h'.slot { x with failed := failed } hn
    exact ⟨failed', hl⟩

theorem Mod.fetches_modPart {k slot : Nat} (m : Mod) {f : Partition → Partition}
    (hf : (f (m.part k)).shards = (m.part k).shards) : m.Fetches k slot (m.modPart k f) where
  acting := rfl
  other i _ := by rw [Mod.part_modPart, Partition.shard, hf]; rfl
  slot x hx := ⟨x.failed, by rw [Mod.part_modPart, Partition.shard, hf]; exact hx⟩

/-- The shard of a slot once the transfer for slot `slot` has failed. -/
def Shard.failedAt (slot status detail i : Nat) (x : Shard) : Shard :=
  if i = slot ∧ x.failed.isNone = true then { x with failed := some (status, detail) } else x

theorem Partition.shard_shardFail (p : Partition) (slot status detail i : Nat) :
    (p.shardFail slot status detail).shard i = (p.shard i).map (Shard.failedAt slot status detail i) :=
  Table.find_mapValues i (Shard.failedAt slot status detail) p.shards

theorem Shard.failedAt_other {slot i : Nat} (h : i ≠ slot) (status detail : Nat) :
    Shard.failedAt slot status detail i = id := funext fun _ => if_neg fun hi => h hi.1

theorem Shard.failedAt_eq (slot status detail i : Nat) (x : Shard) :
    ∃ failed, Shard.failedAt slot status detail i x = { x with failed := failed } := by
  unfold Shard.failedAt
  split
  · exact ⟨_, rfl⟩
  · exact ⟨x.failed, rfl⟩

theorem Mod.fetches_ownerFails (m : Mod) (k ch slot status detail : Nat) {d : Desc} (hd : d.owner = .shard slot) :
    m.Fetches k slot (m.ownerFails k ch d status detail) := by
  have hfails : m.ownerFails k ch d status detail =
      m.modPart k fun p => (p.flag (offChStatus ch) 7).shardFail slot status detail := by
    rw [Mod.ownerFails, hd]
  rw [hfails]
  refine ⟨rfl, fun i hi => ?_, fun x hx => ?_⟩
  · rw [Mod.part_modPart, Partition.shard_shardFail, Shard.failedAt_other hi, Option.map_id]
    rfl
  · rw [Mod.part_modPart, Partition.shard_shardFail, show ((m.part k).flag (offChStatus ch) 7).shard slot = some x from hx,
      Option.map_some]
    obtain ⟨failed, h⟩ := Shard.failedAt_eq slot status detail slot x
    exact ⟨failed, congrArg some h⟩

theorem Mod.fetches_pushDesc (m : Mod) (k ch slot : Nat) {d : Desc} (hd : d.owner = .shard slot) :
    m.Fetches k slot (m.pushDesc k ch d) := by
  unfold Mod.pushDesc
  split
  · exact m.fetches_ownerFails k ch slot stAborted ch hd
  · exact m.fetches_modPart rfl

theorem Mod.fetches_pushDescs (k ch slot : Nat) {ds : List Desc} (hds : ∀ d ∈ ds, d.owner = .shard slot) (m : Mod) :
    m.Fetches k slot (m.forAll (fun m d => m.pushDesc k ch d) ds) := by
  induction ds generalizing m with
  | nil => exact ⟨rfl, fun _ _ => rfl, fun x hx => ⟨x.failed, hx⟩⟩
  | cons d ds ih =>
    obtain ⟨hd, hrest⟩ := List.forall_mem_cons.mp hds
    exact (m.fetches_pushDesc k ch slot hd).trans (ih hrest _)

theorem owner_shardDescs {slot srcKind src dst len : Nat} : ∀ d ∈ shardDescs slot srcKind src dst len, d.owner = .shard slot := by
  intro d hd
  obtain ⟨i, -, rfl⟩ := List.mem_map.mp hd
  rfl

/-- The shard as an accepted request puts it into its slot. -/
def Mod.newShard (m : Mod) (r : Request) : Shard :=
  let pl := r.payload
  let src := (m.part (shCtx pl / 16)).shardOf (shCtx pl % 16) (shSrcSlot pl)
  let copy := shOp pl == 2
  { ctx := shCtx pl % 16, loc := shLoc pl, len := shLen pl
    digest := ((if copy then src else none).map (·.digest)).getD (slice pl 32 48)
    state := .pending, move := if copy && shMove pl then some (shSrcSlot pl) else none, failed := none, arrived := false
    hashed := [], fn := r.fn }

theorem Mod.shardAttach_eq {m : Mod} {r : Request} (hfields : m.shardFields r = none) (hbad : m.shardBad r = none) :
    ∃ srcKind src, m.shardAttach r =
      ((m.modPart (shCtx r.payload / 16) fun p => { p with shards := Table.set (shSlot r.payload) (m.newShard r) p.shards }).forAll
        (fun m d => m.pushDesc (shCtx r.payload / 16) 15 d)
        (shardDescs (shSlot r.payload) srcKind src (shLoc r.payload) (shLen r.payload))).hold r := by
  rw [Mod.shardAttach, Mod.judge_ok (by rw [hfields, hbad]; rfl)]
  unfold Mod.newShard
  dsimp only
  generalize (if (shOp r.payload == 2) = true then
    (m.part (shCtx r.payload / 16)).shardOf (shCtx r.payload % 16) (shSrcSlot r.payload) else none) = from'
  cases from' with
  | none => exact ⟨_, _, rfl⟩
  | some x => exact ⟨_, _, rfl⟩

theorem Mod.part_hold (m : Mod) (r : Request) (k : Nat) : (m.hold r).part k = m.part k := rfl

theorem Mod.shardAttach_spec {m : Mod} {r : Request} (hfields : m.shardFields r = none) (hbad : m.shardBad r = none) :
    (∃ failed, ((m.shardAttach r).part (shCtx r.payload / 16)).shard (shSlot r.payload) = some { m.newShard r with failed := failed }) ∧
      (m.shardAttach r).acting = m.acting ++ [r] ∧
      ∀ i, i ≠ shSlot r.payload → ((m.shardAttach r).part (shCtx r.payload / 16)).shard i =
        (m.part (shCtx r.payload / 16)).shard i := by
  obtain ⟨srcKind, src, hform⟩ := Mod.shardAttach_eq hfields hbad
  rw [hform]
  have howner := owner_shardDescs (slot := shSlot r.payload) (srcKind := srcKind) (src := src) (dst := shLoc r.payload)
    (len := shLen r.payload)
  generalize shardDescs (shSlot r.payload) srcKind src (shLoc r.payload) (shLen r.payload) = ds at howner ⊢
  have hfetch := Mod.fetches_pushDescs (shCtx r.payload / 16) 15 (shSlot r.payload) howner
    (m.modPart (shCtx r.payload / 16) fun p => { p with shards := Table.set (shSlot r.payload) (m.newShard r) p.shards })
  generalize Mod.forAll _ _ _ = n at hfetch ⊢
  rw [Mod.part_hold]
  refine ⟨hfetch.slot _ ?_, congrArg (· ++ [r]) hfetch.acting, fun i hi => (hfetch.other i hi).trans ?_⟩
  · rw [Mod.part_modPart]
    exact Table.find_set_same ..
  · rw [Mod.part_modPart]
    exact Table.find_set_other hi ..

/-! ### A slot that becomes free (14 R318) -/

theorem Mod.part_keyUse (m : Mod) (slot ver : Nat) (u : KeyUse) (k : Nat) : (m.keyUse slot ver u).part k = m.part k := rfl

theorem Mod.part_keyRelease (m : Mod) (f : KeyUse → Bool) (k : Nat) : (m.keyRelease f).part k = m.part k := rfl

/-- A pass of the scrub that goes on or ends leaves the shards and the memory. -/
theorem Mod.scrubFrom_some {m : Mod} {k i j : Nat} (h : m.nextScrub k i = some j) :
    (m.scrubFrom k i).part k = { m.part k with scrub := some { slot := some j } } := by
  unfold Mod.scrubFrom
  rw [h]
  dsimp only
  split
  · split
    · exact (Mod.part_keyUse ..).trans (Mod.part_modPart ..)
    · exact Mod.part_modPart ..
  · exact Mod.part_modPart ..

theorem Mod.scrubFrom_none {m : Mod} {k i : Nat} (h : m.nextScrub k i = none) : (m.scrubFrom k i).part k =
    ({ m.part k with scrub := none }.count offShardStatus 15 0).setFld offShardScrub 31 31 0 := by
  unfold Mod.scrubFrom
  rw [h]
  exact Mod.part_modPart ..

theorem Mod.shards_scrubFrom (m : Mod) (k i : Nat) : ((m.scrubFrom k i).part k).shards = (m.part k).shards ∧
    ((m.scrubFrom k i).part k).near = (m.part k).near ∧ ((m.scrubFrom k i).part k).ext = (m.part k).ext := by
  cases h : m.nextScrub k i with
  | none =>
    rw [Mod.scrubFrom_none h]
    exact ⟨rfl, rfl, rfl⟩
  | some j =>
    rw [Mod.scrubFrom_some h]
    exact ⟨rfl, rfl, rfl⟩

theorem Mod.freeShard_spec (m : Mod) (k slot : Nat) :
    ((m.freeShard k slot).part k).shards = Table.erase slot (m.part k).shards ∧
      ((m.freeShard k slot).part k).near = (m.part k).near ∧ ((m.freeShard k slot).part k).ext = (m.part k).ext := by
  unfold Mod.freeShard
  extract_lets hashing m₁
  have h₁ : m₁.part k = { m.part k with shards := Table.erase slot (m.part k).shards } := Mod.part_modPart ..
  clear_value m₁
  split
  · obtain ⟨hshards, hnear, hext⟩ := (m₁.keyRelease fun u => u == .scrub k).shards_scrubFrom k (slot + 1)
    rw [hshards, hnear, hext, Mod.part_keyRelease, h₁]
    exact ⟨rfl, rfl, rfl⟩
  · rw [h₁]
    exact ⟨rfl, rfl, rfl⟩

theorem Mod.shard_freeShard_same (m : Mod) (k slot : Nat) : ((m.freeShard k slot).part k).shard slot = none := by
  rw [Partition.shard, (m.freeShard_spec k slot).1]
  exact Table.find_erase_same ..

theorem Mod.part_shardFinish (m : Mod) (k slot status detail : Nat) (payload : List Byte) (j : Nat) :
    (m.shardFinish k slot status detail payload).part j = m.part j :=
  Mod.part_of_parts (m.sameKeep_shardFinish ..).1 j

/-! ### The end of a transfer (14 R318) -/

section
variable {m : Mod} {k i : Nat} {x : Shard}
  (h : (m.part k).shards.find? (fun e => e.2.state == .pending && (e.2.failed.isSome || e.2.arrived)) = some (i, x))
include h

theorem Mod.attachDone_failed (hf : x.failed.isSome = true) : ((m.attachDone k).part k).shard i = none := by
  obtain ⟨⟨st, d⟩, hf⟩ := Option.isSome_iff_exists.mp hf
  simp only [Mod.attachDone, h, hf]
  rw [Mod.part_shardFinish, Mod.shard_freeShard_same]

theorem Mod.attachDone_attached (hf : x.failed = none) (hd : slice (Config.sha384 x.hashed) 0 48 = x.digest)
    (hmove : ∀ j, x.move = some j → j ≠ i) :
    ((m.attachDone k).part k).shard i = some { x with state := .attached, move := none, hashed := [] } ∧
      ∀ j, x.move = some j → ((m.attachDone k).part k).shard j = none := by
  simp only [Mod.attachDone, h, hf, hd, if_true]
  rw [Mod.part_shardFinish, Mod.part_modPart]
  refine ⟨Table.find_set_same .., fun j hj => ?_⟩
  rw [hj]
  exact (Table.find_set_other (hmove j hj) ..).trans (Mod.shard_freeShard_same ..)

theorem Mod.attachDone_mismatch (hf : x.failed = none) (hd : slice (Config.sha384 x.hashed) 0 48 ≠ x.digest) :
    ((m.attachDone k).part k).shard i = none := by
  simp only [Mod.attachDone, h, hf, if_neg hd]
  rw [Mod.part_shardFinish, Mod.shard_freeShard_same]

end

/-! ### The background scrub (14 R321) -/

theorem Mod.nextScrub_some {m : Mod} {k i j : Nat} (h : m.nextScrub k i = some j) :
    i ≤ j ∧ ∃ x, (j, x) ∈ (m.part k).shards ∧ x.state = .attached := by
  obtain ⟨⟨j', x⟩, hfind, rfl⟩ := Option.map_eq_some_iff.mp h
  have hmeets := List.find?_some hfind
  simp only [Bool.and_eq_true, decide_eq_true_eq, beq_iff_eq] at hmeets
  exact ⟨hmeets.1, x, List.mem_of_find?_eq_some hfind, hmeets.2⟩

theorem Mod.nextScrub_none {m : Mod} {k i : Nat} (h : m.nextScrub k i = none) :
    ∀ e ∈ (m.part k).shards, i ≤ e.1 → e.2.state ≠ .attached := by
  intro e he hi hstate
  have hno := List.find?_eq_none.mp (Option.map_eq_none_iff.mp h) e he
  simp [hi, hstate] at hno

theorem Mod.shardGoesBad_spec (m : Mod) (k i : Nat) (x : Shard) :
    ((m.shardGoesBad k i x).part k).shard i = some { x with state := .bad } ∧
      getB (((m.shardGoesBad k i x).part k).reg offShardStatus) 31 = true := by
  rw [Mod.shardGoesBad, Mod.part_msixPart, Mod.part_modPart]
  refine ⟨Table.find_set_same .., ?_⟩
  rw [Partition.reg_setFld, getB_setF_other _ _ _ _ _ (by decide) (by decide) (by decide), Partition.getB_flag_same _ _ (by decide)]

theorem Mod.scrubHash_shard {m : Mod} {k i key : Nat} {e : Ecc} {x : Shard} (hscrub : (m.part k).scrub = some { slot := some i })
    (hx : (m.part k).shard i = some x)
    (hkey : m.keyOf (m.keys.findSome? fun y => (y.2.users.find? fun u => u.2 == .scrub k).map fun u => (y.1, u.1)) = key) :
    let rd := m.memRead k key x.loc x.len e false
    let n := rd.2.keyRelease fun u => u == .scrub k
    m.scrubHash k e = (if !rd.1.bad.isEmpty || slice (Config.sha384 rd.1.bytes) 0 48 != x.digest then n.shardGoesBad k i x
      else n).scrubFrom k (i + 1) := by
  subst hkey
  unfold Mod.scrubHash
  rw [hscrub]
  dsimp only
  rw [hx]

/-- Settles O28: the descriptors of a transfer touch no shard but their own, and a scrub pass goes from slot to slot. -/
theorem shards : Obligations.Shards := by
  refine ⟨fun s r rest c ht hop hc hfields hbad => ?_, fun s r rest ht hop hsub hfields hbad => ?_,
    fun s k i x hl hreset hfind => ?_, fun s k hl hc hreset hscrub => ?_, fun m k i j h => ?_, fun m k i h => ?_,
    fun s k e i x key hl hreset hguar hscrub hx hkey => ?_, fun s k e hon hguar => ?_, fun s k ha hscrub => ?_, fun s k ha hscrub => ?_⟩
  · have hgives : Gives c s ((turned s rest).shardAttach r) := by
      rcases hc with ⟨rfl, hsub⟩ | ⟨rfl, hsub⟩
      · exact gives_of_turn_figures ht rfl hop (by simp [hsub]) (exec_shardFetch r.fn s) (by simp)
      · exact gives_of_turn_figures ht rfl hop (by simp [hsub]) (exec_shardCopy r.fn s) (by simp)
    obtain ⟨⟨failed, hshard⟩, hacting, hother⟩ := Mod.shardAttach_spec (m := turned s rest) hfields hbad
    refine ⟨_, _, hgives, hshard, rfl, rfl, rfl, rfl, rfl, fun hsub => ?_, fun y hsub hy => ?_, hacting, hother⟩
    · simp [Mod.newShard, hsub]
    · have hy' : ((turned s rest).part (shCtx r.payload / 16)).shardOf (shCtx r.payload % 16) (shSrcSlot r.payload) = some y := hy
      simp [Mod.newShard, hsub, hy']
  · have hgives := gives_of_turn_figures ht rfl hop (by simp [hsub]) (exec_shardDetach r.fn s) (by simp)
    rw [show (turned s rest).shardDetach r = _ from Mod.judge_ok (by
      rw [show (turned s rest).shardFields r = none from hfields, show (turned s rest).shardBad r = none from hbad]; rfl)] at hgives
    refine ⟨_, hgives, ?_⟩
    simp only [Mod.part_respond]
    exact ⟨Mod.shard_freeShard_same .., ((turned s rest).freeShard_spec _ _).2⟩
  · have hgives := gives_of_molique hl (exec_shardAttachDone k s)
    rw [if_neg (by simp [hreset])] at hgives
    exact ⟨_, hgives, Mod.attachDone_failed hfind, Mod.attachDone_attached hfind, Mod.attachDone_mismatch hfind⟩
  · have hgives := gives_of_act hl.1 (exec_shardScrubPassStart k s)
    have hc' : (s.mod.part k.val).created = true := hc
    simpa [hl.2, hreset, hscrub, hc'] using hgives
  · obtain ⟨hle, hattached⟩ := Mod.nextScrub_some h
    rw [Mod.scrubFrom_some h]
    exact ⟨rfl, hle, hattached⟩
  · rw [Mod.scrubFrom_none h]
    refine ⟨?_, rfl, Mod.nextScrub_none h⟩
    rw [Partition.reg_setFld, getB_setF _ _ _ le_rfl (by decide)]
    rfl
  · intro rd bad m
    have hgives := gives_of_act hl.1 (exec_shardScrubHashDone k e s)
    have hgo : (!s.mod.running || (s.mod.part k.val).underReset || (s.mod.part k.val).guarPresent) = false := by
      simp [hl.2, hreset, hguar]
    dsimp only at hgives
    rw [hgo, if_neg Bool.false_ne_true, Mod.scrubHash_shard hscrub hx hkey] at hgives
    exact ⟨hgives, Mod.shardGoesBad_spec ..⟩
  · have hgives := gives_of_act hon (exec_shardScrubHashDone k e s)
    simpa [hguar] using hgives
  · have hgives := gives_of_alive ha (exec_scrubLate k s)
    rw [if_pos hscrub] at hgives
    refine ⟨_, hgives, ?_, rfl⟩
    rw [Mod.part_modPart, Partition.getB_flag_same _ _ (by decide)]
  · have hgives := gives_of_alive ha (exec_scrubLate k s)
    simpa [hscrub] using hgives

end Sys2Proof.Machine
end

section
/-!
PROOFS. SPDM requests and IDE key management (17 R396, R397).
-/

namespace Sys2Proof.Machine
open Claims

/-! ### SPDM requests (17 R396) -/

section
variable {s : State} {t : SpdmPort} {code : Nat} {msg : List Byte} {ready : Spdm → Bool} {act : Mod → Mod} {c : Instr}
  (hon : On s) (hc : exec c s = s.act fun m => m.spdmMsg t code msg ready act)
include hon hc

/-- A request in its place acts; one out of its place is answered with the error; a closed port answers nothing. -/
theorem gives_spdmMsg :
    (s.mod.spdmOpen t = true → ready (s.mod.spdmAt t) = true → Config.spdmAccepts code msg = true → Gives c s (act s.mod)) ∧
    (s.mod.spdmOpen t = true → (ready (s.mod.spdmAt t) && Config.spdmAccepts code msg) = false →
      Gives c s (s.mod.send (.spdm t .error))) ∧
    (s.mod.spdmOpen t = false → Gives c s s.mod) := by
  have hgives := gives_of_act hon hc
  refine ⟨fun hopen hready haccepts => ?_, fun hopen hnot => ?_, fun hclosed => ?_⟩
  · simpa [Mod.spdmMsg, hopen, hready, haccepts] using hgives
  · simpa only [Mod.spdmMsg, hopen, hnot, Bool.not_true, Bool.false_eq_true, if_false] using hgives
  · simpa [Mod.spdmMsg, hclosed] using hgives

end

theorem spdmPortIdx_inj {t u : SpdmPort} (h : u ≠ t) : spdmPortIdx u ≠ spdmPortIdx t := by
  cases t <;> cases u <;> simp_all [spdmPortIdx]

/-- An answer goes out at once and moves its own connection on. -/
theorem Mod.spdmSend_spec (m : Mod) (t : SpdmPort) (msg : List Byte) (a : SpdmAnswer) (next : Spdm → Spdm) :
    (m.spdmSend t msg a next).out = m.out ++ [.spdm t a] ∧ (m.spdmSend t msg a next).parts = m.parts ∧
      (m.spdmSend t msg a next).keys = m.keys ∧
      (∃ log, (m.spdmSend t msg a next).spdmAt t =
        { next (m.spdmAt t) with transcript := (next (m.spdmAt t)).transcript ++ msg ++ log }) ∧
      (∀ u, u ≠ t → (m.spdmSend t msg a next).spdmAt u = m.spdmAt u) :=
  ⟨rfl, rfl, rfl, ⟨_, Mod.spdmAt_spdmSend ..⟩, fun _ hu => Table.get_set_other _ (spdmPortIdx_inj hu) ..⟩

theorem gives_spdmSend {s : State} {t : SpdmPort} {code : Nat} {msg : List Byte} {ready : Spdm → Bool} {c : Instr} {a : SpdmAnswer}
    {next : Spdm → Spdm} (hon : On s) (hc : exec c s = s.act fun m => m.spdmMsg t code msg ready fun m => m.spdmSend t msg a next) :
    (s.mod.spdmOpen t = true → ready (s.mod.spdmAt t) = true → Config.spdmAccepts code msg = true →
      ∃ m, Gives c s m ∧ m.out = s.mod.out ++ [.spdm t a] ∧ m.parts = s.mod.parts ∧ m.keys = s.mod.keys ∧
        (∃ log, m.spdmAt t = { next (s.mod.spdmAt t) with transcript := (next (s.mod.spdmAt t)).transcript ++ msg ++ log }) ∧
        (∀ u, u ≠ t → m.spdmAt u = s.mod.spdmAt u)) ∧
    (s.mod.spdmOpen t = true → (ready (s.mod.spdmAt t) && Config.spdmAccepts code msg) = false →
      Gives c s (s.mod.send (.spdm t .error))) ∧
    (s.mod.spdmOpen t = false → Gives c s s.mod) := by
  obtain ⟨hgood, hrest⟩ := gives_spdmMsg hon hc
  exact ⟨fun hopen hready haccepts => ⟨_, hgood hopen hready haccepts, s.mod.spdmSend_spec ..⟩, hrest⟩

theorem Mod.measureAnswer_unsigned {m : Mod} {msg : List Byte} {bs sig} (h : m.measureAnswer msg = .measurements bs sig) :
    sig = none := by
  unfold Mod.measureAnswer at h
  dsimp only at h
  generalize (if fld msg 3 1 = 0xFF then m.measureBlocks else m.measureBlocks.filter fun b => b.1 == fld msg 3 1) = blocks at h
  split at h
  · exact SpdmAnswer.noConfusion h
  · split at h
    · exact SpdmAnswer.noConfusion h
    · exact (SpdmAnswer.measurements.inj h).2.symm

/-! ### IDE key management (17 R397) -/

theorem Ide.act_spec (x : Ide) (key : List Byte) : x.act (.program key) = { x with key := key } ∧
    (x.key ≠ [] → (x.act .start).secure = true) ∧ (x.act .stop).secure = false := by
  refine ⟨rfl, fun h => ?_, rfl⟩
  have hne : x.key.isEmpty = false := by simpa using h
  simp [Ide.act, hne]

/-- Settles O29: every SPDM request goes through the one test of its place. -/
theorem spdmAndIde : Obligations.SpdmAndIde := by
  refine ⟨fun s t msg c code ready a next hon => ?_, fun s t msg c code m' hon => ?_, fun s st a hl hsession => ?_,
    fun s st a hl hsession => ?_, Ide.act_spec⟩
  · intro x hrow
    rcases hrow with ⟨rfl, rfl, rfl, rfl, rfl⟩ | ⟨rfl, rfl, rfl, rfl, rfl⟩ | ⟨rfl, rfl, rfl, rfl, rfl⟩ | ⟨rfl, rfl, rfl, rfl, rfl⟩ |
      ⟨rfl, rfl, rfl, rfl, rfl⟩ | ⟨rfl, rfl, rfl, rfl, hunsigned, rfl⟩ | ⟨rfl, rfl, rfl, rfl, rfl⟩ | ⟨rfl, rfl, rfl, rfl, rfl⟩
    · obtain ⟨hgood, hrest⟩ := gives_spdmMsg hon (exec_spdmGetVersion t msg s)
      exact ⟨fun hopen hready haccepts => ⟨_, hgood hopen hready haccepts, Mod.spdmSend_spec ..⟩, hrest⟩
    · exact gives_spdmSend hon (exec_spdmGetCapabilities t msg s)
    · exact gives_spdmSend hon (exec_spdmNegotiateAlgorithms t msg s)
    · exact gives_spdmSend hon (exec_spdmGetDigests t msg s)
    · exact gives_spdmSend hon (exec_spdmGetCertificate t msg s)
    · obtain ⟨hgood, hrest⟩ := gives_spdmMsg hon (exec_spdmGetMeasurements t msg s)
      refine ⟨fun hopen hready haccepts => ?_, hrest⟩
      have hgives := hgood hopen hready haccepts
      dsimp only at hgives
      split at hgives
      next bs sig ha hbit =>
        obtain rfl := Mod.measureAnswer_unsigned ha
        exact hunsigned.elim (fun h => absurd (h.symm.trans hbit) Bool.false_ne_true) fun h => absurd ha (h bs)
      · exact ⟨_, hgives, Mod.spdmSend_spec ..⟩
    · exact gives_spdmSend hon (exec_spdmFinish t msg s)
    · exact gives_spdmSend hon (exec_spdmEndSession t msg s)
  · intro x d hrow
    rcases hrow with ⟨rfl, rfl, rfl⟩ | ⟨rfl, rfl, rfl⟩ | ⟨rfl, rfl, hbit, bs, ha, rfl⟩
    · exact gives_spdmMsg hon (exec_spdmChallenge t msg s)
    · exact gives_spdmMsg hon (exec_spdmKeyExchange t msg s)
    · obtain ⟨hgood, hrest⟩ := gives_spdmMsg hon (exec_spdmGetMeasurements t msg s)
      refine ⟨fun hopen hready haccepts => ?_, hrest⟩
      have hgives := hgood hopen hready haccepts
      rwa [ha, hbit] at hgives
  · have hgives := gives_of_host hl (exec_ideKeyManagementMessage st a s)
    rw [if_pos hsession] at hgives
    exact ⟨_, hgives, Table.get_set_same .., fun n hn => Table.get_set_other _ hn .., rfl⟩
  · have hgives := gives_of_host hl (exec_ideKeyManagementMessage st a s)
    rwa [if_neg hsession] at hgives

end Sys2Proof.Machine
end

section
/-!
PROOFS. Frames, credit, announcements and tags as they arrive on a link (15 R331, R333, R338, R341).
-/

namespace Sys2Proof.Machine
open Claims

/-! ### Replay (15 R331) -/

section
variable {m : Mod} {n : Nat}

/-- A link with nothing queued takes nothing. -/
theorem Mod.pump_idle (hq : (m.link n).sendQ = []) (hw : (m.port (portOf n)).waiting = []) (hb : m.bindOn n = none) :
    m.pump n = m := by
  have hlink : m.linkPump n = m := by
    rw [Mod.linkPump, hq]
    rfl
  have hport : m.portPump (portOf n) = m := by
    rw [Mod.portPump, hw]
    rfl
  rw [Mod.pump, hlink, hport, hb]

/-- One frame of the replay buffer as it goes out again. -/
def Mod.resendOne (n : Nat) (f : LinkFrame × Nat → Bool) (m : Mod) (e : LinkFrame × Nat) : Mod :=
  if f e then
    let ls := lanesOf (m.link n).live
    let lane := ls.getD (e.1.seq.toNat % max 1 ls.length) 0
    ((m.modLink n fun l => { l with replay := l.replay.map fun x => if x.1.seq = e.1.seq then (x.1, lane) else x }).chipCount
      (offLinkErr n) 31 16).send (.linkFrame n lane e.1)
  else m

theorem Mod.resend_eq {f : LinkFrame × Nat → Bool} (hlive : (m.link n).live ≠ 0) (hw : (m.link n).widening = false) :
    m.resend n f = m.forAll (Mod.resendOne n f) (m.link n).replay := by
  rw [Mod.resend, if_neg hlive, hw]
  rfl

theorem Mod.link_chipCount (m : Mod) (off hi lo d i : Nat) : (m.chipCount off hi lo d).link i = m.link i := rfl

/-- What a frame that goes out again leaves: the frames of the buffer, the partitions, and what has been sent. -/
theorem Mod.resendOne_spec (m : Mod) (n : Nat) (f : LinkFrame × Nat → Bool) (e : LinkFrame × Nat) :
    ((m.resendOne n f e).link n).replay.map (·.1) = (m.link n).replay.map (·.1) ∧ (m.resendOne n f e).parts = m.parts ∧
      (∀ x ∈ m.out, x ∈ (m.resendOne n f e).out) ∧
      (f e = true → ∃ lane, .linkFrame n lane e.1 ∈ (m.resendOne n f e).out) := by
  unfold Mod.resendOne
  split
  next h =>
    refine ⟨?_, rfl, fun x hx => List.mem_append_left _ hx, fun _ => ⟨_, Mod.mem_send ..⟩⟩
    dsimp only
    rw [Mod.link_send, Mod.link_chipCount, Mod.link_modLink, List.map_map]
    refine List.map_congr_left fun x _ => ?_
    dsimp only [Function.comp_apply]
    split <;> rfl
  next h => exact ⟨rfl, rfl, fun _ hx => hx, fun he => absurd he h⟩

theorem Mod.resendOnes_spec (n : Nat) (f : LinkFrame × Nat → Bool) (es : List (LinkFrame × Nat)) (m : Mod) :
    ((m.forAll (Mod.resendOne n f) es).link n).replay.map (·.1) = (m.link n).replay.map (·.1) ∧
      (m.forAll (Mod.resendOne n f) es).parts = m.parts ∧ (∀ x ∈ m.out, x ∈ (m.forAll (Mod.resendOne n f) es).out) ∧
      (∀ e ∈ es, f e = true → ∃ lane, .linkFrame n lane e.1 ∈ (m.forAll (Mod.resendOne n f) es).out) := by
  induction es generalizing m with
  | nil => exact ⟨rfl, rfl, fun _ hx => hx, fun e he => absurd he List.not_mem_nil⟩
  | cons e es ih =>
    obtain ⟨hreplay, hparts, hout, hsent⟩ := m.resendOne_spec n f e
    obtain ⟨ihreplay, ihparts, ihout, ihsent⟩ := ih (m.resendOne n f e)
    refine ⟨ihreplay.trans hreplay, ihparts.trans hparts, fun x hx => ihout x (hout x hx), fun d hd hf => ?_⟩
    rcases List.mem_cons.mp hd with rfl | hd
    · obtain ⟨lane, hlane⟩ := hsent hf
      exact ⟨lane, ihout _ hlane⟩
    · exact ihsent d hd hf

theorem Mod.resend_spec {f : LinkFrame × Nat → Bool} (hlive : (m.link n).live ≠ 0) :
    ((m.resend n f).link n).replay.map (·.1) = (m.link n).replay.map (·.1) ∧ (m.resend n f).parts = m.parts ∧
      ((m.link n).widening = false → ∀ e ∈ (m.link n).replay, f e = true →
        ∃ lane, .linkFrame n lane e.1 ∈ (m.resend n f).out) := by
  cases hw : (m.link n).widening with
  | false =>
    rw [Mod.resend_eq hlive hw]
    obtain ⟨hreplay, hparts, -, hsent⟩ := Mod.resendOnes_spec n f (m.link n).replay m
    exact ⟨hreplay, hparts, fun _ => hsent⟩
  | true =>
    rw [Mod.resend, if_neg hlive, hw]
    refine ⟨?_, rfl, fun h => absurd h (by decide)⟩
    exact congrArg (fun l : Link => l.replay.map (·.1)) (Mod.link_modLink ..)

end

/-! ### Announced messages (15 R341, R343) -/

section
variable {m : Mod} {pid : Nat} {p : Path} (hp : Table.find pid m.paths = some p)
include hp

theorem Mod.matchOne_idle (harms : p.arms = []) : m.matchOne pid = m := by
  have hnone : (p.msgs.findIdx? fun _ => false) = none := List.findIdx?_eq_none_iff.mpr fun _ _ => rfl
  unfold Mod.matchOne
  simp only [hp, harms, List.any_nil, Bool.and_false, hnone]

theorem Mod.openOne_idle (hmsgs : ∀ g ∈ p.msgs, g.arm = none) : m.openOne pid = m := by
  unfold Mod.openOne
  simp only [hp]
  rw [List.findIdx?_eq_none_iff.mpr fun g hg => by rw [hmsgs g hg, Bool.and_false]]

/-- A path with no receive armed and none of its messages matched moves nothing on. -/
theorem Mod.pathAdvance_idle (harms : p.arms = []) (hmsgs : ∀ g ∈ p.msgs, g.arm = none) :
    m.pathAdvance pid = m.watchLinks p.owner := by
  have hmatch (xs : List Nat) : m.forAll (fun m _ => m.matchOne pid) xs = m :=
    Mod.forAll_fixed (f := fun m _ => m.matchOne pid) (fun _ => Mod.matchOne_idle hp harms) xs
  have hopen (xs : List Nat) : m.forAll (fun m _ => m.openOne pid) xs = m :=
    Mod.forAll_fixed (f := fun m _ => m.openOne pid) (fun _ => Mod.openOne_idle hp hmsgs) xs
  unfold Mod.pathAdvance
  dsimp only
  rw [hmatch, hopen, hp]

/-- Nor does a path with no message. -/
theorem Mod.pathAdvance_empty (hmsgs : p.msgs = []) : m.pathAdvance pid = m.watchLinks p.owner := by
  unfold Mod.pathAdvance
  simp only [hp, hmsgs, List.length_nil, List.map_nil, List.sum_nil, Nat.add_zero, List.range_zero, Mod.forAll_nil]

end

/-! ### Paths (15 R333) -/

theorem Mod.find_modPath {m : Mod} {pid : Nat} {p : Path} (hp : Table.find pid m.paths = some p) (f : Path → Path) :
    Table.find pid (m.modPath pid f).paths = some (f p) := by
  refine (Table.find_mapValues pid (fun i p => if i = pid then f p else p) m.paths).trans ?_
  rw [hp, Option.map_some, if_pos rfl]

theorem Mod.link_modPath (m : Mod) (pid : Nat) (f : Path → Path) (i : Nat) : (m.modPath pid f).link i = m.link i := rfl

theorem Mod.link_watchLinks (m : Mod) (k i : Nat) : (m.watchLinks k).link i = m.link i := rfl

theorem Mod.find_of_endpoint {m : Mod} {n pid : Nat} {p : Path} (h : m.pathDest n pid = .endpoint p) :
    Table.find pid m.paths = some p := by
  unfold Mod.pathDest at h
  split at h
  · exact PathDest.noConfusion h
  next q hq =>
    split at h
    · cases h
    · split at h
      · split at h
        · cases h
        · split at h <;> cases h
      · split at h
        · split at h
          · cases h
            exact hq
          · cases h
        · split at h
          · split at h
            · cases h
              exact hq
            · cases h
          · cases h

/-! ### A payload frame as it arrives (15 R331) -/

section
variable {m : Mod} {n : Nat} {f : LinkFrame}

theorem Mod.frameRx_bad (h : frameGood f = false) : m.frameRx n f = (m.fecCount n).send (.linkNak n [f.seq.toNat]) := by
  simp [Mod.frameRx, h]

theorem frameGood_type (h : frameGood f = true) : f.type.toNat ≤ 3 := by
  simp only [frameGood, Bool.and_eq_true, decide_eq_true_eq] at h
  exact h.1.1

theorem Mod.frameRx_other (h : frameGood f = true)
    (hother : f.type ≠ 1 ∧ f.type ≠ 2 ∨ (m.link n).coordOk = false ∨ 32768 ≤ (f.seq - (m.link n).rxSeq).toNat) :
    m.frameRx n f = m := by
  unfold Mod.frameRx
  dsimp only
  rw [if_neg (by simp [h])]
  split
  · rfl
  next hpayload =>
    rw [if_pos]
    rcases hother with ⟨h1, h2⟩ | hcoord | hold
    · have hle := frameGood_type h
      rw [ne_eq, ← BitVec.toNat_inj] at h1 h2
      exact absurd (show f.type.toNat = 0 ∨ f.type.toNat = 3 ∨ (m.link n).coordOk = false by
        have h1 : f.type.toNat ≠ 1 := h1
        have h2 : f.type.toNat ≠ 2 := h2
        omega) hpayload
    · exact absurd (.inr (.inr hcoord)) hpayload
    · exact hold

variable (h : frameGood f = true) (htype : f.type = 1 ∨ f.type = 2) (hcoord : (m.link n).coordOk = true)
include h htype hcoord

/-- A payload frame on a link whose coordinates are good is judged by its place in the order. -/
theorem Mod.frameRx_payload (hlt : (f.seq - (m.link n).rxSeq).toNat < 32768) : m.frameRx n f =
    let n' := ((m.modLink n fun l => { l with rxSeq := l.rxSeq + 1 }).deliver n f).drainAhead n
    if 0 < (f.seq - (m.link n).rxSeq).toNat then
      if (m.link n).ahead.any fun g => g.seq == f.seq then m else m.modLink n fun l => { l with ahead := l.ahead ++ [f] }
    else n'.send (.linkAck n ((n'.link n).rxSeq - 1).toNat) := by
  have hkind : ¬ (f.type.toNat = 0 ∨ f.type.toNat = 3 ∨ (m.link n).coordOk = false) := by
    rw [hcoord]
    rcases htype with ht | ht <;> simp [ht]
  unfold Mod.frameRx
  dsimp only
  rw [if_neg (by simp [h]), if_neg hkind, if_neg (Nat.not_le.mpr hlt)]

theorem Mod.frameRx_ahead (hpos : 0 < (f.seq - (m.link n).rxSeq).toNat) (hlt : (f.seq - (m.link n).rxSeq).toNat < 32768)
    (hnew : ∀ g ∈ (m.link n).ahead, g.seq ≠ f.seq) :
    m.frameRx n f = m.modLink n fun l => { l with ahead := l.ahead ++ [f] } := by
  rw [Mod.frameRx_payload h htype hcoord hlt]
  dsimp only
  rw [if_pos hpos, if_neg]
  simpa using hnew

theorem Mod.frameRx_next (hseq : f.seq = (m.link n).rxSeq) :
    let n' := ((m.modLink n fun l => { l with rxSeq := l.rxSeq + 1 }).deliver n f).drainAhead n
    m.frameRx n f = n'.send (.linkAck n ((n'.link n).rxSeq - 1).toNat) := by
  have hzero : (f.seq - (m.link n).rxSeq).toNat = 0 := by rw [hseq, BitVec.sub_self]; rfl
  rw [Mod.frameRx_payload h htype hcoord (by omega)]
  dsimp only
  rw [if_neg (by omega)]

omit h htype hcoord in
theorem Mod.drainAhead_idle (hahead : (m.link n).ahead = []) : m.drainAhead n = m := by
  rw [Mod.drainAhead, hahead]
  rfl

end

section
variable {m : Mod} {n : Nat} {f : LinkFrame}

theorem Mod.deliver_nowhere (h : m.pathDest n f.path.toNat = .nowhere) : m.deliver n f = m.chipCount (offLinkErr n) 31 16 := by
  rw [Mod.deliver, h]

/-- A frame of a path with no message announced waits for its announcement. -/
theorem Mod.deliver_early {p : Path} (h : m.pathDest n f.path.toNat = .endpoint p) (hmsgs : p.msgs = []) :
    m.deliver n f = (m.modPath f.path.toNat fun p => p.takeFrame (f.body, f.type == 2)).watchLinks p.owner := by
  have htake : p.takeFrame (f.body, f.type == 2) = { p with early := p.early ++ [(f.body, f.type == 2)] } := by
    simp [Path.takeFrame, hmsgs]
  have hfind := Mod.find_modPath (Mod.find_of_endpoint h) fun p => p.takeFrame (f.body, f.type == 2)
  have harm : p.nextArm = none := by simp [Path.nextArm, hmsgs]
  rw [Mod.deliver, h]
  dsimp only
  rw [harm, Mod.pathAdvance_empty hfind (by rw [htake]; exact hmsgs), htake]

end

section
variable {m : Mod} {n : Nat} {f : LinkFrame} (h : frameGood f = true) (htype : f.type = 1 ∨ f.type = 2)
  (hcoord : (m.link n).coordOk = true) (hseq : f.seq = (m.link n).rxSeq) (hahead : (m.link n).ahead = [])
include h htype hcoord hseq hahead

/-- A frame in order, once its delivery has left the link as it stood, is acknowledged. -/
theorem Mod.frameRx_delivered {d : Mod}
    (hd : (m.modLink n fun l => { l with rxSeq := l.rxSeq + 1 }).deliver n f = d)
    (hlink : d.link n = { m.link n with rxSeq := (m.link n).rxSeq + 1 }) :
    m.frameRx n f = d.send (.linkAck n f.seq.toNat) := by
  have hdrain : d.drainAhead n = d := Mod.drainAhead_idle (by rw [hlink]; exact hahead)
  rw [Mod.frameRx_next h htype hcoord hseq]
  rw [hd, hdrain, hlink, BitVec.add_sub_cancel, hseq]

end

theorem Mod.msgRx_endpoint {m : Mod} {n pid tag len seq : Nat} {p : Path} (h : m.pathDest n pid = .endpoint p) (harms : p.arms = [])
    (hpos : 0 < len) (hlen : len % 512 = 0) (hmsgs : ∀ g ∈ p.msgs, g.arm = none) :
    ∃ q g, Table.find pid (m.msgRx n pid tag len seq).paths = some q ∧ q.msgs = p.msgs ++ [g] ∧
      g.tag = tag ∧ g.len = len ∧ g.arm = none ∧ g.base = p.rxCount ∧ q.rxCount = p.rxCount + segments len := by
  unfold Mod.msgRx
  rw [h]
  dsimp only
  rw [if_neg (by simp [hlen]; omega)]
  have hfind := Mod.find_modPath (Mod.find_of_endpoint h) fun p =>
    { p with
      early := p.early.drop (len / 256)
      rxCount := p.rxCount + segments len
      msgs := p.msgs ++ [{ tag := tag, len := len, arm := none, frames := p.early.take (len / 256)
                           got := (p.early.take (len / 256)).length, segs := 0, base := p.rxCount, drop := false }] }
  rw [Mod.pathAdvance_idle hfind harms (by
    intro g hg
    rcases List.mem_append.mp hg with hg | hg
    · exact hmsgs g hg
    · rw [List.mem_singleton.mp hg])]
  exact ⟨_, _, hfind, rfl, rfl, rfl, rfl, rfl, rfl⟩

/-- Settles O33: each frame, credit, announcement and tag is judged by the link's order and by where its path leads. -/
theorem linkFrames : Obligations.LinkFrames := by
  refine ⟨fun s n seq ha hup => ?_, fun s n seqs ha hup => ?_, fun s n ha => ⟨fun hup => ?_, fun hup => ?_⟩,
    fun s n lane f ha hpartner hlive => ?_, fun s n lane f ha hlive => ?_, fun s n pid units ha hup => ?_,
    fun s n pid tag len seq ha hup => ?_, fun s n pid seg tag ha hup => ?_⟩
  · intro give
    have hgives := gives_of_alive ha (exec_ackRx n seq s)
    rw [if_pos hup] at hgives
    have hlink : (s.mod.modLink n.val give).link n.val = give (s.mod.link n.val) := Mod.link_modLink ..
    refine ⟨hgives, fun hq hw hb => ?_⟩
    rw [Mod.pump_idle (m := s.mod.modLink n.val give) (by rw [hlink]; exact hq) hw hb, hlink]
  · have hgives := gives_of_alive ha (exec_nakRx n seqs s)
    rw [if_pos hup] at hgives
    simp only [Mod.linkUp, Bool.and_eq_true, bne_iff_ne, ne_eq] at hup
    exact ⟨_, hgives, Mod.resend_spec hup.2⟩
  · have hgives := gives_of_alive ha (exec_linkDownTimeout n s)
    simpa [hup] using hgives
  · have hgives := gives_of_alive ha (exec_linkDownTimeout n s)
    simpa [hup] using hgives
  · intro l
    have harrives := gives_of_alive ha (exec_payloadFrameRx n lane f s)
    rw [if_pos (by simp [hpartner, hlive])] at harrives
    have hgives : frameGood f = true → Gives (.payloadFrameRx n lane f) s (s.mod.frameRx n.val f) := fun hgood => by
      rwa [hgood] at harrives
    refine ⟨fun hbad => ?_, fun hgood hother => ?_, fun hgood htype hcoord => ⟨fun hpos hlt hnew => ?_, fun hseq hahead hdest => ?_,
      fun p hseq hahead hdest hmsgs => ?_⟩⟩
    · rwa [Mod.frameRx_bad hbad, hbad] at harrives
    · exact Mod.frameRx_other hgood hother ▸ hgives hgood
    · exact Mod.frameRx_ahead hgood htype hcoord hpos hlt hnew ▸ hgives hgood
    · have hgives := hgives hgood
      have hlink : ((s.mod.modLink n.val fun l => { l with rxSeq := l.rxSeq + 1 }).chipCount (offLinkErr n.val) 31 16).link n.val =
          { s.mod.link n.val with rxSeq := (s.mod.link n.val).rxSeq + 1 } := (Mod.link_chipCount ..).trans (Mod.link_modLink ..)
      rw [Mod.frameRx_delivered hgood htype hcoord hseq hahead
        (Mod.deliver_nowhere (m := s.mod.modLink n.val fun l => { l with rxSeq := l.rxSeq + 1 }) hdest) hlink] at hgives
      refine ⟨_, hgives, ?_, rfl⟩
      rw [Mod.link_send, hlink, hseq]
    · have hgives := hgives hgood
      have hlink : (((s.mod.modLink n.val fun l => { l with rxSeq := l.rxSeq + 1 }).modPath f.path.toNat fun p =>
          p.takeFrame (f.body, f.type == 2)).watchLinks p.owner).link n.val =
          { s.mod.link n.val with rxSeq := (s.mod.link n.val).rxSeq + 1 } :=
        (Mod.link_watchLinks ..).trans ((Mod.link_modPath ..).trans (Mod.link_modLink ..))
      have hfind := Mod.find_modPath (Mod.find_of_endpoint hdest) fun p => p.takeFrame (f.body, f.type == 2)
      rw [Mod.frameRx_delivered hgood htype hcoord hseq hahead
        (Mod.deliver_early (m := s.mod.modLink n.val fun l => { l with rxSeq := l.rxSeq + 1 }) hdest hmsgs) hlink] at hgives
      refine ⟨_, _, hgives, ?_, hfind, ?_⟩
      · rw [Mod.link_send, hlink, hseq]
      · simp [Path.takeFrame, hmsgs]
  · have hgives := gives_of_alive ha (exec_payloadFrameRx n lane f s)
    simpa [hlive] using hgives
  · have hgives := gives_of_alive ha (exec_creditRx n pid units s)
    rw [if_pos hup] at hgives
    refine ⟨fun p hdest => ?_, fun out hdest => ?_⟩
    · rwa [hdest] at hgives
    · rwa [hdest] at hgives
  · have hgives := gives_of_alive ha (exec_msgRx n pid tag len seq s)
    rw [if_pos hup] at hgives
    refine ⟨fun p hdest harms hpos hlen hmsgs => ?_, fun out p hdest hp => ?_⟩
    · obtain ⟨q, g, hspec⟩ := Mod.msgRx_endpoint (tag := tag.toNat) (seq := seq.toNat) hdest harms hpos hlen hmsgs
      exact ⟨_, q, g, hgives, hspec⟩
    · intro key
      rw [Mod.msgRx, hdest] at hgives
      dsimp only at hgives
      rw [hp, Option.bind_some] at hgives
      refine ⟨fun hkey => ?_, fun q hkey => ?_⟩
      · rwa [show Table.find (65536 * n.val + seq.toNat) p.passed = none from hkey] at hgives
      · rw [show Table.find (65536 * n.val + seq.toNat) p.passed = some q from hkey] at hgives
        exact ⟨_, hgives, rfl, rfl⟩
  · have hgives := gives_of_alive ha (exec_gtagRx n pid seg tag s)
    rw [if_pos hup] at hgives
    refine ⟨fun p hdest hmsgs => ?_, fun out hdest => ?_⟩
    · have hfind := Mod.find_modPath (Mod.find_of_endpoint hdest) fun p => { p with tags := Table.set seg tag p.tags }
      rw [hdest] at hgives
      dsimp only at hgives
      rw [Mod.pathAdvance_empty hfind hmsgs] at hgives
      exact ⟨_, _, hgives, hfind, Table.find_set_same ..⟩
    · rwa [hdest] at hgives

end Sys2Proof.Machine
end

section
/-!
PROOFS. LINK_SEND, LINK_RECV and LINK_EXCHANGE (15 R339, R341, R342).
-/

namespace Sys2Proof.Machine
open Claims

/-! ### What reading leaves (10 R225, 11 R251, R252) -/

/-- `q` is `p` with registers, notices, poison and scratchpads as a read may leave them. -/
def Partition.Observed (p q : Partition) : Prop := ∃ regs notices noticeRing memObj nearPoison extPoison trusses,
  q = { p with regs := regs, notices := notices, noticeRing := noticeRing, memObj := memObj, nearPoison := nearPoison
               extPoison := extPoison, trusses := trusses }

theorem Partition.Observed.refl (p : Partition) : p.Observed p := ⟨_, _, _, _, _, _, _, rfl⟩

theorem Partition.Observed.trans {p q r : Partition} (h : p.Observed q) (h' : q.Observed r) : p.Observed r := by
  obtain ⟨_, _, _, _, _, _, _, rfl⟩ := h
  obtain ⟨_, _, _, _, _, _, _, rfl⟩ := h'
  exact ⟨_, _, _, _, _, _, _, rfl⟩

theorem Partition.Noted.observed {p q : Partition} (h : p.Noted q) : p.Observed q := by
  obtain ⟨⟨_, _, _, _, rfl⟩, -⟩ := h
  exact ⟨_, _, _, _, _, _, _, rfl⟩

theorem Partition.observed_setPoison (p : Partition) (g : Nat) (b : Bool) : p.Observed (p.setPoison g b) := by
  unfold Partition.setPoison
  dsimp only
  split <;> exact ⟨_, _, _, _, _, _, _, rfl⟩

theorem Partition.observed_setReg (p : Partition) (off : Nat) (v : Word) : p.Observed (p.setReg off v) :=
  ⟨_, _, _, _, _, _, _, rfl⟩

/-- `n` is `m` after reading by partition `k`. -/
structure Mod.Reads (k : Nat) (m n : Mod) : Prop where
  same : ∃ out pcie parts, n = { m with out := out, pcie := pcie, parts := parts }
  other : ∀ j, j ≠ k → n.part j = m.part j
  part : (m.part k).Observed (n.part k)

section
variable {k : Nat}

theorem Mod.Reads.refl (m : Mod) : m.Reads k m := ⟨⟨_, _, _, rfl⟩, fun _ _ => rfl, .refl _⟩

theorem Mod.Reads.trans {m n l : Mod} (h : m.Reads k n) (h' : n.Reads k l) : m.Reads k l where
  same := by
    obtain ⟨_, _, _, hn⟩ := h.same
    obtain ⟨_, _, _, hl⟩ := h'.same
    exact ⟨_, _, _, by rw [hl, hn]⟩
  other j hj := (h'.other j hj).trans (h.other j hj)
  part := h.part.trans h'.part

variable (m : Mod)

theorem Mod.reads_modPart {f : Partition → Partition} (hf : (m.part k).Observed (f (m.part k))) : m.Reads k (m.modPart k f) :=
  ⟨⟨_, _, _, rfl⟩, fun _ hj => Mod.part_modPart_other _ hj _, by rwa [Mod.part_modPart]⟩

theorem Mod.reads_msixPart (v : Nat) : m.Reads k (m.msixPart k v) := by
  refine ⟨?_, fun j _ => Mod.part_msixPart .., ?_⟩
  · obtain ⟨out, pcie, h⟩ := m.msix_eq (fnOfIdx (k % 64)) v
    exact ⟨out, pcie, m.parts, h⟩
  · rw [Mod.part_msixPart]
    exact .refl _

theorem Mod.reads_ite {n l : Mod} (c : Prop) [Decidable c] (h : m.Reads k n) (h' : m.Reads k l) : m.Reads k (if c then n else l) := by
  split
  · exact h
  · exact h'

theorem Mod.reads_forAll {α : Type} {f : Mod → α → Mod} (h : ∀ (m : Mod) x, m.Reads k (f m x)) (xs : List α) :
    m.Reads k (m.forAll f xs) :=
  Mod.forAll_keeps (P := fun n => m.Reads k n) (fun n x hn => hn.trans (h n x)) xs m (.refl m)

theorem Mod.reads_notice (code resv obj state : Nat) : m.Reads k (m.notice k code resv obj state) := by
  unfold Mod.notice
  dsimp only
  split
  · exact .refl m
  · split
    · exact (m.reads_modPart (Partition.noted_noticed ..).observed).trans (Mod.reads_msixPart ..)
    · split
      · exact m.reads_modPart ⟨_, _, _, _, _, _, _, rfl⟩
      · exact m.reads_modPart ⟨_, _, _, _, _, _, _, rfl⟩

theorem Mod.reads_memCondition (chan : Nat) : m.Reads k (m.memCondition k chan) := by
  unfold Mod.memCondition
  split
  · exact .refl m
  · refine .trans ?_ (Mod.reads_notice ..)
    exact m.reads_modPart ⟨_, _, _, _, _, _, _, rfl⟩

theorem Mod.reads_eccError (g chan : Nat) (scrub : Bool) : m.Reads k (m.eccError k g chan scrub) := by
  refine .trans ?_ (Mod.reads_memCondition ..)
  exact m.reads_modPart (Partition.noted_eccMark ..).observed

theorem Mod.reads_memRead (key loc n : Nat) (e : Ecc) (unit : Bool) (chan : Option Nat) :
    m.Reads k (m.memRead k key loc n e unit chan).2 := by
  unfold Mod.memRead
  extract_lets gs m₁ p bad m₂
  have h₁ : m.Reads k m₁ := by
    unfold m₁
    cases e with
    | corrected => exact m.reads_modPart (Partition.observed_setReg ..)
    | uncorrectable => exact m.reads_modPart (Partition.observed_setPoison ..)
    | clean => exact .refl m
  exact h₁.trans (Mod.reads_forAll _ (fun m g => m.reads_eccError ..) _)

theorem Mod.reads_of_snd {α : Type} {m n : Mod} {x : α × Mod} {a : α} (hx : x = (a, n)) (h : m.Reads k x.2) : m.Reads k n := by
  subst hx
  exact h

theorem Mod.reads_readBlock (key r b : Nat) (e de : Ecc) : m.Reads k (m.readBlock k key r b e de).2 := by
  generalize hx : m.readBlock k key r b e de = x
  rw [Mod.readBlock.eq_unfold] at hx
  beta_reduce at hx
  extract_lets g slot chan dirAt at hx
  split at hx
  next ent m₁ h₁ =>
    refine (Mod.reads_of_snd h₁ (Mod.reads_memRead ..)).trans ?_
    clear h₁
    extract_lets n at hx
    split at hx
    next st m₂ h₂ =>
      refine (Mod.reads_of_snd h₂ (Mod.reads_memRead ..)).trans ?_
      clear h₂
      have hflag (i : Nat) : m₂.Reads k ((m₂.modPart k fun p => p.flag offCmpStatus i).memCondition k (channelOf k slot)) :=
        (m₂.reads_modPart (Partition.observed_setReg ..)).trans (Mod.reads_memCondition ..)
      split at hx
      · rw [← hx]
        exact .refl m₂
      · split at hx
        · rw [← hx]
          exact hflag 31
        · split at hx
          · rw [← hx]
            exact Mod.reads_ite m₂ _ (m₂.reads_modPart (Partition.observed_setReg ..)) (.refl m₂)
          · rw [← hx]
            exact hflag 30

theorem Mod.reads_scratchRead (t st a n : Nat) (e : Ecc) : m.Reads k (m.scratchRead k t st a n e).2 := by
  unfold Mod.scratchRead
  extract_lets m₁ u
  have h₁ : m.Reads k m₁ := by
    unfold m₁
    cases e with
    | corrected => exact m.reads_modPart (Partition.observed_setReg ..)
    | uncorrectable => exact m.reads_modPart ⟨_, _, _, _, _, _, _, rfl⟩
    | clean => exact .refl m
  split
  · refine h₁.trans ?_
    exact m₁.reads_modPart (Partition.observed_setReg ..)
  · exact h₁

theorem Mod.reads_readLocal (key kind v at' n : Nat) (e : UnitEcc) : m.Reads k (m.readLocal k key kind v at' n e).2 := by
  rw [Mod.readLocal.eq_unfold]
  beta_reduce
  split
  · extract_lets loc r
    split
    · split
      next b n h => exact Mod.reads_of_snd h (Mod.reads_readBlock ..)
    · split
      next rd n h => exact Mod.reads_of_snd h (Mod.reads_memRead ..)
  · exact Mod.reads_scratchRead ..

/-! ### A sealed message (15 R339) -/

/-- What the sealing of a message has made so far. -/
structure Mod.SealedFor (k pid : Nat) (m : Mod) (acc : Sealed × Mod) : Prop where
  reads : m.Reads k acc.2
  frames : ∀ f ∈ acc.1.frames, f.path = pid ∧ f.inbound = none

theorem mem_segmentFrames {pid part : Nat} {send : Option (Nat × Nat)} {key iv bs : List Byte} {bad : List Nat} {seg : Nat}
    {f : OutFrame} (h : f ∈ segmentFrames pid part send key iv bs bad seg) : f.path = pid ∧ f.inbound = none := by
  obtain ⟨i, -, rfl⟩ := List.mem_map.mp h
  exact ⟨rfl, rfl⟩

theorem Mod.sealMessage_spec (d : Desc) (pid first : Nat) (send : Nat × Nat) (key : List Byte) (iv : Nat → List Byte)
    (e : UnitEcc) : m.SealedFor k pid (m.sealMessage k d pid first send key iv e) := by
  unfold Mod.sealMessage
  extract_lets mk
  have hfold (is : List Nat) (acc : Sealed × Mod) (hacc : m.SealedFor k pid acc) : m.SealedFor k pid
      (is.foldl (fun (acc : Sealed × Mod) i =>
        if acc.1.err then acc
        else
          let n := segLen d.len i
          let (pc, m) := acc.2.readLocal k mk d.srcKind d.src (4096 * i) n (if i = 0 then e else UnitEcc.clean)
          if pc.err then ({ acc.1 with err := true }, m)
          else
            ({ frames := acc.1.frames ++ segmentFrames pid k (some send) key (iv i) pc.bytes pc.bad (first + i)
               poison := if acc.1.poison.isNone && !pc.bad.isEmpty then some pc.detail else acc.1.poison, err := false }, m)) acc) := by
    induction is generalizing acc with
    | nil => exact hacc
    | cons i is ih =>
      refine ih _ ?_
      beta_reduce
      split
      · exact hacc
      · extract_lets n
        have hread := hacc.reads.trans (acc.2.reads_readLocal (k := k) mk d.srcKind d.src (4096 * i) (segLen d.len i)
          (if i = 0 then e else UnitEcc.clean))
        generalize acc.2.readLocal k mk d.srcKind d.src (4096 * i) n (if i = 0 then e else UnitEcc.clean) = x at hread ⊢
        obtain ⟨pc, m₁⟩ := x
        dsimp only at hread ⊢
        split
        · exact ⟨hread, hacc.frames⟩
        · refine ⟨hread, fun f hf => ?_⟩
          rcases List.mem_append.mp hf with hf | hf
          · exact hacc.frames f hf
          · exact mem_segmentFrames hf
  exact hfold _ _ ⟨.refl m, fun f hf => absurd hf List.not_mem_nil⟩

end

theorem Mod.find_modPath_other {m : Mod} {pid i : Nat} (h : i ≠ pid) (f : Path → Path) :
    Table.find i (m.modPath pid f).paths = Table.find i m.paths := by
  refine (Table.find_mapValues i (fun i p => if i = pid then f p else p) m.paths).trans ?_
  rw [show (fun p : Path => if i = pid then f p else p) = id from funext fun _ => if_neg h, Option.map_id]
  rfl

/-! ### What sending leaves of paths and partitions (15 R331, R333) -/

/-- `n` has the partitions of `m`, and its paths but for what passed through them. -/
structure Mod.Leaves (m n : Mod) : Prop where
  parts : n.parts = m.parts
  boot : n.boot = m.boot
  path : ∀ pid p, Table.find pid m.paths = some p →
    ∃ q, Table.find pid n.paths = some q ∧ q.credit = p.credit ∧ q.txCount = p.txCount

section
variable {m n : Mod}

theorem Mod.leaves_of_same (hparts : n.parts = m.parts) (hboot : n.boot = m.boot) (hpaths : n.paths = m.paths) : m.Leaves n :=
  ⟨hparts, hboot, fun _ p hp => ⟨p, by rw [hpaths, hp], rfl, rfl⟩⟩

theorem Mod.Leaves.refl (m : Mod) : m.Leaves m := Mod.leaves_of_same rfl rfl rfl

theorem Mod.Leaves.trans {l : Mod} (h : m.Leaves n) (h' : n.Leaves l) : m.Leaves l where
  parts := h'.parts.trans h.parts
  boot := h'.boot.trans h.boot
  path pid p hp := by
    obtain ⟨q, hq, hcredit, hcount⟩ := h.path pid p hp
    obtain ⟨r, hr, hcredit', hcount'⟩ := h'.path pid q hq
    exact ⟨r, hr, hcredit'.trans hcredit, hcount'.trans hcount⟩

theorem Mod.leaves_forAll {α : Type} {f : Mod → α → Mod} (h : ∀ (m : Mod) x, m.Leaves (f m x)) (xs : List α) (m : Mod) :
    m.Leaves (m.forAll f xs) :=
  Mod.forAll_keeps (P := fun n => m.Leaves n) (fun n x hn => hn.trans (h n x)) xs m (.refl m)

end

section
variable (m : Mod) (n : Nat)

theorem Path.passFrame_spec (p : Path) (key seq : Nat) :
    (p.passFrame key seq).2.credit = p.credit ∧ (p.passFrame key seq).2.txCount = p.txCount := by
  unfold Path.passFrame
  split <;> exact ⟨rfl, rfl⟩

theorem Mod.leaves_frameMsg (f : OutFrame) : m.Leaves (m.frameMsg n f).2 := by
  unfold Mod.frameMsg
  split
  next l seq p _ hp =>
    refine ⟨rfl, rfl, fun pid q hq => ?_⟩
    by_cases hpid : pid = f.path
    · rw [hpid] at hq ⊢
      obtain rfl := Option.some.inj (hp.symm.trans hq)
      exact ⟨_, Mod.find_modPath hp _, p.passFrame_spec ..⟩
    · exact ⟨q, (Mod.find_modPath_other hpid _).trans hq, rfl, rfl⟩
  · exact .refl m

theorem Mod.leaves_placeFrame (f : OutFrame) : m.Leaves (m.placeFrame n f) := by
  unfold Mod.placeFrame
  split
  next msg n₁ hmsg =>
    extract_lets seq type g ls lane n₂ n₃
    have h₁ : m.Leaves n₁ := by
      have h := m.leaves_frameMsg n f
      rwa [hmsg] at h
    have h₂ : m.Leaves n₂ := by
      unfold n₂
      split
      · exact h₁.trans (Mod.leaves_of_same rfl rfl rfl)
      · exact h₁
    have h₃ : m.Leaves n₃ := h₂.trans (Mod.leaves_of_same rfl rfl rfl)
    split
    · exact h₃.trans (Mod.leaves_of_same rfl rfl rfl)
    · exact h₃

theorem Mod.leaves_linkPump : m.Leaves (m.linkPump n) := by
  refine Mod.leaves_forAll (fun m _ => ?_) _ m
  dsimp only
  split
  · exact .refl m
  · split
    · exact .refl m
    · refine .trans ?_ (Mod.leaves_placeFrame ..)
      exact Mod.leaves_of_same rfl rfl rfl

theorem Mod.leaves_portPump (p : Nat) : m.Leaves (m.portPump p) := by
  refine Mod.leaves_forAll (fun m _ => ?_) _ m
  dsimp only
  split
  · split
    · refine .trans ?_ (Mod.leaves_placeFrame ..)
      exact Mod.leaves_of_same rfl rfl rfl
    · exact .refl m
  · exact .refl m

theorem Mod.leaves_bindStep (i b : Nat) : m.Leaves (m.bindStep i b) := by
  unfold Mod.bindStep
  split
  · exact .refl m
  · split
    · split
      · refine .trans ?_ (Mod.leaves_placeFrame ..)
        exact Mod.leaves_of_same rfl rfl rfl
      · exact .refl m
    · exact .refl m

theorem Mod.leaves_bindPump (i : Nat) : m.Leaves (m.bindPump i) := by
  unfold Mod.bindPump
  split
  · exact .refl m
  · exact Mod.leaves_forAll (fun m _ => Mod.leaves_forAll (fun m b => m.leaves_bindStep i b) _ m) _ m

theorem Mod.leaves_pump : m.Leaves (m.pump n) := by
  unfold Mod.pump
  extract_lets n₁
  have h₁ : m.Leaves n₁ := (m.leaves_linkPump n).trans (Mod.leaves_portPump ..)
  split
  · exact h₁.trans (Mod.leaves_bindPump ..)
  · exact h₁

theorem Mod.leaves_pathFrames (p : Path) (fs : List OutFrame) : m.Leaves (m.pathFrames p fs) := by
  unfold Mod.pathFrames
  split
  · refine .trans ?_ (Mod.leaves_portPump ..)
    exact Mod.leaves_of_same rfl rfl rfl
  · refine .trans ?_ (Mod.leaves_pump ..)
    exact Mod.leaves_of_same rfl rfl rfl

end

/-! ### The first frame of a message leaves (15 R331, R334, R338) -/

theorem mem_of_nextTurn {last x : Nat} {xs : List Nat} (h : nextTurn last xs = some x) : x ∈ xs := by
  unfold nextTurn at h
  split at h
  next y hy => exact Option.some.inj h ▸ List.mem_of_mem_filter (List.min?_mem hy)
  · exact List.min?_mem h

theorem nextTurn_ne_none (last : Nat) {xs : List Nat} (hxs : xs ≠ []) : nextTurn last xs ≠ none := by
  unfold nextTurn
  split
  · exact Option.some_ne_none _
  · exact fun h => hxs (List.min?_eq_none_iff.mp h)

/-- Where one path's frames alone wait, it is that path's turn. -/
theorem nextTurn_same (last : Nat) {pid : Nat} {xs : List Nat} (hxs : xs ≠ []) (hsame : ∀ x ∈ xs, x = pid) :
    nextTurn last xs = some pid := by
  obtain ⟨x, hx⟩ := Option.ne_none_iff_exists'.mp (nextTurn_ne_none last hxs)
  rw [hx, hsame x (mem_of_nextTurn hx)]

section
variable {m : Mod} {n : Nat} {f : OutFrame} {fs : List OutFrame} {tag len : Nat}

theorem Mod.placeFrame_announces (hin : f.inbound = none) (hmsg : f.msg = some (tag, len)) :
    .linkMsg n f.path tag len (m.link n).txSeq.toNat ∈ (m.placeFrame n f).out := by
  have hframe : m.frameMsg n f = (some (tag, len), m) := by
    unfold Mod.frameMsg
    rw [hin, hmsg]
  simp only [Mod.placeFrame, hframe]
  have hsent := m.mem_send (.linkMsg n f.path tag len (m.link n).txSeq.toNat)
  split
  · exact List.mem_append_left _ (List.mem_append_left _ hsent)
  · exact List.mem_append_left _ hsent

theorem Mod.linkPump_announces (hq : (m.link n).sendQ = f :: fs) (hcan : (m.link n).canSend = true)
    (hpath : ∀ g ∈ f :: fs, g.path = f.path) (hin : f.inbound = none) (hmsg : f.msg = some (tag, len)) :
    .linkMsg n f.path tag len (m.link n).txSeq.toNat ∈ (m.linkPump n).out := by
  have hturn : nextTurn (m.link n).lastPath ((f :: fs).map (·.path)) = some f.path :=
    nextTurn_same _ (List.cons_ne_nil _ _) (List.forall_mem_map.mpr hpath)
  have hpump := m.wired_linkPump n
  unfold Mod.linkPump at hpump ⊢
  rw [hq, Mod.forAll_cons]
  refine (Mod.wired_forAll (fun m _ => ?_) fs _).sent _ ?_
  · dsimp only
    split
    · exact .refl m
    · split
      · exact .refl m
      · refine .trans ?_ (Mod.wired_placeFrame ..)
        exact Mod.wired_modLink _ _ fun _ => rfl
  · dsimp only
    rw [if_pos hcan, hq, hturn]
    simp only [takeFirst, beq_self_eq_true, if_true]
    have htx : ((m.modLink n fun l => { l with sendQ := fs, lastPath := f.path }).link n).txSeq = (m.link n).txSeq := by
      simp
    rw [← htx]
    exact Mod.placeFrame_announces hin hmsg

end

theorem Mod.pump_keeps (m : Mod) (n : Nat) {x : Sent} (hx : x ∈ (m.linkPump n).out) : x ∈ (m.pump n).out := by
  unfold Mod.pump
  extract_lets n₁
  have h₁ : x ∈ n₁.out := (Mod.wired_portPump ..).sent x hx
  split
  · exact (Mod.wired_bindPump ..).sent x h₁
  · exact h₁

/-- The frames of a message that is announced with the first of them. -/
theorem messageFrames_cons (tag len : Nat) (f : OutFrame) (fs : List OutFrame) {pid : Nat}
    (hframes : ∀ g ∈ f :: fs, g.path = pid ∧ g.inbound = none) :
    ∃ g gs, messageFrames tag len (f :: fs) = g :: gs ∧ g.msg = some (tag, len) ∧ g.inbound = none ∧
      ∀ y ∈ g :: gs, y.path = pid := by
  have hmap : ∀ y ∈ messageFrames tag len (f :: fs), y.path = pid ∧ y.inbound = none := by
    intro y hy
    obtain ⟨i, hi, rfl⟩ := List.mem_mapIdx.mp hy
    exact hframes ((f :: fs)[i]) (List.getElem_mem hi)
  unfold messageFrames at hmap ⊢
  rw [List.mapIdx_cons] at hmap ⊢
  exact ⟨_, _, rfl, rfl, (hmap _ List.mem_cons_self).2, fun y hy => (hmap y hy).1⟩

/-- The frames of a message that are queued where none waits: the message is announced. -/
theorem Mod.queueFrames_announces (m : Mod) (n tag len : Nat) {pid : Nat} {fs : List OutFrame}
    (hframes : ∀ g ∈ fs, g.path = pid ∧ g.inbound = none) (hfs : fs ≠ []) (hq : (m.link n).sendQ = [])
    (hcan : (m.link n).canSend = true) :
    .linkMsg n pid tag len (m.link n).txSeq.toNat ∈ (m.queueFrames n (messageFrames tag len fs)).out := by
  obtain ⟨f, fs, rfl⟩ := List.exists_cons_of_ne_nil hfs
  obtain ⟨g, gs, hmsgs, hmsg, hin, hpath⟩ := messageFrames_cons tag len f fs hframes
  unfold Mod.queueFrames
  rw [hmsgs]
  apply Mod.pump_keeps
  have hg : g.path = pid := hpath g List.mem_cons_self
  have hlink : (m.modLink n fun l => { l with sendQ := l.sendQ ++ g :: gs }).link n =
      { m.link n with sendQ := (m.link n).sendQ ++ g :: gs } := by simp
  have hsent := Mod.linkPump_announces (m := m.modLink n fun l => { l with sendQ := l.sendQ ++ g :: gs }) (n := n) (fs := gs)
    (by rw [hlink, hq]; rfl) (by rw [hlink]; exact hcan) (fun y hy => (hpath y hy).trans hg.symm) hin hmsg
  rwa [hlink, hg] at hsent

/-! ### Halves of a link node (15 R341, R342) -/

theorem Mod.nodeAt_eq {m : Mod} {k c node member : Nat} {u : Run} {mb : Member} (hreset : (m.part k).underReset = false)
    (hon : m.running = true) (hrun : ((m.part k).ctx c).run = some u) (hmb : u.members[member]? = some mb)
    (hphase : u.phase node member = some .running) :
    m.nodeAt k c node member = some (u, ((m.part k).ctx c).image u, mb) := by
  simp [Mod.nodeAt, hreset, hon, hrun, hmb, hphase]

theorem Mod.linkHalves_worked {m : Mod} {k c node member : Nat} {u : Run} {img : List Byte} {mb : Member}
    (h : m.nodeAt k c node member = some (u, img, mb)) (hdone : u.halvesDone (nodeBody img node) node member = true) :
    m.linkHalves k c node member = m.worked k c node member := by
  simp [Mod.linkHalves, h, hdone]

theorem Run.halvesDone_of_sent {u : Run} {b : List Byte} {node member : Nat} (hop : linkOp b = 1)
    (hsent : u.sent.contains (node * 64 + member) = true) : u.halvesDone b node member = true := by
  simp only [Run.halvesDone, linkReceives, hop, hsent, Bool.or_true]
  rfl

theorem Run.halvesDone_of_received {u : Run} {b : List Byte} {node member : Nat} (hop : linkOp b = 2)
    (hreceived : u.received.contains (node * 64 + member) = true) : u.halvesDone b node member = true := by
  simp only [Run.halvesDone, linkSends, hop, hreceived, Bool.or_true, Bool.and_true]
  rfl

theorem Mod.run_watchLinks {m : Mod} {k c : Nat} {u : Run} (h : ((m.part k).ctx c).run = some u) :
    (((m.watchLinks k).part k).ctx c).run = some (m.watchRun k ((m.part k).ctx c) u) := by
  have hget (t : Table Context) : Table.get Context.reset c t = (Table.find c t).getD Context.reset := rfl
  have hmap := Table.find_mapValues c (fun _ x => { x with run := x.run.map fun u => m.watchRun k x u }) (m.part k).ctxs
  unfold Mod.watchLinks
  rw [Mod.part_modPart]
  unfold Partition.ctx at h ⊢
  rw [hget] at h ⊢
  rw [hmap, hget]
  cases hfind : Table.find c (m.part k).ctxs with
  | none =>
    rw [hfind] at h
    cases (show (none : Option Run) = some u from h)
  | some x =>
    rw [hfind] at h
    simp only [Option.map_some, Option.getD_some] at h ⊢
    rw [h, Option.map_some]

/-! ### LINK_SEND (15 R341, R342) -/

/-- What a send latches is the use of a key at most. -/
theorem Mod.sendLatch_eq {m n : Mod} {k c node member job : Nat} {v : Option (Nat × Nat)}
    (h : m.sendLatch k c node member job = (v, n)) : ∃ keys, n = { m with keys := keys } := by
  unfold Mod.sendLatch at h
  dsimp only at h
  split at h
  · obtain ⟨-, rfl⟩ := Prod.mk.inj h
    exact ⟨_, rfl⟩
  · split at h
    · obtain ⟨-, rfl⟩ := Prod.mk.inj h
      exact ⟨_, rfl⟩
    · obtain ⟨-, rfl⟩ := Prod.mk.inj h
      exact ⟨_, rfl⟩

section
variable {m m₁ m₂ : Mod} {k c node member : Nat} {u : Run} {img : List Byte} {mb : Member} {p : Path} {e : UnitEcc}
  {v : Nat × Nat} {x : Sealed}
variable (hsent : u.sent.contains (node * 64 + member) = false)
  (hp : Table.find (linkPath (nodeBody img node)) m.paths = some p) (hclosed : p.closed = false)
  (hissues : m.linkIssues k u = true) (hchan : getB ((m.part k).reg (offChCtrl (nodePrio img node % 16))) 0 = false)
include hsent hp hclosed hissues hchan

theorem Mod.sendHalf_keyless (hlatch : m.sendLatch k c node member p.job = (none, m₁)) :
    m.sendHalf k c node member u img mb e = (m₁.markRun k c stKeyRevoked (m₁.jobSlot p.job)).worked k c node member := by
  simp [Mod.sendHalf, hsent, hp, hclosed, hissues, hchan, hlatch, -List.contains_eq_mem]

variable (hlatch : m.sendLatch k c node member p.job = (some v, m₁))
include hlatch

theorem Mod.sendHalf_badSide (hside : m₁.linkSideOk k (m₁.linkDesc u img mb c node member false) false = false) :
    m.sendHalf k c node member u img mb e = m₁.linkBusError k c node member (nodePrio img node % 16) 3 := by
  simp [Mod.sendHalf, hsent, hp, hclosed, hissues, hchan, hlatch, hside, -List.contains_eq_mem]

variable (hside : m₁.linkSideOk k (m₁.linkDesc u img mb c node member false) false = true)
include hside

theorem Mod.sendHalf_creditless (hcredit : p.credit < (m₁.linkDesc u img mb c node member false).len) :
    m.sendHalf k c node member u img mb e = m₁ := by
  simp [Mod.sendHalf, hsent, hp, hclosed, hissues, hchan, hlatch, hside, hcredit, -List.contains_eq_mem]

variable (hcredit : (m₁.linkDesc u img mb c node member false).len ≤ p.credit)
include hcredit

theorem Mod.sendHalf_spent (hcount : 2 ^ 43 < p.txCount + segments (m₁.linkDesc u img mb c node member false).len) :
    m.sendHalf k c node member u img mb e = m₁.closePath (linkPath (nodeBody img node)) := by
  simp only [Mod.sendHalf, hsent, hp, hclosed, hissues, hchan, hlatch, hside, Bool.not_true, Bool.or_self, Bool.false_eq_true,
    if_false]
  rw [if_neg hcredit.not_gt, if_pos hcount]

theorem Mod.sendHalf_sealed (hcount : p.txCount + segments (m₁.linkDesc u img mb c node member false).len ≤ 2 ^ 43)
    (hseal : m₁.sealMessage k (m₁.linkDesc u img mb c node member false) (linkPath (nodeBody img node)) p.txCount
      (mb.raise.serial, node) (m₁.keyBytes v.1 v.2)
      (fun i => gcmIv p.job (linkPath (nodeBody img node)) (m₁.sendDir p) (p.txCount + i)) e = (x, m₂)) (herr : x.err = false) :
    m.sendHalf k c node member u img mb e =
      m₂.sendFrames k c node member p (nodeBody img node) (m₁.linkDesc u img mb c node member false) x := by
  simp only [Mod.sendHalf, hsent, hp, hclosed, hissues, hchan, hlatch, hside, hseal, herr, Bool.not_true, Bool.or_self,
    Bool.false_eq_true, if_false]
  rw [if_neg hcredit.not_gt, if_neg hcount.not_gt]

end

/-- The link of a sending path announces the message where nothing waits on it; paths, run and partitions of a send that
goes out whole. -/
theorem Mod.sendFrames_spec {m : Mod} {k c node member : Nat} {u : Run} {mb : Member} {p : Path} {b : List Byte} {d : Desc}
    {x : Sealed} (hp : Table.find (linkPath b) m.paths = some p)
    (hnode : m.nodeAt k c node member = some (u, ((m.part k).ctx c).image u, mb))
    (hb : b = nodeBody (((m.part k).ctx c).image u) node) (hop : linkOp b = 1)
    (hframes : ∀ f ∈ x.frames, f.path = linkPath b ∧ f.inbound = none) (hpoison : x.poison = none) :
    (∃ q, Table.find (linkPath b) (m.sendFrames k c node member p b d x).paths = some q ∧ q.credit = p.credit - d.len ∧
      q.txCount = p.txCount + segments d.len) ∧
    (((m.sendFrames k c node member p b d x).part k).ctx c).run =
      some ({ u with sent := u.sent ++ [node * 64 + member] }.setNode node member .worked) ∧
    (p.kind ≠ pathBest → (m.link p.link).sendQ = [] → (m.link p.link).canSend = true → x.frames ≠ [] →
      .linkMsg p.link (linkPath b) (linkTag b member) d.len (m.link p.link).txSeq.toNat ∈
        (m.sendFrames k c node member p b d x).out) ∧
    ∀ j, j ≠ k → (m.sendFrames k c node member p b d x).part j = m.part j := by
  obtain ⟨hreset, hon, hrun, -, hmb, hphase⟩ := Mod.nodeAt_some hnode
  generalize hm₁ : (m.modPath (linkPath b) fun p => { p with credit := p.credit - d.len, txCount := p.txCount + segments d.len }) = m₁
  generalize hm₂ : m₁.pathFrames p (messageFrames (linkTag b member) d.len x.frames) = m₂
  have hleaves : m₁.Leaves m₂ := hm₂ ▸ Mod.leaves_pathFrames ..
  have hpart₂ (j : Nat) : m₂.part j = m.part j := (Mod.part_of_parts hleaves.parts j).trans (by rw [← hm₁]; rfl)
  have hsend : m.sendFrames k c node member p b d x =
      (m₂.modRun k c fun u => { u with sent := u.sent ++ [node * 64 + member] }).worked k c node member := by
    have hctx : ((m₂.modRun k c fun u => { u with sent := u.sent ++ [node * 64 + member] }).part k).ctx c =
        { (m.part k).ctx c with run := some { u with sent := u.sent ++ [node * 64 + member] } } := by
      rw [Mod.ctx_modRun, hpart₂, hrun, Option.map_some]
    have hat := Mod.nodeAt_eq (m := m₂.modRun k c fun u => { u with sent := u.sent ++ [node * 64 + member] })
      (u := { u with sent := u.sent ++ [node * 64 + member] }) (k := k) (c := c) (node := node) (member := member) (mb := mb)
      (by
        unfold Mod.modRun Mod.modCtx
        rw [Mod.part_modPart]
        exact (congrArg Partition.underReset (hpart₂ k)).trans hreset)
      (by
        have hboot : m₂.boot = m.boot := hleaves.boot.trans (by rw [← hm₁]; rfl)
        simpa [Mod.running, Mod.modRun, Mod.modCtx, Mod.modPart, hboot] using hon)
      (by rw [hctx]) hmb hphase
    rw [hctx] at hat
    unfold Mod.sendFrames
    rw [hpoison]
    dsimp only
    rw [hm₁, hm₂]
    refine Mod.linkHalves_worked hat (Run.halvesDone_of_sent ?_ ?_)
    · exact (congrArg linkOp hb.symm).trans hop
    · simp
  rw [hsend]
  refine ⟨?_, ?_, fun hkind hq hcan hne => ?_, fun j hj => ?_⟩
  · obtain ⟨q, hq, hcredit, hcount⟩ := hleaves.path (linkPath b) _ (by rw [← hm₁]; exact Mod.find_modPath hp _)
    exact ⟨q, hq, hcredit, hcount⟩
  · unfold Mod.worked
    rw [Mod.ctx_modRun, Mod.ctx_modRun, hpart₂, hrun]
    rfl
  · have hlink : m₁.link p.link = m.link p.link := by rw [← hm₁]; rfl
    have hout := m₁.queueFrames_announces p.link (linkTag b member) d.len hframes hne (by rw [hlink]; exact hq)
      (by rw [hlink]; exact hcan)
    unfold Mod.pathFrames at hm₂
    rw [if_neg hkind] at hm₂
    rw [hm₂, hlink] at hout
    exact hout
  · have hothers := Mod.part_of_others (m := m₂)
      (n := (m₂.modRun k c fun u => { u with sent := u.sent ++ [node * 64 + member] }).worked k c node member) (k := k)
      (by simp) hj
    exact hothers.trans (hpart₂ j)

/-- A node that runs runs also after reading, and after the latching of a key. -/
theorem Mod.nodeAt_of_reads {m m₁ : Mod} {k c node member : Nat} {u : Run} {img : List Byte} {mb : Member} (h : m.Reads k m₁)
    (hat : m.nodeAt k c node member = some (u, img, mb)) :
    m₁.nodeAt k c node member = some (u, img, mb) ∧ img = ((m₁.part k).ctx c).image u := by
  obtain ⟨hreset, hon, hrun, himg, hmb, hphase⟩ := Mod.nodeAt_some hat
  obtain ⟨_, _, _, hm₁⟩ := h.same
  obtain ⟨_, _, _, _, _, _, _, hpart⟩ := h.part
  have hctx : (m₁.part k).ctx c = (m.part k).ctx c := by rw [hpart]; rfl
  rw [← hctx] at hrun himg
  refine ⟨?_, himg⟩
  rw [himg]
  exact Mod.nodeAt_eq (by rw [hpart]; exact hreset) (by rw [hm₁]; exact hon) hrun hmb hphase

/-- Settles O54: a latched send is one equation per way it goes, and one that goes out whole leaves paths, runs and links as
its frames do; a receive and an exchange are their rows. -/
theorem linkNodes : Obligations.LinkNodes := by
  unfold Obligations.LinkNodes
  refine ⟨fun s k c node w u img mb p hruns hunit hop hsent hp hclosed hissues hchan => ?_,
    fun s k c node member u img mb hruns hunit hop => ?_, fun s k c node w u img mb hruns hunit hop => ?_,
    fun m k c node member u img mb hat hreceived hop => Mod.linkHalves_worked hat (Run.halvesDone_of_received hop hreceived)⟩
  · obtain ⟨hon, -, hat⟩ := hruns
    have hgives := gives_of_act hon (exec_linkSend k c node w s)
    rw [hat] at hgives
    simp only [hunit, hop, beq_self_eq_true, Bool.and_self, if_true] at hgives
    refine ⟨fun m₁ hlatch => ?_, fun v m₁ hlatch => ⟨fun hside => ?_, fun hside => ⟨fun hcredit => ?_, fun hcredit hcount => ?_,
      fun x m₂ hcredit hcount hseal herr hpoison => ?_⟩⟩⟩
    · rwa [Mod.sendHalf_keyless hsent hp hclosed hissues hchan hlatch] at hgives
    · rwa [Mod.sendHalf_badSide hsent hp hclosed hissues hchan hlatch hside] at hgives
    · rwa [Mod.sendHalf_creditless hsent hp hclosed hissues hchan hlatch hside hcredit] at hgives
    · rwa [Mod.sendHalf_spent hsent hp hclosed hissues hchan hlatch hside hcredit hcount] at hgives
    · rw [Mod.sendHalf_sealed hsent hp hclosed hissues hchan hlatch hside hcredit hcount hseal herr] at hgives
      obtain ⟨hp₁, hat₁, hlink₁, hpart₁⟩ : Table.find (linkPath (nodeBody img node)) m₁.paths = some p ∧
          m₁.nodeAt k.val c.val node w.member = some (u, img, mb) ∧ m₁.link p.link = s.mod.link p.link ∧
          ∀ j, m₁.part j = s.mod.part j := by
        obtain ⟨keys, rfl⟩ := Mod.sendLatch_eq hlatch
        exact ⟨hp, hat, rfl, fun _ => rfl⟩
      obtain ⟨hreads, hframes⟩ := hseal ▸ m₁.sealMessage_spec (k := k.val) (m₁.linkDesc u img mb c.val node w.member false)
        (linkPath (nodeBody img node)) p.txCount (mb.raise.serial, node) (m₁.keyBytes v.1 v.2)
        (fun i => gcmIv p.job (linkPath (nodeBody img node)) (m₁.sendDir p) (p.txCount + i)) w.finds
      change m₁.Reads k.val m₂ at hreads
      obtain ⟨hat₂, himg⟩ := Mod.nodeAt_of_reads hreads hat₁
      obtain ⟨_, _, _, hm₂⟩ := hreads.same
      have hlink : m₂.link p.link = s.mod.link p.link := by rw [← hlink₁, hm₂]; rfl
      obtain ⟨⟨q, hq, hqcredit, hqcount⟩, hrun, hout, hparts⟩ := Mod.sendFrames_spec (x := x)
        (d := m₁.linkDesc u img mb c.val node w.member false) (by rw [hm₂]; exact hp₁) (himg ▸ hat₂) (by rw [himg]) hop
        hframes hpoison
      rw [hlink] at hout
      refine ⟨_, q, _, hgives, hq, hqcredit, hqcount, Mod.run_watchLinks hrun, rfl, ?_, hout, fun j hj => ?_⟩
      · exact Table.find_set_same ..
      · refine (Mod.part_of_others (Mod.others_watchLinks _ k.val) hj).trans ?_
        exact (hparts j hj).trans ((hreads.other j hj).trans (hpart₁ j))
  · obtain ⟨hon, -, hat⟩ := hruns
    have hgives := gives_of_act hon (exec_linkRecv k c node member s)
    rw [hat] at hgives
    simpa [hunit, hop] using hgives
  · obtain ⟨hon, -, hat⟩ := hruns
    have hgives := gives_of_act hon (exec_linkExchange k c node w s)
    rw [hat] at hgives
    simpa [hunit, hop] using hgives

end Sys2Proof.Machine
end

section
/-!
PROOFS. Array passes and vector nodes (06 R156, 09 R205 to R217, 10 R220).
-/

namespace Sys2Proof.Machine
open Claims

/-! ### Words found in a scratchpad (10 R225, 18 R414) -/

/-- A store's bad words once one more is found bad. -/
theorem Truss.bad_spoil (t : Truss) (st : Fin 3) (w : Nat) (h : (t.bad st.val).contains w = false) :
    (t.spoil st.val w).bad st.val = w :: t.bad st.val := by
  unfold Truss.spoil
  rw [if_neg (by rw [h]; exact Bool.false_ne_true)]
  fin_cases st <;> rfl

/-- A word of a footprint that is bad makes the footprint bad. -/
theorem Footprint.bad_of_meets {f : Footprint} {t : Truss} {st w : Nat} (hmeets : f.meets st w = true) (hw : w ∈ t.bad st) :
    f.bad t = true := by
  rw [Footprint.meets, Bool.or_eq_true, List.any_eq_true, List.any_eq_true] at hmeets
  rw [Footprint.bad, Bool.or_eq_true, List.any_eq_true, List.any_eq_true]
  refine hmeets.imp ?_ ?_
  · rintro ⟨g, hg, hmeet⟩
    obtain ⟨hst, hread⟩ := Bool.and_eq_true_iff.mp hmeet
    obtain rfl := eq_of_beq hst
    exact ⟨g, hg, List.any_eq_true.mpr ⟨w, hw, hread⟩⟩
  · rintro ⟨g, hg, hmeet⟩
    obtain ⟨hst, hwrite⟩ := Bool.and_eq_true_iff.mp hmeet
    obtain rfl := eq_of_beq hst
    exact ⟨g, hg, List.any_eq_true.mpr ⟨w, hw, hwrite⟩⟩

section
variable (m : Mod) (k t : Nat) (f : Footprint) (x : WordFind)

theorem Mod.scratchFinds_nil : m.scratchFinds k t f [] = m := rfl

theorem Mod.scratchFinds_unread (h : f.meets x.store.val x.word = false) : m.scratchFinds k t f [x] = m := by
  simp [Mod.scratchFinds, h]

variable (hmeets : f.meets x.store.val x.word = true) (hnew : (((m.part k).truss t).bad x.store.val).contains x.word = false)
include hmeets hnew

theorem Mod.scratchFinds_single (hx : x.single = true) :
    m.scratchFinds k t f [x] = m.modPart k fun p => p.count offSpEcc 15 0 := by
  simp only [Mod.scratchFinds, Mod.forAll_cons, Mod.forAll_nil, hmeets, hnew, hx]
  rfl

theorem Mod.scratchFinds_double (hx : x.single = false) :
    m.scratchFinds k t f [x] = m.modPart k fun p => p.modTruss t fun t => t.spoil x.store.val x.word := by
  simp only [Mod.scratchFinds, Mod.forAll_cons, Mod.forAll_nil, hmeets, hnew, hx]
  rfl

theorem Mod.bad_scratchFinds (hx : x.single = false) : f.bad (((m.scratchFinds k t f [x]).part k).truss t) = true := by
  rw [Mod.scratchFinds_double m k t f x hmeets hnew hx, Mod.part_modPart, Partition.truss_modTruss]
  refine Footprint.bad_of_meets hmeets ?_
  rw [Truss.bad_spoil _ _ _ hnew]
  exact List.mem_cons_self

end

section
variable (m : Mod) (k t : Nat)

theorem Mod.ctxs_scratchFinds (f : Footprint) (xs : List WordFind) : ((m.scratchFinds k t f xs).part k).ctxs = (m.part k).ctxs := by
  refine Mod.forAll_keeps (P := fun n => (n.part k).ctxs = (m.part k).ctxs) (fun n x hn => ?_) xs m rfl
  split
  · exact hn
  · split
    · rw [Mod.part_modPart]
      exact hn
    · rw [Mod.part_modPart]
      exact hn

theorem Mod.ctxs_stalls (beside : Bool) : ((m.stalls k t beside).part k).ctxs = (m.part k).ctxs := by
  cases beside with
  | false => rfl
  | true =>
    unfold Mod.stalls
    rw [if_pos rfl]
    dsimp only
    rw [Mod.part_modPart]
    rfl

end

/-! ### Array passes and vector nodes -/

section
variable {m : Mod} {k c node : Nat} {w : UnitWork} {u : Run} {img : List Byte} {mb : Member}

/-- A vector row acts on its own operation only. -/
theorem Mod.vectorNode_other (hat : m.nodeAt k c node w.index = some (u, img, mb)) {op : Nat}
    (hop : (parseVec (nodeBody img node)).op ≠ op) : m.vectorNode op k c node w = m := by
  simp [Mod.vectorNode, hat, hop]

variable (hat : m.nodeAt k c node w.index = some (u, img, mb)) (hunit : nodeUnit img node = 2) (hshut : m.shutStands = false)
include hat hunit hshut

theorem Mod.vectorNode_good {n : Mod} {p : Partition} {b : VecBody} {t : Nat} (hb : parseVec (nodeBody img node) = b)
    (ht : u.phys img (nodeTruss img node) = t) (hn : m.scratchFinds k t (b.footprint w.index) w.finds = n)
    (hp : n.part k = p) (hgood : (b.footprint w.index).bad (p.truss t) = false) :
    m.vectorNode b.op k c node w =
      (n.modPart k fun q => (q.modTruss t fun _ => (b.runAll (p.truss t) (p.ctx c).ftz w.index).1).qntMarks
        (b.runAll (p.truss t) (p.ctx c).ftz w.index).2).worked k c node w.index := by
  subst hb ht hp hn
  simp [Mod.vectorNode, hat, hunit, hshut, hgood]

theorem Mod.vectorNode_bad {n : Mod} {b : VecBody} {t : Nat} (hb : parseVec (nodeBody img node) = b)
    (ht : u.phys img (nodeTruss img node) = t) (hn : m.scratchFinds k t (b.footprint w.index) w.finds = n)
    (hbad : (b.footprint w.index).bad ((n.part k).truss t) = true) :
    m.vectorNode b.op k c node w = (n.scratchError k c).worked k c node w.index := by
  subst hb ht hn
  simp [Mod.vectorNode, hat, hunit, hshut, hbad]

end

/-- What a vector row of an operation does. -/
theorem gives_vector {s : State} {k : Fin 64} {c : Fin 16} {node : Nat} {w : UnitWork} {i : Instr} {op : Nat} (hon : On s)
    (h : (i = .vectorAdd k c node w ∧ op = 0x01) ∨ (i = .vectorMul k c node w ∧ op = 0x02) ∨
      (i = .vectorFma k c node w ∧ op = 0x03) ∨ (i = .vectorMax k c node w ∧ op = 0x04) ∨
      (i = .vectorMin k c node w ∧ op = 0x05) ∨ (i = .convert k c node w ∧ op = 0x08) ∨
      (i = .rescale k c node w ∧ op = 0x09) ∨ (i = .vectorFunc k c node w ∧ op = 0x10) ∨
      (i = .gate k c node w ∧ op = 0x11) ∨ (i = .softmax k c node w ∧ op = 0x18) ∨
      (i = .rmsnorm k c node w ∧ op = 0x19) ∨ (i = .layernorm k c node w ∧ op = 0x1A) ∨
      (i = .argmax k c node w ∧ op = 0x1B)) : Gives i s (s.mod.vectorNode op k.val c.val node w) := by
  rcases h with ⟨rfl, rfl⟩ | ⟨rfl, rfl⟩ | ⟨rfl, rfl⟩ | ⟨rfl, rfl⟩ | ⟨rfl, rfl⟩ | ⟨rfl, rfl⟩ | ⟨rfl, rfl⟩ | ⟨rfl, rfl⟩ |
    ⟨rfl, rfl⟩ | ⟨rfl, rfl⟩ | ⟨rfl, rfl⟩ | ⟨rfl, rfl⟩ | ⟨rfl, rfl⟩
  · exact gives_of_act hon (exec_vectorAdd k c node w s)
  · exact gives_of_act hon (exec_vectorMul k c node w s)
  · exact gives_of_act hon (exec_vectorFma k c node w s)
  · exact gives_of_act hon (exec_vectorMax k c node w s)
  · exact gives_of_act hon (exec_vectorMin k c node w s)
  · exact gives_of_act hon (exec_convert k c node w s)
  · exact gives_of_act hon (exec_rescale k c node w s)
  · exact gives_of_act hon (exec_vectorFunc k c node w s)
  · exact gives_of_act hon (exec_gate k c node w s)
  · exact gives_of_act hon (exec_softmax k c node w s)
  · exact gives_of_act hon (exec_rmsnorm k c node w s)
  · exact gives_of_act hon (exec_layernorm k c node w s)
  · exact gives_of_act hon (exec_argmax k c node w s)

section
variable {m : Mod} {k c : Nat} {w : UnitWork} {member : Nat} {u : Run} {img : List Byte} {mb : Member}
variable (hat : m.nodeAt k c w.index member = some (u, img, mb)) (hfirst : u.firstRunning w.index = some member)
  (hunit : nodeUnit img w.index = 1)
include hat hfirst hunit

variable {n : Mod} {b : ArrayBody} {t g : Nat} (hb : parseArray (nodeBody img w.index) = b)
  (ht : u.phys img (nodeTruss img w.index) = t) (hg : (if b.gather then u.members.length else 1) = g)
  (hn : (m.stalls k t (u.beside.contains (w.index * 64 + member))).scratchFinds k t (b.footprint g) w.finds = n)
include hb ht hg hn

theorem Mod.arrayPass_good (hgood : (b.footprint g).bad ((n.part k).truss t) = false) :
    m.arrayPass k c w =
      (n.modPart k fun p => p.modTruss t fun x => b.pass x ((m.part k).ctx c).ftz g).worked k c w.index member := by
  obtain ⟨-, -, hrun, -⟩ := Mod.nodeAt_some hat
  have hctx : (n.part k).ctx c = (m.part k).ctx c := by
    unfold Partition.ctx
    rw [← hn, Mod.ctxs_scratchFinds, Mod.ctxs_stalls]
  rw [← hctx, Mod.modPart_congr (f := fun p => p.modTruss t fun x => b.pass x ((n.part k).ctx c).ftz g)
    (g := fun p => p.modTruss t fun x => b.pass x (p.ctx c).ftz g) rfl]
  subst hb ht hg hn
  simp [Mod.arrayPass, hrun, hfirst, hat, hunit, hgood, -List.contains_eq_mem]

theorem Mod.arrayPass_bad (hbad : (b.footprint g).bad ((n.part k).truss t) = true) :
    m.arrayPass k c w = (n.scratchError k c).worked k c w.index member := by
  obtain ⟨-, -, hrun, -⟩ := Mod.nodeAt_some hat
  subst hb ht hg hn
  simp [Mod.arrayPass, hrun, hfirst, hat, hunit, hbad, -List.contains_eq_mem]

end

/-- Settles O43: a pass and a vector node are what is left once the bad words of their footprint are known. -/
theorem arrayAndVectorNodes : Obligations.ArrayAndVectorNodes := by
  unfold Obligations.ArrayAndVectorNodes
  refine ⟨fun s k c w member u img mb hruns hfirst hunit => ?_, fun s k c node w u img mb i op hruns hunit hrow => ?_,
    Mod.scratchFinds_nil, fun m k t f x => ⟨Mod.scratchFinds_unread m k t f x, fun hmeets hnew =>
      ⟨Mod.scratchFinds_single m k t f x hmeets hnew, Mod.bad_scratchFinds m k t f x hmeets hnew⟩⟩⟩
  · obtain ⟨hon, hshut, hat⟩ := hruns
    intro b t p n m
    have hgives := gives_of_act hon (exec_arrayPass k c w s)
    simp only [hshut, Bool.false_eq_true, if_false] at hgives
    refine ⟨fun hgood => ?_, fun hbad => ?_, fun hbeside hfinds => ?_⟩
    · exact Mod.arrayPass_good hat hfirst hunit rfl rfl rfl rfl hgood ▸ hgives
    · exact Mod.arrayPass_bad hat hfirst hunit rfl rfl rfl rfl hbad ▸ hgives
    · have hm : m = s.mod := by
        unfold m
        rw [hbeside, hfinds]
        rfl
      exact ⟨hm, by rw [hm]⟩
  · obtain ⟨hon, hshut, hat⟩ := hruns
    intro b t m
    have hgives := gives_vector hon hrow
    refine ⟨fun hop hgood => ?_, fun hop hbad => ?_, fun hop => ?_⟩
    · subst hop
      rwa [Mod.vectorNode_good hat hunit hshut rfl rfl rfl rfl hgood] at hgives
    · subst hop
      rwa [Mod.vectorNode_bad hat hunit hshut rfl rfl rfl hbad] at hgives
    · rwa [Mod.vectorNode_other hat hop] at hgives

end Sys2Proof.Machine
end

section
/-!
PROOFS. Descriptors, units and windows (10 R225, R228, R230, R234).
-/

namespace Sys2Proof.Machine
open Claims

/-! ### Whole granules of near memory (11 R252, R255) -/

theorem Cells.write_append (m : Cells) (a : Nat) (xs ys : List Byte) :
    Cells.write m a (xs ++ ys) = Cells.write (Cells.write m a xs) (a + xs.length) ys := by
  induction xs generalizing m a with
  | nil => rfl
  | cons x xs ih =>
    rw [List.cons_append, Cells.write, ih, Cells.write, List.length_cons, Nat.add_assoc, Nat.add_comm 1]

theorem Mod.forAll_append {α : Type} (m : Mod) (f : Mod → α → Mod) (xs ys : List α) :
    m.forAll f (xs ++ ys) = (m.forAll f xs).forAll f ys :=
  List.foldl_append

/-- The partition with bytes in near memory, and with the poison of near memory as it then stands. -/
def Partition.overwrite (p : Partition) (loc : Nat) (bs : List Byte) (poison : List Nat) : Partition :=
  { p with near := Cells.write p.near loc bs, nearPoison := poison }

section
variable (m : Mod) (k key : Nat) {loc : Nat} {bs : List Byte}

/-- A whole granule takes its bytes and loses its poison. -/
theorem Mod.writeGranule_whole (hloc : loc < nearEnd) (halign : loc % 64 = 0) (hlen : bs.length = 64) (e : Ecc) :
    m.writeGranule k key loc bs false e =
      m.modPart k fun p => p.overwrite loc bs (p.nearPoison.filter (· != loc / 64)) := by
  have hnear : isExt loc = false := isExt_of_lt_nearEnd hloc
  have hgnear : isExt (64 * (loc / 64)) = false := isExt_of_lt_nearEnd (by omega)
  simp [Mod.writeGranule, hlen, Partition.putBytes, Partition.setPoison, Partition.overwrite, hnear, hgnear]

theorem granules_whole {c : Nat} (halign : loc % 64 = 0) (hc : 0 < c) :
    granules loc (64 * c) = (List.range c).map (· + loc / 64) := by
  rw [granules]
  congr 2
  omega

theorem Mod.memWrite_whole {c : Nat} (halign : loc % 64 = 0) (hc : 0 < c) (hlen : bs.length = 64 * c)
    (hend : loc + bs.length ≤ nearEnd) (e : Ecc) :
    ∃ poison, (m.memWrite k key loc bs [] e).part k = (m.part k).overwrite loc bs poison := by
  have hne : bs.isEmpty = false := List.isEmpty_eq_false_iff.mpr (List.ne_nil_of_length_pos (by omega))
  unfold Mod.memWrite
  rw [hne, if_neg Bool.false_ne_true, hlen, granules_whole halign hc]
  have hprefix (i : Nat) (hi : i ≤ c) : ∃ poison, (m.forAll (fun m g => m.writeGranule k key (max loc (64 * g))
      ((bs.drop (max loc (64 * g) - loc)).take (min (loc + 64 * c) (64 * g + 64) - max loc (64 * g))) (List.contains [] g)
      (if g = loc / 64 then e else .clean)) ((List.range i).map (· + loc / 64))).part k =
        (m.part k).overwrite loc (bs.take (64 * i)) poison := by
    induction i with
    | zero => exact ⟨_, rfl⟩
    | succ i ih =>
      obtain ⟨poison, hprefix⟩ := ih (by omega)
      rw [List.range_succ, List.map_append, Mod.forAll_append, List.map_singleton, Mod.forAll_cons, Mod.forAll_nil]
      have hlo : max loc (64 * (i + loc / 64)) = loc + 64 * i := by omega
      have hhi : min (loc + 64 * c) (64 * (i + loc / 64) + 64) = loc + 64 * i + 64 := by omega
      rw [hlo, hhi, List.contains_nil, Nat.add_sub_cancel_left, Nat.add_sub_cancel_left,
        Mod.writeGranule_whole _ _ _ (by omega) (by omega) (by simp; omega), Mod.part_modPart, hprefix]
      have htake : bs.take (64 * (i + 1)) = bs.take (64 * i) ++ (bs.drop (64 * i)).take 64 := List.take_add
      refine ⟨poison.filter (· != (loc + 64 * i) / 64), ?_⟩
      rw [htake]
      unfold Partition.overwrite
      rw [Cells.write_append, List.length_take, Nat.min_eq_left (by omega)]
  obtain ⟨poison, h⟩ := hprefix c le_rfl
  rw [List.take_of_length_le hlen.le] at h
  exact ⟨poison, h⟩

end

/-! ### A unit of a descriptor moves (10 R225, R228) -/

/-- What a partition's memories hold. -/
def Partition.stores (p : Partition) : Cells × Cells × Table Truss := (p.near, p.ext, p.trusses)

section
variable {m : Mod} {k ch : Nat} {d : Desc} {e : UnitEcc}

/-- A latched key changes its channel only. -/
theorem Mod.latchKey_spec (m : Mod) (k ch : Nat) (d : Desc) : ∃ chans key,
    (m.latchKey k ch d).part k = { m.part k with chans := chans } ∧
      ((m.latchKey k ch d).part k).chan ch = { (m.part k).chan ch with key := key } ∧
      (m.latchKey k ch d).others k = m.others k := by
  unfold Mod.latchKey
  split
  · split
    next u _ =>
      have hpart (n : Mod) : (n.keyUse u.1 u.2 (.dma k ch)).part k = n.part k := rfl
      rw [hpart, Mod.part_modPart, Mod.others_keyUse, Mod.others_modPart, Partition.chan_modChan]
      exact ⟨_, _, rfl, rfl, rfl⟩
    · exact ⟨_, _, rfl, rfl, rfl⟩
  · exact ⟨_, _, rfl, rfl, rfl⟩

section
variable (hsides : m.sidesOk k ch d ((m.part k).chan ch).written = true) (hwin : d.window = none)
  (hsrc : d.job = .sides → d.srcKind ≠ 3) {r : Bool × Option Nat × Mod}
  (hr : (m.latchKey k ch d).moveUnit k ch d ((m.part k).chan ch).written e = r)
include hsides hwin hsrc hr

theorem Mod.unitStep_fails (herr : r.1 = true) : m.unitStep k ch d e = (false, r.2.2.busError k ch 1) := by
  have hhost : (d.job == .sides && d.srcKind == 3) = false := by simpa using hsrc
  simp [Mod.unitStep, hsides, hwin, hhost, hr, herr]

theorem Mod.unitStep_moves (herr : r.1 = false) {n : Nat}
    (hn : (m.latchKey k ch d).unitLen d ((m.part k).chan ch).written = n) {m₂ : Mod}
    (hm₂ : ((r.2.1.elim r.2.2 fun detail => r.2.2.poisonRaise k d detail).modPart k fun p => p.modChan ch fun h => h.wrote n)
      = m₂) :
    m.unitStep k ch d e =
      if d.len ≤ ((m.part k).chan ch).written + n then (true, m₂.descDone k ch d) else (false, m₂.issueAhead k ch) := by
  have hhost : (d.job == .sides && d.srcKind == 3) = false := by simpa using hsrc
  simp only [Mod.unitStep, hsides, hwin, hhost, hr, herr, hn, Bool.not_true, Option.isSome_none, Bool.false_and,
    Bool.false_eq_true, if_false]
  subst hm₂
  obtain ⟨_, _ | _, _⟩ := r <;> rfl

end

/-- What the end of a descriptor leaves of its partition. -/
theorem Mod.descDone_spec (m : Mod) (k ch : Nat) (d : Desc) : ((m.descDone k ch d).part k).stores = (m.part k).stores ∧
    (((m.descDone k ch d).part k).chan ch).done = d.len ∧ (m.descDone k ch d).others k = m.others k := by
  unfold Mod.descDone
  extract_lets n
  have hn : n.part k = (m.part k).modChan ch fun h => h.popHead d.len := Mod.part_modPart ..
  have hothers : n.others k = m.others k := by simp [n, Mod.dmaKeyEnd]
  have hdone : ((n.part k).chan ch).done = d.len := by
    rw [hn, Partition.chan_modChan]
    rfl
  have hstores : (n.part k).stores = (m.part k).stores := by
    rw [hn]
    rfl
  clear_value n
  split
  · split
    · obtain ⟨f, hf⟩ := n.part_worked k _ _ _
      rw [hf]
      exact ⟨hstores, hdone, (Mod.others_worked ..).trans hothers⟩
    · exact ⟨hstores, hdone, hothers⟩
  · refine ⟨?_, ?_, (Mod.others_modPart ..).trans hothers⟩
    · rw [Mod.part_modPart]
      exact hstores
    · rw [Mod.part_modPart]
      exact hdone
  · refine ⟨?_, ?_, (Mod.others_modPart ..).trans hothers⟩
    · rw [Mod.part_modPart]
      dsimp only
      split <;> exact hstores
    · rw [Mod.part_modPart]
      dsimp only
      split <;> exact hdone

theorem Mod.issueAhead_spec (m : Mod) (k ch : Nat) : ((m.issueAhead k ch).part k).stores = (m.part k).stores ∧
    (((m.issueAhead k ch).part k).chan ch).done = ((m.part k).chan ch).done ∧ (m.issueAhead k ch).others k = m.others k := by
  unfold Mod.issueAhead
  extract_lets h
  split
  · exact ⟨rfl, rfl, rfl⟩
  · split
    · have hdraw : m.draw.2.part k = m.part k := rfl
      dsimp only
      rw [Mod.part_modPart, hdraw, Mod.others_modPart, Partition.chan_modChan]
      exact ⟨rfl, rfl, rfl⟩
    · exact ⟨rfl, rfl, rfl⟩

/-! ### From a scratchpad to near memory -/

section
variable (hsrc : d.srcKind = 1) (hdst : d.dstKind = 0)
include hsrc hdst

theorem Mod.unitBytes_row (m : Mod) (hraw : compressed d.dst = false) (hjob : d.job = .sides) : m.unitBytes d = rowBytes (locStore d.src) := by
  simp [Mod.unitBytes, hjob, hsrc, hdst, hraw, Mod.sidePs, rowBytes]

theorem Mod.sidesOk_row (hjob : d.job = .sides) {at' : Nat} (h : m.sidesOk k ch d at' = true) :
    d.len % rowBytes (locStore d.src) = 0 ∧ d.dst % 64 = 0 ∧ inTenant (addrLoc d.dst) d.len = true := by
  simp only [Mod.sidesOk, hjob, Mod.sideOk, hsrc, hdst, Mod.memSideOk] at h
  simp only [Bool.false_eq_true, if_false, if_true, Bool.and_eq_true, beq_iff_eq] at h
  obtain ⟨⟨-, ⟨-, hlen⟩, -⟩, ⟨⟨⟨⟨halign, -⟩, htenant⟩, -⟩, -⟩, -⟩ := h
  exact ⟨hlen, halign, htenant⟩

variable {at' n : Nat} (hgood : ((m.part k).truss (locTruss d.src)).readBad (locStore d.src)
    (locRow d.src * rowBytes (locStore d.src) + at') n = false)
include hgood

/-- A good row is written into memory as it stands in the scratchpad. -/
theorem Mod.moveSides_row (hraw : compressed d.dst = false) : m.moveSides k ch d at' n UnitEcc.clean =
    (false, none, (m.memWrite k (m.keyOf ((m.part k).chan ch).key) (addrLoc d.dst + at')
      (((m.part k).truss (locTruss d.src)).read (locStore d.src) (locRow d.src * rowBytes (locStore d.src) + at') n) [] .clean).modPart
      k fun p => p.hashUnit d (((m.part k).truss (locTruss d.src)).read (locStore d.src)
        (locRow d.src * rowBytes (locStore d.src) + at') n)) := by
  simp [Mod.moveSides, Mod.readSide, Mod.writeSide, hsrc, hdst, Mod.readLocal, Mod.scratchRead, UnitEcc.clean, hgood,
    Mod.writeLocal, hraw]

end

end

/-! ### Descriptors reach their channels (10 R228, R230, R239) -/

theorem Mod.pushDesc_on {m : Mod} {k ch : Nat} (h : getB ((m.part k).reg (offChCtrl ch)) 0 = false) (d : Desc) :
    m.pushDesc k ch d = m.modPart k fun p => p.modChan ch fun h =>
      if h.waiting = [] ∧ h.queue.length < 16 then { h with queue := h.queue ++ [d] } else { h with waiting := h.waiting ++ [d] } := by
  rw [Mod.pushDesc, if_neg (by rw [h]; exact Bool.false_ne_true)]
  simp

theorem Mod.pushDesc_off {m : Mod} {k ch : Nat} (h : getB ((m.part k).reg (offChCtrl ch)) 0 = true) (d : Desc) :
    m.pushDesc k ch d = m.ownerFails k ch d stAborted ch := if_pos h

theorem Channel.retry_head {h : Channel} {d : Desc} {rest : List Desc} {f : Desc → Bool} (hwait : h.waiting = d :: rest)
    (hroom : h.queue.length < 16) (hf : f d = true) : h.retry f = { h with queue := h.queue ++ [d], waiting := rest } := by
  simp [Channel.retry, hwait, hf, hroom]

/-- The partition with bytes in its descriptor windows. -/
def Partition.withWindow (p : Partition) (off : Nat) (data : List Byte) : Partition :=
  { p with descWin := Cells.write p.descWin off data }

/-- A fold whose step acts on one element of the list alone. -/
theorem foldl_only {α β : Type} {f : β → α → β} {a : α} (hf : ∀ b x, x ≠ a → f b x = b) {xs : List α} (hnodup : xs.Nodup)
    (ha : a ∈ xs) (b : β) : xs.foldl f b = f b a := by
  have hrest {ys : List α} (hys : a ∉ ys) (b : β) : ys.foldl f b = b := by
    induction ys with
    | nil => rfl
    | cons y ys ih =>
      obtain ⟨hy, hys⟩ := List.ne_and_not_mem_of_not_mem_cons hys
      rw [List.foldl_cons, hf b y hy.symm, ih hys]
  induction xs generalizing b with
  | nil => exact absurd ha List.not_mem_nil
  | cons x xs ih =>
    obtain ⟨hx, hnodup⟩ := List.nodup_cons.mp hnodup
    rw [List.foldl_cons]
    by_cases h : x = a
    · rw [h, hrest (h ▸ hx)]
    · rw [hf b x h, ih hnodup ((List.mem_cons.mp ha).resolve_left (Ne.symm h))]

/-- A whole descriptor written into a channel's window reaches that channel alone. -/
theorem Partition.descWrite_whole (p : Partition) (ch : Fin 16) {data : List Byte} (hlen : data.length = 32) :
    p.descWrite (32 * ch.val) data = (p.withWindow (32 * ch.val) data).takeDesc ch.val := by
  unfold Partition.descWrite
  rw [foldl_only (a := ch.val) (fun p i hi => ?_) List.nodup_range (List.mem_range.mpr ch.isLt)]
  · simp [hlen, List.take_of_length_le hlen.le, Partition.withWindow]
  · have hout : ¬ max (32 * ch.val) (32 * i) < min (32 * ch.val + data.length) (32 * i + 32) := by omega
    exact if_neg hout

theorem Partition.takeDesc_spec {p : Partition} {ch : Nat} {b : List Byte} (hb : Cells.read p.descWin (32 * ch) 32 = b) :
    (hostDescOk b = true → getB (p.reg (offChCtrl ch)) 0 = false → (p.chan ch).queue.length < 16 →
      p.takeDesc ch = p.modChan ch fun h => { h with queue := h.queue ++ [literalDesc .host b] }) ∧
    (hostDescOk b = true → (getB (p.reg (offChCtrl ch)) 0 = true ∨ 16 ≤ (p.chan ch).queue.length) →
      p.takeDesc ch = p.flag (offChStatus ch) 5) ∧
    (hostDescOk b = false → p.takeDesc ch = p.flag (offChStatus ch) 6) := by
  refine ⟨fun hok hon hroom => ?_, fun hok hfull => ?_, fun hok => ?_⟩
  · simp [Partition.takeDesc, hb, hok, hon, hroom]
  · have hfull' : (getB (p.reg (offChCtrl ch)) 0 || decide (16 ≤ (p.chan ch).queue.length)) = true := by simpa using hfull
    simp [Partition.takeDesc, hb, hok, hfull']
  · simp [Partition.takeDesc, hb, hok]

section
variable {m : Mod} {k ch : Nat} {d : Desc} (hd : d.srcKind = 1 ∧ d.dstKind = 0 ∧ compressed d.dst = false ∧ d.job = .sides)
include hd

/-- A unit of a scratchpad row stands in near memory, and every other near byte as before. -/
theorem Mod.moveUnit_row {at' : Nat} (hnear : isExt (addrLoc d.dst) = false) (halign : at' % 512 = 0) (hlt : at' < d.len)
    (hsides : m.sidesOk k ch d at' = true) {n : Mod} (hpart : ∃ chans, n.part k = { m.part k with chans := chans })
    {t : Truss} (ht : (m.part k).truss (locTruss d.src) = t) {a : Nat} (ha : locRow d.src * rowBytes (locStore d.src) + at' = a)
    (hgood : t.readBad (locStore d.src) a (m.unitLen d at') = false) :
    ∃ l poison, n.moveUnit k ch d at' UnitEcc.clean = (false, none, l) ∧ l.others k = n.others k ∧
      (l.part k).stores = (((n.part k).overwrite (addrLoc d.dst + at') (t.read (locStore d.src) a (m.unitLen d at')) poison)).stores ∧
      (l.part k).chans = (n.part k).chans := by
  obtain ⟨hsrc, hdst, hraw, hjob⟩ := hd
  obtain ⟨chans, hpart⟩ := hpart
  have htruss : (n.part k).truss (locTruss d.src) = t := by rw [hpart]; exact ht
  obtain ⟨hrows, haddr, htenant⟩ := Mod.sidesOk_row hsrc hdst hjob hsides
  have hlen : n.unitLen d at' = m.unitLen d at' := by
    rw [Mod.unitLen, Mod.unitLen, Mod.unitBytes_row hsrc hdst _ hraw hjob, Mod.unitBytes_row hsrc hdst _ hraw hjob]
  have hunit : m.unitLen d at' % 64 = 0 ∧ 0 < m.unitLen d at' ∧ at' + m.unitLen d at' ≤ d.len := by
    rw [Mod.unitLen, Mod.unitBytes_row hsrc hdst _ hraw hjob]
    revert hrows
    unfold rowBytes
    split <;> omega
  obtain ⟨h64, hpos, hle⟩ := hunit
  have hend : addrLoc d.dst + d.len ≤ nearEnd := by
    have hlow : addrLoc d.dst < extStart := by simpa [isExt] using hnear
    have hnotExt : inExt (addrLoc d.dst) d.len = false := by
      rw [inExt, decide_eq_false (by omega), Bool.false_and]
    simpa [inTenant, hnotExt, inNear] using htenant
  have hloc : addrLoc d.dst % 64 = 0 := by
    unfold addrLoc
    omega
  have hmove := Mod.moveSides_row (m := n) (k := k) (ch := ch) (d := d) (at' := at') (n := m.unitLen d at') hsrc hdst
    (by rw [htruss, ha]; exact hgood) hraw
  rw [htruss, ha] at hmove
  have hread : (t.read (locStore d.src) a (m.unitLen d at')).length = 64 * (m.unitLen d at' / 64) := by
    rw [Truss.read, Cells.read_length]
    omega
  obtain ⟨poison, hwrite⟩ := n.memWrite_whole k (n.keyOf ((n.part k).chan ch).key)
    (loc := addrLoc d.dst + at') (by omega) (by omega) hread (by omega) .clean
  have hsame : n.moveUnit k ch d at' UnitEcc.clean = n.moveSides k ch d at' (m.unitLen d at') UnitEcc.clean := by
    unfold Mod.moveUnit
    dsimp only
    rw [hjob, hlen]
  refine ⟨_, poison, hsame.trans hmove, ?_, ?_, ?_⟩
  · exact (Mod.others_modPart ..).trans (Mod.others_memWrite ..)
  · rw [Mod.part_modPart, hwrite]
    unfold Partition.hashUnit
    split <;> rfl
  · rw [Mod.part_modPart, hwrite]
    unfold Partition.hashUnit
    split <;> rfl

end

/-- What memory holds once bytes have been written in near memory. -/
theorem Partition.stores_overwrite {p q : Partition} {b : Nat} {bs : List Byte} {poison : List Nat}
    (h : q.stores = (p.overwrite b bs poison).stores) : Cells.read q.near b bs.length = bs ∧
      (∀ x, (x < b ∨ b + bs.length ≤ x) → Sparse.get x q.near = Sparse.get x p.near) ∧ q.ext = p.ext ∧ q.trusses = p.trusses := by
  obtain ⟨hnear, hmem⟩ := Prod.mk.inj h
  obtain ⟨hext, htrusses⟩ := Prod.mk.inj hmem
  have hwritten : q.near = Cells.write p.near b bs := hnear
  rw [hwritten]
  exact ⟨Cells.read_write_same .., fun x hx => Cells.get_write_out _ _ _ _ hx, hext, htrusses⟩

section
variable {m : Mod} {k ch : Nat} {d : Desc} (hd : d.srcKind = 1 ∧ d.dstKind = 0 ∧ compressed d.dst = false ∧ d.job = .sides)
include hd

/-- The step of a unit of a scratchpad row: its memories, its channel's count of bytes moved, and no other partition. -/
theorem Mod.unitStep_row {at' : Nat} (hnear : isExt (addrLoc d.dst) = false) (halign : at' % 512 = 0) (hlt : at' < d.len)
    (hsides : m.sidesOk k ch d at' = true) (hat : ((m.part k).chan ch).written = at') {t : Truss}
    (ht : (m.part k).truss (locTruss d.src) = t)
    (hgood : t.readBad (locStore d.src) (locRow d.src * rowBytes (locStore d.src) + at') (m.unitLen d at') = false)
    {x : Bool × Mod} (hx : m.unitStep k ch d UnitEcc.clean = x) :
    ∃ poison, ((if x.1 then x.2.laneEnd k d else x.2).part k).stores =
        ((m.part k).overwrite (addrLoc d.dst + at') (t.read (locStore d.src) (locRow d.src * rowBytes (locStore d.src) + at')
          (m.unitLen d at')) poison).stores ∧
      (((if x.1 then x.2.laneEnd k d else x.2).part k).chan ch).done =
        (if d.len ≤ at' + m.unitLen d at' then d.len else ((m.part k).chan ch).done) ∧
      (if x.1 then x.2.laneEnd k d else x.2).others k = m.others k := by
  obtain ⟨hsrc, hdst, hraw, hjob⟩ := hd
  have hwin : d.window = none := by simp [Desc.window, hjob, hsrc, hdst]
  obtain ⟨chans, key, hlatch, hchan, hothers⟩ := m.latchKey_spec k ch d
  obtain ⟨l, poison, hmove, hlothers, hstores, hchans⟩ := Mod.moveUnit_row ⟨hsrc, hdst, hraw, hjob⟩ hnear halign hlt hsides
    ⟨chans, hlatch⟩ ht rfl hgood
  have hlen : (m.latchKey k ch d).unitLen d at' = m.unitLen d at' := by
    rw [Mod.unitLen, Mod.unitLen, Mod.unitBytes_row hsrc hdst _ hraw hjob, Mod.unitBytes_row hsrc hdst _ hraw hjob]
  generalize hm₂ : l.modPart k (fun p => p.modChan ch fun h => h.wrote (m.unitLen d at')) = m₂
  have hdone₂ : ((m₂.part k).chan ch).done = ((m.part k).chan ch).done := by
    have hl : (l.part k).chan ch = { (m.part k).chan ch with key := key } := by
      rw [← hchan, Partition.chan, hchans]
      rfl
    rw [← hm₂, Mod.part_modPart, Partition.chan_modChan, hl]
    rfl
  have hothers₂ : m₂.others k = m.others k := by
    rw [← hm₂, Mod.others_modPart, hlothers, hothers]
  have hstores₂ : (m₂.part k).stores = ((m.part k).overwrite (addrLoc d.dst + at') (t.read (locStore d.src)
      (locRow d.src * rowBytes (locStore d.src) + at') (m.unitLen d at')) poison).stores := by
    rw [← hm₂, Mod.part_modPart]
    refine Eq.trans (b := (l.part k).stores) rfl (hstores.trans ?_)
    rw [hlatch]
    rfl
  have hlane (m : Mod) : m.laneEnd k d = m := by
    unfold Mod.laneEnd
    rw [hjob]
  subst hat
  rw [Mod.unitStep_moves hsides hwin (fun _ => by omega) hmove rfl hlen hm₂] at hx
  subst hx
  split
  next hlast =>
    obtain ⟨hst, hdone, hoth⟩ := m₂.descDone_spec k ch d
    rw [if_pos rfl, hlane]
    exact ⟨poison, hst.trans hstores₂, hdone, hoth.trans hothers₂⟩
  next hmore =>
    obtain ⟨hst, hdone, hoth⟩ := m₂.issueAhead_spec k ch
    rw [if_neg Bool.false_ne_true]
    exact ⟨poison, hst.trans hstores₂, hdone.trans hdone₂, hoth.trans hothers₂⟩

end

/-- A unit of a window that is accepted. -/
theorem Mod.execWindowUnitRx_eq {s : State} {j : Fin 64} {ch : Fin 16} {d : Desc} (hon : On s)
    (hd : ((s.mod.part j.val).chan ch.val).queue.head? = some d) (hnext : s.mod.issuesNext j.val ch.val = true)
    (hwindow : d.window.isSome = true) (hsides : s.mod.sidesOk j.val ch.val d ((s.mod.part j.val).chan ch.val).written = true) :
    (s.mod.winAccepts j.val d ((s.mod.part j.val).ofGuar d) ((s.mod.part j.val).chan ch.val).written (s.mod.unitBytes d) = true →
      Gives (.windowUnitRx j ch) s (((d.crosses j.val).elim s.mod fun path => if (s.mod.part j.val).ofGuar d then s.mod
        else { s.mod with holders := Table.set path (j.val, ch.val) s.mod.holders }).modPart j.val fun p =>
          p.modChan ch.val fun h => { h with winOk := true })) ∧
    (s.mod.winAccepts j.val d ((s.mod.part j.val).ofGuar d) ((s.mod.part j.val).chan ch.val).written (s.mod.unitBytes d) = false →
      Gives (.windowUnitRx j ch) s (s.mod.busError j.val ch.val 4)) := by
  have hgives := gives_of_act hon (exec_windowUnitRx j ch s)
  have hsome : d.window.isNone = false := by
    rw [← Option.not_isSome, hwindow]
    rfl
  simp only [hd, hnext, hsome, hsides, Bool.not_true, Bool.or_self, Bool.false_eq_true, if_false] at hgives
  refine ⟨fun hacc => ?_, fun hacc => ?_⟩
  · rw [if_pos hacc] at hgives
    cases hcross : d.crosses j.val with
    | none =>
      rw [hcross] at hgives
      exact hgives
    | some path =>
      rw [hcross] at hgives
      exact hgives
  · rwa [if_neg (by rw [hacc]; exact Bool.false_ne_true)] at hgives

/-- Settles O45: a descriptor by the channel that takes it, a unit by what its read and its write leave. -/
theorem dmaTransfers : Obligations.DmaTransfers := by
  refine ⟨fun s k c node member u img mb hruns hunit hdesc => ?_, fun s k ch i d rest hl hreset hrow hwait hroom => ?_,
    fun s f k ch off data hw hoff hlen => ?_, fun s k ch e d hon hd hmoves => ?_, fun s k ch d hon hd hmoves hjob => ?_,
    fun s j ch d hon => ?_⟩
  · obtain ⟨hon, hshut, hat⟩ := hruns
    intro ch h d
    have hgives := gives_of_act hon (exec_dmaTransfer k c node member s)
    rw [hat] at hgives
    simp only [hunit, hdesc, hshut, bne_self_eq_false, Bool.or_self, Bool.false_eq_true, if_false] at hgives
    refine ⟨fun hen => ?_, fun hdis => ?_⟩
    · rw [Mod.pushDesc_on hen] at hgives
      refine ⟨_, hgives, ?_, fun i hi => ?_, fun j hj => Mod.part_modPart_other _ hj _⟩
      · rw [Mod.part_modPart, Partition.chan_modChan]
      · rw [Mod.part_modPart, Partition.chan_modChan_other _ hi]
    · rwa [Mod.pushDesc_off hdis] at hgives
  · have hretry {f : Desc → Bool} (hf : f d = true) (hgives : Gives i s (s.mod.modPart k.val fun p => p.modChan ch.val fun h => h.retry f)) :
        ∃ m, Gives i s m ∧ (m.part k.val).chan ch.val = { (s.mod.part k.val).chan ch.val with
          queue := ((s.mod.part k.val).chan ch.val).queue ++ [d], waiting := rest } ∧ ∀ j, j ≠ k.val → m.part j = s.mod.part j := by
      refine ⟨_, hgives, ?_, fun j hj => Mod.part_modPart_other _ hj _⟩
      rw [Mod.part_modPart, Partition.chan_modChan, Channel.retry_head hwait hroom hf]
    rcases hrow with ⟨rfl, hjob⟩ | ⟨rfl, hjob⟩
    · have hgives := gives_of_alive hl (exec_bayDescPushRetry k ch s)
      rw [if_neg (by simp [hreset])] at hgives
      exact hretry (by simp [hjob]) hgives
    · have hgives := gives_of_alive hl (exec_pageWalkPush k ch s)
      rw [if_neg (by simp [hreset])] at hgives
      exact hretry (by simp [hjob]) hgives
  · have hgives := gives_actWrite (data := data) hw.1 (by omega) (by omega) (exec_dmaDescHostPush f k off data s)
    rw [if_pos hw.2, hoff] at hgives
    intro h ctrl
    have hbytes : Cells.read ((s.mod.part k.val).withWindow (32 * ch.val) data).descWin (32 * ch.val) 32 = data := by
      have hread := Cells.read_write_same (s.mod.part k.val).descWin (32 * ch.val) data
      rwa [hlen] at hread
    obtain ⟨htaken, hfull, hbad⟩ := Partition.takeDesc_spec hbytes
    refine ⟨_, hgives, ?_⟩
    rw [Mod.part_modPart, Partition.descWrite_whole _ ch hlen]
    refine ⟨fun hok hen hroom => ?_, fun hok hno => ?_, fun hok => ?_, ?_, fun j hj => Mod.part_modPart_other _ hj _⟩
    · rw [htaken hok hen hroom, Partition.chan_modChan]
      rfl
    · rw [hfull hok hno]
      exact ⟨rfl, Partition.getB_flag_same _ _ (by decide)⟩
    · rw [hbad hok]
      exact ⟨rfl, Partition.getB_flag_same _ _ (by decide)⟩
    · unfold Partition.takeDesc
      dsimp only
      split
      · rfl
      · split <;> rfl
  · intro at' hsides hwin hsrc m₁ n r
    have hgives := gives_of_act hon (exec_dmaUnitWritten k ch e s)
    rw [hd] at hgives
    dsimp only at hgives
    rw [if_pos hmoves] at hgives
    refine ⟨fun herr => ?_, fun herr => ?_⟩
    · rw [Mod.unitStep_fails hsides hwin hsrc rfl herr] at hgives
      exact hgives
    · intro m₂
      rw [Mod.unitStep_moves (m₂ := m₂) hsides hwin hsrc rfl herr rfl (by
        unfold m₂
        cases r.2.1 <;> rfl)] at hgives
      split
      next hlast =>
        rw [if_pos hlast] at hgives
        exact hgives
      next hmore =>
        rw [if_neg hmore] at hgives
        exact hgives
  · intro at' n t a b hsrc hdst hraw hnear halign hlt hsides hgood
    have hgives := gives_of_act hon (exec_dmaUnitWritten k ch UnitEcc.clean s)
    rw [hd] at hgives
    dsimp only at hgives
    rw [if_pos hmoves] at hgives
    obtain ⟨poison, hstores, hdone, hothers⟩ :=
      Mod.unitStep_row ⟨hsrc, hdst, hraw, hjob⟩ hnear halign hlt hsides rfl rfl hgood rfl
    obtain ⟨hread, hout, hext, htrusses⟩ := Partition.stores_overwrite hstores
    rw [show (t.read (locStore d.src) a n).length = n from Cells.read_length ..] at hread hout
    exact ⟨_, hgives, hread, hout, hext, htrusses, hdone, fun j hj => Mod.part_of_others hothers hj⟩
  · intro h hd hnext hwindow hsides
    obtain ⟨haccepted, hrefused⟩ := Mod.execWindowUnitRx_eq hon hd hnext hwindow hsides
    refine ⟨fun hacc => ⟨_, haccepted hacc, ?_, fun path hcross hguar => ?_, fun hnone => ?_, fun i hi => ?_⟩, hrefused⟩
    · rw [Mod.part_modPart, Partition.chan_modChan]
      cases d.crosses j.val with
      | none => rfl
      | some path =>
        dsimp only [Option.elim]
        split <;> rfl
    · rw [hcross]
      simp [hguar]
    · rcases hnone with hnone | hguar
      · rw [hnone]
        rfl
      · rw [hguar]
        cases d.crosses j.val <;> rfl
    · rw [Mod.part_modPart_other _ hi]
      cases d.crosses j.val with
      | none => rfl
      | some path =>
        dsimp only [Option.elim]
        split <;> rfl

end Sys2Proof.Machine
end

section
/-!
PROOFS. Launch records and landing (04 R99, R105, R106).
-/

namespace Sys2Proof.Machine
open Claims

/-! ### What landing looks at (04 R106, 03 R77) -/

/-- `n` is `m` but for the windows, credits and serials of partition `k`'s context `c`. -/
structure Mod.Taken (k c : Nat) (m n : Mod) : Prop where
  same : ∃ parts, n = { m with parts := parts }
  part : ∃ ctxs serial, n.part k = { m.part k with ctxs := ctxs, landSerial := serial }
  ctx : ∃ windows queues, (n.part k).ctx c = { (m.part k).ctx c with windows := windows, queues := queues }
  landed : ∀ q, (((n.part k).ctx c).queue q).landed = (((m.part k).ctx c).queue q).landed
  others : n.others k = m.others k

section
variable {m n : Mod} {k c : Nat}

theorem Mod.taken_modCtx (m : Mod) (k c : Nat) {f : Context → Context}
    (hf : ∀ x, (∃ windows queues, f x = { x with windows := windows, queues := queues }) ∧
      ∀ q, ((f x).queue q).landed = (x.queue q).landed) : m.Taken k c (m.modCtx k c f) := by
  have hpart : (m.modCtx k c f).part k = (m.part k).modCtx c f := Mod.part_modPart ..
  refine ⟨⟨_, rfl⟩, ⟨_, _, hpart⟩, ?_, fun q => ?_, Mod.others_modPart ..⟩
  · rw [hpart, Partition.ctx_modCtx]
    exact (hf _).1
  · rw [hpart, Partition.ctx_modCtx, (hf _).2]

theorem Mod.Taken.trans {l : Mod} (h : m.Taken k c n) (h' : n.Taken k c l) : m.Taken k c l where
  same := by
    obtain ⟨_, hn⟩ := h.same
    obtain ⟨_, hl⟩ := h'.same
    exact ⟨_, by rw [hl, hn]⟩
  part := by
    obtain ⟨_, _, hn⟩ := h.part
    obtain ⟨_, _, hl⟩ := h'.part
    exact ⟨_, _, by rw [hl, hn]⟩
  ctx := by
    obtain ⟨_, _, hn⟩ := h.ctx
    obtain ⟨_, _, hl⟩ := h'.ctx
    exact ⟨_, _, by rw [hl, hn]⟩
  landed q := (h'.landed q).trans (h.landed q)
  others := h'.others.trans h.others

variable (h : m.Taken k c n)
include h

theorem Mod.Taken.sees (j : Nat) : (n.part j).created = (m.part j).created ∧ (n.part j).tenant = (m.part j).tenant ∧
    (n.part j).underReset = (m.part j).underReset ∧ ∀ e, (n.part j).event e = (m.part j).event e := by
  by_cases hj : j = k
  · obtain ⟨_, _, hpart⟩ := h.part
    rw [hj, hpart]
    exact ⟨rfl, rfl, rfl, fun _ => rfl⟩
  · rw [Mod.part_of_others h.others hj]
    exact ⟨rfl, rfl, rfl, fun _ => rfl⟩

theorem Mod.Taken.waitMet (i : Nat) (r : Raise) : n.waitMet i r = m.waitMet i r :=
  Mod.waitMet_congr (fun j => (h.sees j).1) (fun j => (h.sees j).2.1) (fun j => (h.sees j).2.2.2) i r

theorem Mod.Taken.latch (i : Nat) (r : Raise) : r.latch n i = r.latch m i := by
  rw [Raise.latch, Raise.latch, h.waitMet]

theorem Mod.Taken.sameTenant (i j : Nat) : n.sameTenant i j = m.sameTenant i j := by
  simp only [Mod.sameTenant, Mod.exists?, (h.sees i).1, (h.sees j).1, (h.sees i).2.1, (h.sees j).2.1]

theorem Mod.Taken.resvOf (q : Nat) : (n.part k).resvOf c q = (m.part k).resvOf c q := by
  obtain ⟨_, _, hpart⟩ := h.part
  rw [hpart]
  rfl

theorem Mod.Taken.landingBad (r : Raise) : n.landingBad k c r = m.landingBad k c r := by
  have hlanded := h.landed r.q
  have hresv := h.resvOf r.q
  obtain ⟨windows, queues, hctx⟩ := h.ctx
  have hstanding : ((n.part k).ctx c).standing r.q = ((m.part k).ctx c).standing r.q := by
    unfold Context.standing
    rw [hlanded, hctx]
    rfl
  have hrecord : recordBad ((n.part k).ctx c) r = recordBad ((m.part k).ctx c) r := by
    rw [hctx]
    rfl
  simp only [Mod.landingBad, hstanding, hrecord, hresv, h.sameTenant]

theorem Mod.Taken.landingVoid (r : Raise) (v : Reservation) : n.landingVoid k c r v = m.landingVoid k c r v := by
  have hlanded := h.landed r.q
  obtain ⟨windows, queues, hctx⟩ := h.ctx
  obtain ⟨_, _, hpart⟩ := h.part
  obtain ⟨_, hn⟩ := h.same
  have hunfinished : ((n.part k).ctx c).unfinished r.q = ((m.part k).ctx c).unfinished r.q := by
    unfold Context.unfinished
    rw [hlanded, hctx]
    rfl
  have hreg : (n.part k).reg offSuspend = (m.part k).reg offSuspend := by
    rw [hpart]
    rfl
  have htrip : n.tripStands = m.tripStands := by
    rw [hn]
    rfl
  have hlane : n.jobLaneSecond v.job = m.jobLaneSecond v.job := by
    rw [hn]
    rfl
  simp only [Mod.landingVoid, Mod.standing, hunfinished, hreg, htrip, hlane]

end

/-! ### A record lands (04 R99, R105) -/

/-- The raise that a record in queue `q` makes, as it lands. -/
def Mod.landing (m : Mod) (k c q : Nat) (body : List Byte) : Raise :=
  ({ record := body, q := q, tLand := m.devtime, guar := (m.part k).bound c q, eventMode := getB ((m.part k).reg offEvtCtrl) 0
     serial := (m.part k).landSerial, voided := none, noticed := false, met := false
     waitMs := getF ((m.part k).reg offWdogCfg) 31 16 } : Raise).latch m k

/-- A record takes a credit of its queue and a serial of its partition. -/
def Mod.takes (m : Mod) (k c q : Nat) : Mod := m.modPart k fun p =>
  { p.modCtx c fun x => x.modQueue q fun u => { u with taken := u.taken + 1 } with landSerial := p.landSerial + 1 }

/-- A raise joins its queue. -/
def Mod.joinsQueue (m : Mod) (k c q : Nat) (r : Raise) : Mod :=
  m.modCtx k c fun x => x.modQueue q fun u => { u with landed := u.landed ++ [r] }

theorem Context.queue_modQueue_other (x : Context) {q i : Nat} (h : i ≠ q) (f : Queue → Queue) :
    (x.modQueue q f).queue i = x.queue i :=
  Table.get_modify_other _ h ..

theorem Context.landed_modQueue (x : Context) (q : Nat) {f : Queue → Queue} (hf : ∀ u, (f u).landed = u.landed) (i : Nat) :
    ((x.modQueue q f).queue i).landed = (x.queue i).landed := by
  by_cases h : i = q
  · rw [h, Context.queue_modQueue, hf]
  · rw [Context.queue_modQueue_other _ h]

section
variable {m : Mod} {k c q : Nat} {body : List Byte}

theorem Mod.part_takes (m : Mod) (k c q : Nat) : (m.takes k c q).part k =
    { (m.part k).modCtx c fun x => x.modQueue q fun u => { u with taken := u.taken + 1 } with
      landSerial := (m.part k).landSerial + 1 } := Mod.part_modPart ..

theorem Mod.taken_takes (m : Mod) (k c q : Nat) : m.Taken k c (m.takes k c q) := by
  have hctx : ((m.takes k c q).part k).ctx c = ((m.part k).ctx c).modQueue q fun u => { u with taken := u.taken + 1 } := by
    rw [Mod.part_takes]
    exact Partition.ctx_modCtx (m.part k) c fun x => x.modQueue q fun u => { u with taken := u.taken + 1 }
  refine ⟨⟨_, rfl⟩, ⟨_, _, Mod.part_takes ..⟩, ⟨_, _, hctx⟩, fun i => ?_, Mod.others_modPart ..⟩
  rw [hctx]
  exact Context.landed_modQueue _ _ (f := fun u => { u with taken := u.taken + 1 }) (fun _ => rfl) i

/-- A record that fails a check of landing completes at once. -/
theorem Mod.land_bad {st d : Nat} (h : m.landingBad k c (m.landing k c q body) = some (st, d)) :
    m.land k c q body =
      ((m.takes k c q).modPart k fun p => p.landingMarks st d).complete k c (m.landing k c q body) st d := by
  unfold Mod.landing at h
  unfold Mod.land
  dsimp only
  rw [h]
  rfl

section
variable (h : m.landingBad k c (m.landing k c q body) = none) (hshut : m.shutStands = false)
  (hwait : (m.landing k c q body).waits = true → (m.part (m.landing k c q body).waitPart).underReset = false)
include h hshut hwait

theorem Mod.land_unbound (hresv : (m.part k).resvOf c q = none) :
    m.land k c q body = ((m.takes k c q).joinsQueue k c q (m.landing k c q body)).settleHold k := by
  have hpasses : ¬ (m.takes k c q).shutStands = true := by
    rw [show (m.takes k c q).shutStands = m.shutStands from rfl, hshut]
    exact Bool.false_ne_true
  have hstands : ¬ ((m.landing k c q body).waits && ((m.takes k c q).part (m.landing k c q body).waitPart).underReset) = true := by
    obtain ⟨-, -, hreset, -⟩ := (m.taken_takes k c q).sees (m.landing k c q body).waitPart
    rw [hreset]
    simpa using hwait
  unfold Mod.landing at h
  unfold Mod.land
  dsimp only
  rw [h, hresv]
  exact (if_neg hpasses).trans (if_neg hstands)

theorem Mod.land_bound {i : Nat} {v : Reservation} (hresv : (m.part k).resvOf c q = some (i, v)) :
    m.land k c q body = (((m.takes k c q).modPart k fun p => { p with
      resvs := Table.set i { v with prev := some m.devtime } p.resvs }).joinsQueue k c q
        { m.landing k c q body with voided := m.landingVoid k c (m.landing k c q body) v }).settleHold k := by
  have hpasses : ¬ (m.takes k c q).shutStands = true := by
    rw [show (m.takes k c q).shutStands = m.shutStands from rfl, hshut]
    exact Bool.false_ne_true
  have hstands : ¬ ((m.landing k c q body).waits && ((m.takes k c q).part (m.landing k c q body).waitPart).underReset) = true := by
    obtain ⟨-, -, hreset, -⟩ := (m.taken_takes k c q).sees (m.landing k c q body).waitPart
    rw [hreset]
    simpa using hwait
  have hvoid := (m.taken_takes k c q).landingVoid (m.landing k c q body) v
  rw [← hvoid]
  unfold Mod.landing at h
  unfold Mod.land
  dsimp only
  rw [h, hresv]
  exact (if_neg hpasses).trans (if_neg hstands)

end

end

theorem Mod.others_settleHold (m : Mod) (k : Nat) : (m.settleHold k).others k = m.others k := by
  unfold Mod.settleHold
  split
  · rfl
  · exact Mod.others_modPart ..

/-- A raise that has joined its queue: the queue, and what stands of its partition. -/
theorem Mod.joinsQueue_spec {m l : Mod} {k c q : Nat} {rs : Table Reservation}
    (hpart : l.part k = { (m.takes k c q).part k with resvs := rs }) (hothers : l.others k = m.others k) (r : Raise) :
    let n := (l.joinsQueue k c q r).settleHold k
    (((n.part k).ctx c).queue q).landed = (((m.part k).ctx c).queue q).landed ++ [r] ∧
      (((n.part k).ctx c).queue q).taken = (((m.part k).ctx c).queue q).taken + 1 ∧
      (∀ i, i ≠ q → ((n.part k).ctx c).queue i = ((m.part k).ctx c).queue i) ∧ (n.part k).resvs = rs ∧
      (n.part k).near = (m.part k).near ∧ (n.part k).regs = (m.part k).regs ∧ n.others k = m.others k := by
  intro n
  have hn : n.part k = { (l.part k).modCtx c fun x => x.modQueue q fun u => { u with landed := u.landed ++ [r] } with
      hold := (n.part k).hold } := by
    have hjoin : (l.joinsQueue k c q r).part k =
        (l.part k).modCtx c fun x => x.modQueue q fun u => { u with landed := u.landed ++ [r] } := Mod.part_modPart ..
    rw [← hjoin]
    exact Mod.part_settleHold ..
  have hctx : (n.part k).ctx c = (((m.part k).ctx c).modQueue q fun u => { u with taken := u.taken + 1 }).modQueue q
      fun u => { u with landed := u.landed ++ [r] } := by
    have htakes : (l.part k).ctx c = ((m.part k).ctx c).modQueue q fun u => { u with taken := u.taken + 1 } := by
      rw [hpart, Mod.part_takes]
      exact Partition.ctx_modCtx (m.part k) c fun x => x.modQueue q fun u => { u with taken := u.taken + 1 }
    rw [hn, ← htakes]
    exact Partition.ctx_modCtx (l.part k) c fun x => x.modQueue q fun u => { u with landed := u.landed ++ [r] }
  rw [hctx]
  refine ⟨?_, ?_, fun i hi => ?_, ?_, ?_, ?_, ?_⟩
  · rw [Context.queue_modQueue, Context.queue_modQueue]
  · rw [Context.queue_modQueue, Context.queue_modQueue]
  · rw [Context.queue_modQueue_other _ hi, Context.queue_modQueue_other _ hi]
  · rw [hn, hpart]
    rfl
  · rw [hn, hpart, Mod.part_takes]
    rfl
  · rw [hn, hpart, Mod.part_takes]
    rfl
  · exact (Mod.others_settleHold ..).trans ((Mod.others_modPart ..).trans hothers)

/-- A record that passes the checks of landing joins its queue, under the promise of the queue's reservation. -/
theorem Mod.land_good {m : Mod} {k c q : Nat} {body : List Byte}
    (h : m.landingBad k c (m.landing k c q body) = none) (hshut : m.shutStands = false)
    (hwait : (m.landing k c q body).waits = true → (m.part (m.landing k c q body).waitPart).underReset = false) :
    let n := m.land k c q body
    ∃ x, (((n.part k).ctx c).queue q).landed = (((m.part k).ctx c).queue q).landed ++ [x] ∧
      ((m.part k).resvOf c q = none → x = m.landing k c q body) ∧
      (∀ i v, (m.part k).resvOf c q = some (i, v) →
        x = { m.landing k c q body with voided := m.landingVoid k c (m.landing k c q body) v } ∧
        Table.find i (n.part k).resvs = some { v with prev := some m.devtime }) ∧
      (((n.part k).ctx c).queue q).taken = (((m.part k).ctx c).queue q).taken + 1 ∧
      (∀ i, i ≠ q → ((n.part k).ctx c).queue i = ((m.part k).ctx c).queue i) ∧ (n.part k).near = (m.part k).near ∧
      (n.part k).regs = (m.part k).regs ∧ n.others k = m.others k := by
  intro n
  have htakes := m.taken_takes k c q
  cases hresv : (m.part k).resvOf c q with
  | none =>
    obtain ⟨hlanded, htaken, hqueue, hresvs, hnear, hregs, hall⟩ :=
      Mod.joinsQueue_spec (m := m) (l := m.takes k c q) rfl htakes.others (m.landing k c q body)
    rw [← Mod.land_unbound h hshut hwait hresv] at hlanded htaken hqueue hresvs hnear hregs hall
    exact ⟨_, hlanded, fun _ => rfl, fun i v hv => (by cases hv), htaken, hqueue, hnear, hregs, hall⟩
  | some e =>
    obtain ⟨i, v⟩ := e
    obtain ⟨hlanded, htaken, hqueue, hresvs, hnear, hregs, hall⟩ := Mod.joinsQueue_spec (m := m)
      (l := (m.takes k c q).modPart k fun p => { p with resvs := Table.set i { v with prev := some m.devtime } p.resvs })
      (Mod.part_modPart ..) ((Mod.others_modPart ..).trans htakes.others)
      { m.landing k c q body with voided := m.landingVoid k c (m.landing k c q body) v }
    rw [← Mod.land_bound h hshut hwait hresv] at hlanded htaken hqueue hresvs hnear hregs hall
    refine ⟨_, hlanded, fun hno => (by cases hno), fun i' v' hv => ?_, htaken, hqueue, hnear, hregs, hall⟩
    obtain ⟨rfl, rfl⟩ := Prod.mk.inj (Option.some.inj hv)
    exact ⟨rfl, by rw [hresvs, Table.find_set_same]⟩

/-! ### The launch windows (04 R99) -/

/-- Bytes written into a context's launch windows. -/
def Mod.windowed (m : Mod) (k c off : Nat) (data : List Byte) : Mod :=
  m.modCtx k c fun x => { x with windows := Cells.write x.windows off data }

section
variable {m : Mod} {k c off : Nat} {data : List Byte}

theorem Mod.taken_windowed (m : Mod) (k c off : Nat) (data : List Byte) : m.Taken k c (m.windowed k c off data) :=
  m.taken_modCtx k c fun _ => ⟨⟨_, _, rfl⟩, fun _ => rfl⟩

theorem Mod.part_windowed (m : Mod) (k c off : Nat) (data : List Byte) : (m.windowed k c off data).part k =
    (m.part k).modCtx c fun x => { x with windows := Cells.write x.windows off data } := Mod.part_modPart ..

theorem Mod.ctx_windowed (m : Mod) (k c off : Nat) (data : List Byte) : ((m.windowed k c off data).part k).ctx c =
    { (m.part k).ctx c with windows := Cells.write ((m.part k).ctx c).windows off data } := by
  rw [Mod.part_windowed]
  exact Partition.ctx_modCtx (m.part k) c fun x => { x with windows := Cells.write x.windows off data }

/-- What is written into the windows is no matter of the raise that lands. -/
theorem Mod.landing_windowed (m : Mod) (k c off : Nat) (data : List Byte) (q : Nat) (body : List Byte) :
    (m.windowed k c off data).landing k c q body = m.landing k c q body := by
  unfold Mod.landing
  rw [(m.taken_windowed k c off data).latch, Mod.part_windowed]
  rfl

/-- A write within one window. -/
theorem Mod.launchWrite_one {q : Nat} (hq : q < 4) (h0 : 0 < data.length) (hlo : 64 * q ≤ off)
    (hhi : off + data.length ≤ 64 * q + 64) : m.launchWrite k c off data =
      if off + data.length = 64 * q + 64 then
        (m.windowed k c off data).land k c q (Cells.read (Cells.write ((m.part k).ctx c).windows off data) (64 * q) 64)
      else m.windowed k c off data := by
  unfold Mod.launchWrite Mod.forAll
  rw [foldl_only (a := q) (fun m i hi => if_neg ?_) (by decide) (by simp; omega)]
  · have hlo' : max off (64 * q) = off := by omega
    have hhi' : min (off + data.length) (64 * q + 64) = off + data.length := by omega
    have hwhole : (data.drop (off - off)).take (off + data.length - off) = data := by simp
    dsimp only
    rw [hlo', hhi', if_pos (by omega), hwhole]
    have hwindows : Cells.read (((m.windowed k c off data).part k).ctx c).windows (64 * q) 64 =
        Cells.read (Cells.write ((m.part k).ctx c).windows off data) (64 * q) 64 := by
      rw [Mod.ctx_windowed]
    rw [← hwindows]
    rfl
  · omega

end

/-! ### A record that fails a check of landing (04 R106, R111) -/

theorem Mod.landingBad_status {m : Mod} {k c : Nat} {r : Raise} {st d : Nat} (h : m.landingBad k c r = some (st, d)) :
    st ≠ stOk ∧ st ≠ stGuaranteeSuspended := by
  have hstatus {a b : Nat} (hab : some (a, b) = some (st, d)) (ha : a ≠ stOk ∧ a ≠ stGuaranteeSuspended) :
      st ≠ stOk ∧ st ≠ stGuaranteeSuspended := by
    obtain ⟨rfl, -⟩ := Prod.mk.inj (Option.some.inj hab)
    exact ha
  have hbudget {c c' : Prop} [Decidable c] [Decidable c'] (hv : (if c then some (stRefusedBudget, 0)
      else if c' then some (stRefusedBudget, 0) else none) = some (st, d)) : st ≠ stOk ∧ st ≠ stGuaranteeSuspended := by
    split at hv
    · exact hstatus hv (by decide)
    · split at hv
      · exact hstatus hv (by decide)
      · cases hv
  have hbound {v : Reservation} (hv : boundBad v r = some (st, d)) : st ≠ stOk ∧ st ≠ stGuaranteeSuspended := by
    unfold boundBad at hv
    split at hv
    · exact hstatus hv (by decide)
    · split at hv <;> exact hbudget hv
  unfold Mod.landingBad at h
  dsimp only at h
  split at h
  · exact hstatus h (by decide)
  · split at h
    · exact hstatus h (by decide)
    · split at h
      · exact hstatus h (by decide)
      · split at h
        · exact hstatus h (by decide)
        · split at h
          · cases h
          · split at h
            · exact hstatus h (by decide)
            · exact hbound h

theorem Partition.landingMarks_eq (p : Partition) (st d : Nat) : ∃ regs, p.landingMarks st d = { p with regs := regs } ∧
    ∀ c q, (p.landingMarks st d).reg (offQdDone c q) = p.reg (offQdDone c q) := by
  have hrefuse (c q : Nat) : offQdDone c q ≠ offRefuseCnt := by simp only [offQdDone, offRefuseCnt]; omega
  unfold Partition.landingMarks
  split
  · exact ⟨_, rfl, fun c q => Partition.reg_setReg_other _ (hrefuse c q) _⟩
  · split
    · exact ⟨_, rfl, fun c q => Partition.reg_setReg_other _ (hrefuse c q) _⟩
    · split
      · exact ⟨_, rfl, fun c q => Partition.reg_flag_other _ _ _ (by simp only [offQdDone, offEvtStatus]; omega)⟩
      · exact ⟨_, rfl, fun _ _ => rfl⟩

/-- The partition once a raise has ended in error: its raises wait as before, but for those that are met. -/
theorem Mod.complete_error_spec {m : Mod} {k c : Nat} {r : Raise} {status : Nat} (hok : status ≠ stOk)
    (hgs : status ≠ stGuaranteeSuspended) (detail : Nat) :
    let n := m.complete k c r status detail
    (∀ q, (((n.part k).ctx c).queue q).landed.length = (((m.part k).ctx c).queue q).landed.length) ∧
      (n.part k).reg (offQdDone c r.q) = (m.part k).reg (offQdDone c r.q) + 1 ∧ (n.part k).near = (m.part k).near ∧
      (n.part k).events = (m.part k).events := by
  obtain ⟨l, body, -, hpart⟩ := m.part_complete_error k c r hok hgs detail
  dsimp only
  rw [hpart]
  refine ⟨fun q => ?_, ?_, ?_, ?_⟩
  · rw [Partition.landed_pushRecord, Partition.landed_latched, List.length_map]
    rfl
  · rw [Partition.reg_pushRecord _ _ _ _ (by simp only [offQdDone, offCplPtr]; omega) (by simp only [offQdDone, offEvtStatus]; omega),
      Partition.reg_latched, Partition.reg_setReg]
  · obtain ⟨_, _, hpush⟩ := Partition.pushRecord_eq
      (((m.part k).setReg (offQdDone c r.q) ((m.part k).reg (offQdDone c r.q) + 1)).latched l k) c body r.notify
    rw [hpush]
    rfl
  · obtain ⟨_, _, hpush⟩ := Partition.pushRecord_eq
      (((m.part k).setReg (offQdDone c r.q) ((m.part k).reg (offQdDone c r.q) + 1)).latched l k) c body r.notify
    rw [hpush]
    rfl

/-- Settles O39: a write within a window is one landing at most; what landing leaves is what its raise does. -/
theorem raisesLand : Obligations.RaisesLand := by
  refine ⟨fun s f k c q off data hw hcreated hlen hoff hshut => ?_, fun s f k c q off data hw hcreated h0 hlo hhi => ?_,
    fun s f k c off data hl h0 h512 hnone => ?_⟩
  · have hgives := gives_actWrite (data := data) hw.1 (by omega) (by omega) (exec_launchRecord f k c off data s)
    rw [if_pos (by simpa [Mod.writable, hcreated] using hw.2), Mod.launchWrite_one q.isLt (by omega) (by omega) (by omega),
      if_pos (by omega)] at hgives
    have hbody : Cells.read (Cells.write ((s.mod.part k.val).ctx c.val).windows off.val data) (64 * q.val) 64 = data := by
      have hread := Cells.read_write_same ((s.mod.part k.val).ctx c.val).windows (64 * q.val) data
      rw [hlen] at hread
      rw [hoff, hread]
    rw [hbody] at hgives
    generalize hm : s.mod.windowed k.val c.val off.val data = m at hgives
    have htaken : s.mod.Taken k.val c.val m := hm ▸ s.mod.taken_windowed ..
    intro p bare r
    have hr : m.landing k.val c.val q.val data = r := hm ▸ s.mod.landing_windowed ..
    refine ⟨fun hgood hwait => ?_, fun st d hbad => ?_⟩
    · have hgood' : m.landingBad k.val c.val (m.landing k.val c.val q.val data) = none := by
        rw [hr, htaken.landingBad, hgood]
      have hwait' : (m.landing k.val c.val q.val data).waits = true →
          (m.part (m.landing k.val c.val q.val data).waitPart).underReset = false := by
        rw [hr, (htaken.sees r.waitPart).2.2.1]
        exact hwait
      have hshut' : m.shutStands = false := by rw [← hm]; exact hshut
      have htime : m.devtime = s.mod.devtime := by rw [← hm]; rfl
      have hqueues (i : Nat) : ((m.part k.val).ctx c.val).queue i = (p.ctx c.val).queue i := by
        rw [← hm, Mod.ctx_windowed]
        rfl
      obtain ⟨_, _, hkept⟩ := htaken.part
      obtain ⟨x, hlanded, hfree, hbound, htakes, hqueue, hnear, hregs, hall⟩ := Mod.land_good hgood' hshut' hwait'
      rw [hqueues] at hlanded htakes
      rw [hr, htaken.resvOf] at hfree
      refine ⟨_, x, hgives, hlanded, hfree, fun i v hv => ?_, htakes, fun i hi => ?_, ?_, ?_, fun j hj => ?_⟩
      · obtain ⟨hx, hfind⟩ := hbound i v ((htaken.resvOf q.val).trans hv)
        rw [hr, htaken.landingVoid] at hx
        exact ⟨hx, by rw [hfind, htime]⟩
      · rw [hqueue i hi, hqueues]
      · rw [hnear, hkept]
      · rw [hregs, hkept]
      · exact Mod.part_of_others (hall.trans htaken.others) hj
    · have hbad' : m.landingBad k.val c.val (m.landing k.val c.val q.val data) = some (st, d) := by
        rw [hr, htaken.landingBad, hbad]
      rw [Mod.land_bad hbad', hr] at hgives
      obtain ⟨hok, hgs⟩ := Mod.landingBad_status hbad
      obtain ⟨hlanded, hdone, hnear, hevents⟩ := Mod.complete_error_spec (m := (m.takes k.val c.val q.val).modPart k.val fun p =>
        p.landingMarks st d) (k := k.val) (c := c.val) (r := r) hok hgs d
      obtain ⟨regs, hmarks, hreg⟩ := ((m.takes k.val c.val q.val).part k.val).landingMarks_eq st d
      have hq : r.q = q.val := rfl
      obtain ⟨_, _, hkept⟩ := (htaken.trans (m.taken_takes k.val c.val q.val)).part
      refine ⟨_, hgives, ?_, ?_, ?_, ?_⟩
      · rw [hlanded, Mod.part_modPart, hmarks]
        exact congrArg List.length ((htaken.trans (m.taken_takes k.val c.val q.val)).landed q.val)
      · rw [hq, Mod.part_modPart, hreg, hkept] at hdone
        exact hdone
      · rw [hnear, Mod.part_modPart, hmarks, hkept]
      · rw [hevents, Mod.part_modPart, hmarks, hkept]
  · have hgives := gives_actWrite (data := data) hw.1 h0 (by omega) (exec_launchRecord f k c off data s)
    rw [if_pos (by simpa [Mod.writable, hcreated] using hw.2), Mod.launchWrite_one q.isLt h0 hlo (by omega),
      if_neg (by omega)] at hgives
    exact hgives
  · have hgives := gives_actWrite (data := data) hl h0 h512 (exec_launchRecord f k c off data s)
    rw [if_neg] at hgives
    · exact hgives
    · rcases hnone with hno | hno
      · unfold Mod.writable at hno
        rw [hno]
        exact Bool.false_ne_true
      · rw [hno, Bool.and_false]
        exact Bool.false_ne_true

end Sys2Proof.Machine
end

section
/-!
PROOFS. Raises start, run and end (04 R108, R111; 06 R166).
-/

namespace Sys2Proof.Machine
open Claims

/-! ### A partition with no run (04 R108) -/

section
variable {m : Mod} {k : Nat} (hrunning : (m.part k).running = [])
include hrunning

theorem Mod.parkLong_idle : m.parkLong k = m := by
  unfold Mod.parkLong
  rw [hrunning, Mod.forAll_nil]

theorem Mod.parkAll_idle : m.parkAll k = m := by
  unfold Mod.parkAll
  rw [hrunning, Mod.forAll_nil]

end

theorem Mod.settleHold_none {m : Mod} {k : Nat} (h : (m.part k).hold = none) : m.settleHold k = m := by
  unfold Mod.settleHold
  rw [h]

theorem Partition.hold_none {p : Partition} (h : p.hold = none) : { p with hold := none } = p := by
  cases p
  subst h
  rfl

section
variable {m : Mod} {k : Nat} {e : StartEcc} {x : Place} {t : Nat}

/-- The most urgent guaranteed-class head of a partition with no run starts on the truss it takes. -/
theorem Mod.schedule_guar (hhold : (m.part k).hold = none) (hrunning : (m.part k).running = [])
    (hguar : (m.part k).guarHead = some x) {n : Mod} (hn : (m.modPart k fun p => { p with hold := none }) = n)
    (ht : (n.part k).forStart.takeTruss x = some t) :
    (∀ r, x.head = .landed r → m.schedule k e = n.startHead k x (n.joined k x.c r []) t 1800 e) ∧
      ∀ u, x.head = .parked u → m.schedule k e = n.startHead k x [] t 1800 e := by
  have hidle : (n.part k).running = [] := by
    rw [← hn, Mod.part_modPart]
    exact hrunning
  have hstart : m.schedule k e = m.startGuar k x e := by
    unfold Mod.schedule
    rw [Mod.parkLong_idle hrunning, Mod.settleHold_none hhold]
    dsimp only
    rw [hguar]
  rw [hstart]
  unfold Mod.startGuar
  dsimp only
  rw [hn, Mod.parkAll_idle hidle, hrunning]
  simp only [List.any_nil, Bool.or_self, Bool.false_eq_true, if_false]
  rw [ht]
  refine ⟨fun r hr => ?_, fun u hu => ?_⟩
  · dsimp only
    rw [hr]
  · dsimp only
    rw [hu]

/-- The best-effort choice of a partition with no run and no guaranteed-class head. -/
theorem Mod.schedule_best (hhold : (m.part k).hold = none) (hrunning : (m.part k).running = [])
    (hguar : (m.part k).guarHead = none) (hx : m.draw.2.chooseBest k (m.draw.2.clockStep k m.draw.1) = some x) :
    m.schedule k e = m.draw.2.startChosen k x (m.draw.2.clockStep k m.draw.1) e := by
  unfold Mod.schedule
  rw [Mod.parkLong_idle hrunning, Mod.settleHold_none hhold]
  dsimp only
  rw [hguar, hrunning]
  simp only [List.any_nil, Bool.false_eq_true, if_false]
  rw [hhold]
  dsimp only
  rw [hx]

variable (ht : ({ m.part k with hold := none } : Partition).forStart.takeTruss x = some t)
include ht

theorem Mod.startBest_parked {u : Run} (hu : x.head = .parked u) (joined : List Nat) (mhz : Nat) :
    m.startBest k x joined mhz e = m.startHead k x [] t (m.startMhz k mhz x) e := by
  unfold Mod.startBest
  dsimp only
  rw [ht, hu]

variable {r : Raise} (hr : x.head = .landed r) (joined : List Nat) (mhz : Nat)
include hr

/-- A landed head that the governor holds is counted. -/
theorem Mod.startBest_held (hgov : m.governorHolds = true) :
    m.startBest k x joined mhz e = (m.modPart k fun p => { p with hold := none }).chipCount offPwrGovCnt 31 16 := by
  unfold Mod.startBest
  dsimp only
  rw [ht, hr]
  exact if_pos hgov

theorem Mod.startBest_landed (hgov : m.governorHolds = false) :
    m.startBest k x joined mhz e = ((if m.startMhz k mhz x < 1800 ∨ m.tripStands = true then m.chipCount offPwrGovCnt 15 0
      else m).modPart k fun p => { p with hold := none }).startHead k x joined t (m.startMhz k mhz x) e := by
  unfold Mod.startBest
  dsimp only
  rw [ht, hr]
  exact if_neg (by rw [hgov]; exact Bool.false_ne_true)

end

section
variable {m : Mod} {k : Nat} {e : StartEcc} {x : Place}

theorem Mod.startChosen_parked {u : Run} (hu : x.head = .parked u) (mhz : Nat) :
    m.startChosen k x mhz e = m.startBest k x [] mhz e := by
  unfold Mod.startChosen
  rw [hu]

theorem Mod.startChosen_waits {t : Nat} (ht : (m.part k).forStart.takeTruss x = some t) {r : Raise} (hr : x.head = .landed r)
    (mhz : Nat) (hopens : m.opensWindow k x.c r (m.joined k x.c r []) = true) :
    m.startChosen k x mhz e = m.modPart k fun p =>
      { p with hold := some { ctx := x.c, q := x.q, since := m.devtime, joined := m.joined k x.c r [] } } := by
  unfold Mod.startChosen
  rw [hr]
  dsimp only
  rw [if_pos hopens, ht]

theorem Mod.startChosen_landed {r : Raise} (hr : x.head = .landed r) (mhz : Nat)
    (hopens : m.opensWindow k x.c r (m.joined k x.c r []) = false) :
    m.startChosen k x mhz e = m.startBest k x (m.joined k x.c r []) mhz e := by
  unfold Mod.startChosen
  rw [hr]
  exact if_neg (by rw [hopens]; exact Bool.false_ne_true)

/-- The end of a hold whose leader may still start. -/
theorem Mod.endHold_leader {h : Hold} {r : Raise} (hlead : m.draw.2.holdLeader k h = some r)
    (helig : m.draw.2.eligible k (m.draw.2.clockStep k m.draw.1) { c := h.ctx, q := h.q, head := .landed r } = true) :
    m.endHold k h e = (m.draw.2.startBest k { c := h.ctx, q := h.q, head := .landed r }
      (m.draw.2.joined k h.ctx r h.joined) (m.draw.2.clockStep k m.draw.1) e).modPart k fun p => { p with hold := none } := by
  unfold Mod.endHold
  dsimp only
  rw [hlead]
  exact if_pos helig

theorem Mod.endHold_alone {h : Hold} (hlead : m.draw.2.holdLeader k h = none) :
    m.endHold k h e = m.draw.2.modPart k fun p => { p with hold := none } := by
  unfold Mod.endHold
  dsimp only
  rw [hlead]

end

/-! ### Heads that start (04 R108) -/

/-- A stopped run that runs on. -/
theorem Mod.startHead_parked {m : Mod} {k : Nat} {x : Place} {joined : List Nat} {t mhz : Nat} {e : StartEcc} {u : Run}
    (hu : x.head = .parked u) :
    (((m.startHead k x joined t mhz e).part k).ctx x.c).run = some u ∧
      Table.find u.q (((m.startHead k x joined t mhz e).part k).ctx x.c).parked = none ∧
      ∀ j, j ≠ k → (m.startHead k x joined t mhz e).part j = m.part j := by
  have hstart : m.startHead k x joined t mhz e =
      (m.modPart k fun p => { p.forStart with hold := none }).resumeRun k x.c u := by
    unfold Mod.startHead
    rw [hu]
  rw [hstart]
  unfold Mod.resumeRun Mod.modCtx
  rw [Mod.part_modPart, Partition.ctx_modCtx]
  exact ⟨rfl, Table.find_erase_same .., fun j hj => by rw [Mod.part_modPart_other _ hj, Mod.part_modPart_other _ hj]⟩

theorem Mod.startHead_landed {m : Mod} {k : Nat} {x : Place} {joined : List Nat} {t mhz : Nat} {e : StartEcc} {r : Raise}
    (hr : x.head = .landed r) :
    m.startHead k x joined t mhz e = (m.modPart k fun p => { p.forStart with hold := none }).launch k x.c r joined t mhz e := by
  unfold Mod.startHead
  rw [hr]

section
variable {m : Mod} {k c : Nat} {img : List Byte} (hlinks : ∀ i, i < frameNodes img → nodeUnit img i ≠ 4)
include hlinks

theorem Mod.badLinkNode_none (m : Mod) (k : Nat) (job : Option Nat) : m.badLinkNode k job img = none := by
  unfold Mod.badLinkNode
  rw [List.find?_eq_none]
  intro i hi
  simp [hlinks i (List.mem_range.mp hi)]

theorem Mod.armAll_none (m : Mod) (k c q n : Nat) : m.armAll k c q img n = m :=
  Mod.forAll_same fun i hi => if_neg fun h => hlinks i (List.mem_range.mp hi) h.1

end

/-- A run of a frame with no link node stands in its context. -/
theorem Mod.beginRun_spec {m : Mod} {k c : Nat} {r : Raise} {t mhz : Nat} {f : Forming} {mb : Member} {ms : List Member}
    (hmembers : f.members = mb :: ms) (hlinks : ∀ i, i < frameNodes (((m.part k).ctx c).frameImage r.frame) →
      nodeUnit (((m.part k).ctx c).frameImage r.frame) i ≠ 4) :
    let n := m.beginRun k c r f t mhz
    ((n.part k).ctx c).run = some (f.run r.frame r.guar t mhz m.devtime) ∧ (r.guar = false → (n.part k).lastCtx = c) ∧
      ∀ j, j ≠ k → n.part j = m.part j := by
  intro n
  obtain ⟨g, hn, hrun, hlast⟩ : ∃ g, n = m.modPart k g ∧
      ((g (m.part k)).ctx c).run = some (f.run r.frame r.guar t mhz m.devtime) ∧ (r.guar = false → (g (m.part k)).lastCtx = c) := by
    unfold n Mod.beginRun
    dsimp only
    rw [hmembers]
    dsimp only
    rw [Mod.badLinkNode_none hlinks]
    dsimp only
    rw [Mod.armAll_none hlinks]
    refine ⟨_, rfl, ?_, fun hguar => ?_⟩
    · split <;> split <;>
        exact congrArg Context.run (Partition.ctx_modCtx (m.part k) c fun x => { x with run := some _ })
    · rw [hguar]
      rfl
  rw [hn]
  refine ⟨?_, fun hguar => ?_, fun j hj => Mod.part_modPart_other _ hj _⟩
  · rw [Mod.part_modPart]
    exact hrun
  · rw [Mod.part_modPart]
    exact hlast hguar

/-! ### Instances and raises that end (04 R111) -/

theorem Run.phase_starting (u : Run) (img : List Byte) (node member : Nat) :
    (u.starting img node member).phase node member = some .running :=
  Table.find_set_same ..

/-- A raise that ends without a signal counts one raise done. -/
theorem Mod.reg_complete {m : Mod} {k c : Nat} {r : Raise} (hsig : r.sigEn = false) (st d : Nat) :
    ((m.complete k c r st d).part k).reg (offQdDone c r.q) = (m.part k).reg (offQdDone c r.q) + 1 := by
  have hpart : ∃ n body, (m.complete k c r st d).part k =
      (((m.part k).setReg (offQdDone c r.q) ((m.part k).reg (offQdDone c r.q) + 1)).latched n k).pushRecord c body r.notify := by
    refine ⟨m.modPart k fun p => p.setReg (offQdDone c r.q) (p.reg (offQdDone c r.q) + 1), cplRecord r m.devtime st d, ?_⟩
    simp [Mod.complete, Mod.completeAll, Ending.signal, hsig, Mod.signals_eq, Mod.part_pushRecord]
    rfl
  obtain ⟨n, body, hpart⟩ := hpart
  rw [hpart, Partition.reg_pushRecord _ _ _ _ (by simp only [offQdDone, offCplPtr]; omega)
    (by simp only [offQdDone, offEvtStatus]; omega), Partition.reg_latched, Partition.reg_setReg]

section
variable {m : Mod} {k c node member : Nat} {u : Run} (hrun : ((m.part k).ctx c).run = some u)
include hrun

/-- A node that has done its work for a member ends there, but for a send of which a frame has still to leave. -/
theorem Mod.nodeComplete_done (hphase : u.phase node member = some .worked)
    (hleft : ¬ (nodeUnit (((m.part k).ctx c).image u) node = 4 ∧
        linkSends (nodeBody (((m.part k).ctx c).image u) node) = true) ∨ u.ending.isSome = true ∨
      m.sendLeft k u node member = true) :
    m.nodeComplete k c node member =
      (m.keyRelease fun y => y == .linkSend k c node member).modRun k c fun u => u.setNode node member .done := by
  unfold Mod.nodeComplete
  dsimp only
  rw [hrun]
  dsimp only
  rw [if_neg (by simp [hphase]), if_neg]
  rintro ⟨hunit, hsends, hending, hno⟩
  rcases hleft with h | h | h
  · exact h ⟨hunit, hsends⟩
  · rw [Option.isNone_iff_eq_none] at hending
    rw [hending] at h
    exact Bool.false_ne_true h
  · rw [hno] at h
    exact Bool.false_ne_true h

theorem Mod.nodeComplete_stands (hphase : u.phase node member ≠ some .worked) : m.nodeComplete k c node member = m := by
  unfold Mod.nodeComplete
  dsimp only
  rw [hrun]
  exact if_pos (by simpa using hphase)

end

/-- Settles O40: the scheduler by the head it chooses, a head by its start, a node and a raise by their ends. -/
theorem raisesRun : Obligations.RaisesRun := by
  refine ⟨fun s k e x t hon hsched hhold hrunning hguar => ?_, fun s k e x t hon hsched hhold hrunning hguar => ?_,
    fun s k e hon hsched => ?_, fun s k e h hon hhold => ?_, fun s k e hon hhold => ?_,
    fun m k x joined t mhz e => ⟨fun u hu => Mod.startHead_parked hu, fun r hr => Mod.startHead_landed hr⟩,
    fun m k c r t mhz f mb ms hmembers hlinks => Mod.beginRun_spec hmembers hlinks, fun m k hpaths => ?_,
    fun s k c node member hon => ?_, fun u img node member _ => ⟨u.phase_starting img node member, rfl, rfl⟩,
    fun s k c node member u hl hreset hrun => ?_, fun s k c hl hreset u hfin => ?_,
    fun m k c r st d hsig _ _ => Mod.reg_complete hsig st d, fun r => ⟨rfl, fun _ => rfl⟩⟩
  · intro m ht
    have hgives := gives_of_act hon (exec_raiseStart k e s)
    rw [if_pos hsched] at hgives
    obtain ⟨hlanded, hparked⟩ := Mod.schedule_guar (e := e) hhold hrunning hguar rfl ht
    exact ⟨fun r hr => hlanded r hr ▸ hgives, fun u hu => hparked u hu ▸ hgives⟩
  · intro d mhz hx ht
    have hgives := gives_of_act hon (exec_raiseStart k e s)
    rw [if_pos hsched, Mod.schedule_best hhold hrunning hguar hx] at hgives
    have ht' : ({ d.2.part k.val with hold := none } : Partition).forStart.takeTruss x = some t :=
      (congrArg (fun p : Partition => p.forStart.takeTruss x) (Partition.hold_none hhold)).trans ht
    refine ⟨fun u hu => ?_, fun r hr => ⟨fun hopens => ?_, fun hopens hgov => ?_, fun hopens hgov => ?_⟩⟩
    · rwa [Mod.startChosen_parked hu, Mod.startBest_parked ht' hu] at hgives
    · rwa [Mod.startChosen_waits (m := s.mod.draw.2) ht hr _ hopens] at hgives
    · rwa [Mod.startChosen_landed hr _ hopens, Mod.startBest_landed ht' hr _ _ hgov] at hgives
    · rwa [Mod.startChosen_landed hr _ hopens, Mod.startBest_held ht' hr _ _ hgov] at hgives
  · have hgives := gives_of_act hon (exec_raiseStart k e s)
    rwa [if_neg (by rw [hsched]; exact Bool.false_ne_true)] at hgives
  · have hgives := gives_of_act hon (exec_gatherWindowEnd k e s)
    rw [hhold] at hgives
    dsimp only at hgives
    refine ⟨fun hno => ?_, fun hsched hguar => ?_⟩
    · rwa [if_neg (by rw [hno]; exact Bool.false_ne_true)] at hgives
    · rw [if_pos (by rw [hsched, hguar]; rfl)] at hgives
      refine ⟨fun hlead => ?_, fun r t hlead => ?_⟩
      · rwa [Mod.endHold_alone hlead] at hgives
      · intro x mhz m helig hgov ht
        rwa [Mod.endHold_leader hlead helig, Mod.startBest_landed (m := s.mod.draw.2) ht rfl _ _ hgov] at hgives
  · have hgives := gives_of_act hon (exec_gatherWindowEnd k e s)
    rwa [hhold] at hgives
  · exact Mod.forAll_same fun e he => if_neg (hpaths e (List.mem_of_mem_filter he))
  · intro img m
    have hgives := gives_of_act hon (exec_nodeStart k c node member s)
    refine ⟨fun hsched hstart => ?_, fun hno => ?_⟩
    · rwa [if_pos (by rw [hsched, hstart]; rfl)] at hgives
    · rwa [if_neg (by rw [hno]; exact Bool.false_ne_true)] at hgives
  · intro b sends
    have hgives := gives_of_act hl.1 (exec_nodeComplete k c node member s)
    rw [if_neg (by simp [hreset, show s.mod.running = true from hl.2])] at hgives
    refine ⟨fun hphase hleft => ?_, fun hphase => ?_⟩
    · rwa [Mod.nodeComplete_done hrun hphase hleft] at hgives
    · rwa [Mod.nodeComplete_stands hrun hphase] at hgives
  · have hgives := gives_of_act hl.1 (exec_raiseComplete k c s)
    rw [if_neg (by simp [hreset, show s.mod.running = true from hl.2])] at hgives
    unfold Mod.raiseComplete at hgives
    dsimp only at hgives
    rwa [hfin] at hgives

end Sys2Proof.Machine
end

section
/-!
PROOFS. Requests that are blocked or superseded (02 R59 to R61).
-/

namespace Sys2Proof.Machine
open Claims

/-! ### What an operation on partitions and keys leaves of the mailboxes (02 R59 to R61) -/

/-- The mailboxes, the supersede log, the time, the bindings, the requests that wait for their turn, and which partitions exist. -/
def Mod.notes (m : Mod) : Table Mailbox × List (List Byte) × Dword × Table Binding × List Request × (Nat → Bool) :=
  (m.mbx, m.supersede, m.devtime, m.binds, m.taken, fun j => (m.part j).created)

/-- These, and the requests that act. -/
def Mod.desk (m : Mod) :
    (Table Mailbox × List (List Byte) × Dword × Table Binding × List Request × (Nat → Bool)) × List Request :=
  (m.notes, m.acting)

section
variable (m : Mod) (out : List Sent) (fresh : Nat) (read : Option ReadData) (power : Power) (time : TimeSync) (boot : Boot)
  (fwLoad : Option FwLoad) (fw : Option FwImage) (pcie : Pcie) (chip : RegFile) (shadows staged : Table Word)
  (mgmtBusy : Option Nat) (reqSerial : Nat) (arrived : List Request)
  (keys : Table KeySlot) (pke : List PkeJob) (wrapped : List WrappedDone) (kaScalar : Nat)
  (spdm : Table Spdm) (links : Table Link) (jobs : Table Job) (paths : Table Path) (gov : Governor)
  (modRecords : List (List Byte)) (fabric : Table Nat) (holders : Table (Nat × Nat)) (ports : Table Port) (beats : Table Dword)
  (resvSerial : Nat)

/-- Whatever else a record update replaces, the desk stands where its fields do. -/
@[simp] theorem Mod.desk_mk : Mod.desk
    { out, fresh, read, power, devtime := m.devtime, time, boot, fwLoad, fw, pcie, chip, shadows, staged, mbx := m.mbx,
      mgmtBusy, reqSerial, arrived, taken := m.taken, acting := m.acting, supersede := m.supersede, parts := m.parts, keys, pke, wrapped, kaScalar,
      spdm, links, jobs, paths, binds := m.binds, gov, modRecords, fabric, holders, ports, beats, resvSerial } = m.desk := rfl

end

theorem Mod.desk_of_parts {m n : Mod} (h : ∃ parts, n = { m with parts := parts })
    (hc : ∀ j, (n.part j).created = (m.part j).created) : n.desk = m.desk := by
  obtain ⟨parts, rfl⟩ := h
  simp only [Mod.desk, Mod.notes, hc]

@[simp] theorem Mod.desk_ite (c : Prop) [Decidable c] (a b : Mod) :
    (if c then a else b).desk = if c then a.desk else b.desk := apply_ite ..

@[simp] theorem Mod.desk_snd_ite {α : Type} (c : Prop) [Decidable c] (a b : α × Mod) :
    (if c then a else b).2.desk = if c then a.2.desk else b.2.desk := apply_ite (fun x : α × Mod => x.2.desk) ..

@[simp] theorem Mod.desk_forAll {α : Type} {f : Mod → α → Mod} (h : ∀ m x, (f m x).desk = m.desk) (xs : List α) (m : Mod) :
    (m.forAll f xs).desk = m.desk :=
  Mod.forAll_keeps (P := fun n => n.desk = m.desk) (fun n x hn => (h n x).trans hn) xs m rfl

theorem Mod.desk_foldl {α β : Type} (get : β → Mod) {f : β → α → β}
    (h : ∀ b x, (get (f b x)).desk = (get b).desk) (xs : List α) (b : β) :
    (get (xs.foldl f b)).desk = (get b).desk := by
  induction xs generalizing b with
  | nil => rfl
  | cons x xs ih => exact (ih _).trans (h b x)

theorem Mod.desk_foldl₃ {α β γ : Type} {f : β × γ × Mod → α → β × γ × Mod} (h : ∀ b x, (f b x).2.2.desk = b.2.2.desk)
    (xs : List α) (b : β × γ × Mod) : (xs.foldl f b).2.2.desk = b.2.2.desk :=
  Mod.desk_foldl (fun a => a.2.2) h xs b

/-- A module that stands in the result of an operation has the desk that the operation leaves. -/
theorem Mod.desk_of_snd {α : Type} {m n : Mod} {a : α} {x : α × Mod} (h : x = (a, n)) (hx : x.2.desk = m.desk) :
    n.desk = m.desk := by
  subst h
  exact hx

/-- `q` exists where `p` does. -/
def Partition.Remains (p q : Partition) : Prop := q.created = p.created

@[simp] theorem Partition.remains_iff (p q : Partition) : p.Remains q ↔ q.created = p.created := ⟨id, id⟩

@[simp] theorem Mod.desk_modPart (m : Mod) (k : Nat) {f : Partition → Partition} (hf : ∀ p : Partition, p.Remains (f p)) :
    (m.modPart k f).desk = m.desk := by
  refine Mod.desk_of_parts ⟨_, rfl⟩ fun j => ?_
  by_cases h : j = k
  · rw [h, Mod.part_modPart]
    exact hf _
  · rw [Mod.part_modPart_other _ h]

section
variable (p : Partition)

@[simp] theorem Partition.created_cplPush (c : Nat) (body : List Byte) : (p.cplPush c body).created = p.created := rfl

@[simp] theorem Partition.created_noticeMark (body : List Byte) : (p.noticeMark body).created = p.created := by
  unfold Partition.noticeMark
  split
  · rfl
  · split <;> rfl

@[simp] theorem Partition.created_joinReset : p.joinReset.created = p.created := by
  unfold Partition.joinReset
  split <;> rfl

@[simp] theorem Partition.created_eccMark (g : Nat) (scrub : Bool) : (p.eccMark g scrub).created = p.created := by
  unfold Partition.eccMark
  dsimp only
  split <;> rfl

@[simp] theorem Partition.created_setPoison (g : Nat) (b : Bool) : (p.setPoison g b).created = p.created := by
  unfold Partition.setPoison
  dsimp only
  split <;> rfl

@[simp] theorem Partition.created_putBytes (k key loc : Nat) (bs : List Byte) : (p.putBytes k key loc bs).created = p.created := by
  unfold Partition.putBytes
  split
  · dsimp only
    split <;> rfl
  · rfl

@[simp] theorem Partition.created_hashUnit (d : Desc) (bs : List Byte) : (p.hashUnit d bs).created = p.created := by
  unfold Partition.hashUnit
  split <;> rfl

@[simp] theorem Partition.created_shardFail (slot status detail : Nat) : (p.shardFail slot status detail).created = p.created := rfl

/-- Counting the ends of raises leaves whether a partition exists. -/
theorem Partition.created_foldl_setReg {α : Type} (off : α → Nat) (v : Partition → α → Word) (xs : List α) :
    (xs.foldl (fun p x => p.setReg (off x) (v p x)) p).created = p.created := by
  induction xs generalizing p with
  | nil => rfl
  | cons x xs ih => exact ih _

end

@[simp] theorem Mod.desk_modCtx (m : Mod) (k c : Nat) (f : Context → Context) : (m.modCtx k c f).desk = m.desk := by
  simp [Mod.modCtx]
@[simp] theorem Mod.desk_modKey (m : Mod) (i : Nat) (f : KeySlot → KeySlot) : (m.modKey i f).desk = m.desk := by
  simp [Mod.modKey]
@[simp] theorem Mod.desk_send (m : Mod) (x : Sent) : (m.send x).desk = m.desk := by simp [Mod.send]
@[simp] theorem Mod.desk_draw (m : Mod) : (m.draw).2.desk = m.desk := by simp [Mod.draw]
@[simp] theorem Mod.desk_msix (m : Mod) (f : Fn) (v : Nat) : (m.msix f v).desk = m.desk := by simp [Mod.msix]
@[simp] theorem Mod.desk_msixPart (m : Mod) (k v : Nat) : (m.msixPart k v).desk = m.desk := by simp [Mod.msixPart]
@[simp] theorem Mod.desk_latchWaits (m : Mod) : m.latchWaits.desk = m.desk :=
  Mod.desk_of_parts ⟨_, rfl⟩ fun j => by rw [Mod.part_latchWaits, Partition.created_latched]
@[simp] theorem Mod.desk_signals (m : Mod) (xs : List Signal) : (m.signals xs).desk = m.desk := by
  refine (Mod.desk_latchWaits _).trans (Mod.desk_forAll (fun n x => Mod.desk_modPart _ _ fun p => ?_) xs m)
  rw [Partition.remains_iff]
  split
  · exact Partition.created_signalFrom ..
  · rfl
@[simp] theorem Mod.desk_signal (m : Mod) (k e v : Nat) : (m.signal k e v).desk = m.desk := by simp [Mod.signal]
@[simp] theorem Mod.desk_pushRecord (m : Mod) (k c : Nat) (body : List Byte) (notify : Bool) :
    (m.pushRecord k c body notify).desk = m.desk := by
  simp [Mod.pushRecord]
@[simp] theorem Mod.desk_completeAll (m : Mod) (k c : Nat) (xs : List Ending) :
    (m.completeAll k c xs).desk = m.desk := by
  unfold Mod.completeAll
  refine (Mod.desk_forAll (fun n x => Mod.desk_pushRecord ..) ..).trans ((Mod.desk_signals ..).trans ?_)
  exact Mod.desk_modPart _ _ fun p => p.created_foldl_setReg _ _ xs
@[simp] theorem Mod.desk_complete (m : Mod) (k c : Nat) (r : Raise) (status detail : Nat) :
    (m.complete k c r status detail).desk = m.desk := by
  simp [Mod.complete]
@[simp] theorem Mod.desk_releaseResv (m : Mod) (k c q : Nat) : (m.releaseResv k c q).desk = m.desk := by
  unfold Mod.releaseResv
  dsimp only
  split
  next i r _ =>
    split
    · exact Mod.desk_modPart m k (f := fun p => { p with resvs := Table.erase i p.resvs }) fun _ => rfl
    · rfl
  · rfl
@[simp] theorem Mod.desk_noticePush (m : Mod) (k : Nat) (body : List Byte) :
    (m.noticePush k body).desk = m.desk := by
  simp [Mod.noticePush]
@[simp] theorem Mod.desk_notice (m : Mod) (k code resv obj state : Nat) :
    (m.notice k code resv obj state).desk = m.desk := by
  simp [Mod.notice]
@[simp] theorem Mod.desk_keyUse (m : Mod) (slot ver : Nat) (u : KeyUse) : (m.keyUse slot ver u).desk = m.desk := by
  simp [Mod.keyUse]
@[simp] theorem Mod.desk_keyRelease (m : Mod) (f : KeyUse → Bool) : (m.keyRelease f).desk = m.desk := by
  simp [Mod.keyRelease]
@[simp] theorem Mod.desk_within (m : Mod) (k c q : Nat) {f : Mod → Mod} (hf : ∀ n, (f n).desk = n.desk) :
    (m.within k c q f).desk = m.desk := by
  unfold Mod.within
  dsimp only
  split
  · exact hf m
  · split <;> simp [hf]
@[simp] theorem Mod.desk_markRun (m : Mod) (k c status detail : Nat) :
    (m.markRun k c status detail).desk = m.desk := by
  simp [Mod.markRun]
@[simp] theorem Mod.desk_endWaiters (m : Mod) (k : Nat) : (m.endWaiters k).desk = m.desk := by
  refine Mod.desk_forAll (fun n j => Mod.desk_forAll (fun n e => Mod.desk_forAll (fun n q => ?_) ..) ..) ..
  simp
@[simp] theorem Mod.desk_apAbandon (m : Mod) (k : Nat) : (m.apAbandon k).desk = m.desk := by
  (unfold Mod.apAbandon; dsimp only; repeat' split) <;> simp
@[simp] theorem Mod.desk_startReset (m : Mod) (k cause cdetail : Nat) :
    (m.startReset k cause cdetail).desk = m.desk := by
  simp [Mod.startReset]
@[simp] theorem Mod.desk_orphanReads (m : Mod) (k ch : Nat) : (m.orphanReads k ch).desk = m.desk := by
  simp [Mod.orphanReads]
@[simp] theorem Mod.desk_modRun (m : Mod) (k c : Nat) (f : Run → Run) : (m.modRun k c f).desk = m.desk := by
  simp [Mod.modRun]
@[simp] theorem Mod.desk_worked (m : Mod) (k c node member : Nat) : (m.worked k c node member).desk = m.desk := by
  simp [Mod.worked]
@[simp] theorem Mod.desk_setSuspended (m : Mod) (k i : Nat) (r : Reservation) (b : Bool) :
    (m.setSuspended k i r b).desk = m.desk := by
  simp [Mod.setSuspended]
@[simp] theorem Mod.desk_applyCap (m : Mod) : (m.applyCap).desk = m.desk := by simp [Mod.applyCap]
@[simp] theorem Mod.desk_memCondition (m : Mod) (k chan : Nat) : (m.memCondition k chan).desk = m.desk := by
  simp [Mod.memCondition]
@[simp] theorem Mod.desk_eccError (m : Mod) (k g chan : Nat) (scrub : Bool) :
    (m.eccError k g chan scrub).desk = m.desk := by
  simp [Mod.eccError]
@[simp] theorem Mod.desk_memRead (m : Mod) (k key loc n : Nat) (e : Ecc) (unit : Bool) (chan : Option Nat) :
    (m.memRead k key loc n e unit chan).2.desk = m.desk := by
  (unfold Mod.memRead; dsimp only; repeat' split) <;> simp
@[simp] theorem Mod.desk_writeGranule (m : Mod) (k key loc : Nat) (bs : List Byte) (poison : Bool) (e : Ecc) :
    (m.writeGranule k key loc bs poison e).desk = m.desk := by
  have hput (p : Partition) : (if p.poisoned (loc / 64) then p else p.putBytes k key loc bs).created = p.created := by
    split
    · rfl
    · exact p.created_putBytes ..
  unfold Mod.writeGranule
  dsimp only
  split
  · simp
  · split <;> simp [hput]
@[simp] theorem Mod.desk_memWrite (m : Mod) (k key loc : Nat) (bs : List Byte) (bad : List Nat) (e : Ecc) :
    (m.memWrite k key loc bs bad e).desk = m.desk := by
  simp [Mod.memWrite]
@[simp] theorem Mod.desk_readBlock (m : Mod) (k key r b : Nat) (e de : Ecc) :
    (m.readBlock k key r b e de).2.desk = m.desk := by
  generalize hx : m.readBlock k key r b e de = x
  rw [Mod.readBlock.eq_unfold] at hx
  beta_reduce at hx
  extract_lets g slot chan dirAt at hx
  split at hx
  next ent m1 h1 =>
    rw [← Mod.desk_of_snd h1 (Mod.desk_memRead ..)]
    clear h1
    extract_lets n at hx
    split at hx
    next st m2 h2 =>
      rw [← Mod.desk_of_snd h2 (Mod.desk_memRead ..)]
      clear h2
      split at hx
      · rw [← hx]
      · split at hx
        · simp [← hx]
        · split at hx <;> simp [← hx]
@[simp] theorem Mod.desk_writeBlock (m : Mod) (k key r b : Nat) (bs : List Byte) (poison : Bool) (e : Ecc) :
    (m.writeBlock k key r b bs poison e).2.desk = m.desk := by
  simp [Mod.writeBlock]
@[simp] theorem Mod.desk_scratchRead (m : Mod) (k t st a n : Nat) (e : Ecc) :
    (m.scratchRead k t st a n e).2.desk = m.desk := by
  (unfold Mod.scratchRead; dsimp only; repeat' split) <;> simp
@[simp] theorem Mod.desk_scratchWrite (m : Mod) (k t st a : Nat) (pc : Piece) :
    (m.scratchWrite k t st a pc).desk = m.desk := by
  simp [Mod.scratchWrite]
@[simp] theorem Mod.desk_readLocal (m : Mod) (k key kind v at' n : Nat) (e : UnitEcc) :
    (m.readLocal k key kind v at' n e).2.desk = m.desk := by
  rw [Mod.readLocal.eq_unfold]
  beta_reduce
  split
  · extract_lets loc r
    split
    · split
      next b n h => exact Mod.desk_of_snd h (Mod.desk_readBlock ..)
    · split
      next rd n h => exact Mod.desk_of_snd h (Mod.desk_memRead ..)
  · exact Mod.desk_scratchRead ..
@[simp] theorem Mod.desk_writeLocal (m : Mod) (k key kind v at' : Nat) (pc : Piece) (de : Ecc) :
    (m.writeLocal k key kind v at' pc de).2.desk = m.desk := by
  (unfold Mod.writeLocal; dsimp only; repeat' split) <;> simp
@[simp] theorem Mod.desk_hostWrites (m : Mod) (addr : Nat) (pc : Piece) : (m.hostWrites addr pc).desk = m.desk := by
  simp [Mod.hostWrites]
@[simp] theorem Mod.desk_readPage (m : Mod) (k t : Nat) (b : List Byte) (member : Nat) (g : PageDesc) (at' n : Nat) (e : Ecc) :
    (m.readPage k t b member g at' n e).2.desk = m.desk := by
  have hopen (p : Partition) : (if g.zero then p.modTruss t fun tr => tr.openSlot b member g
      else (p.modTruss t fun tr => tr.openSlot b member g).count offKvStatus 15 0).created = p.created := by
    split <;> rfl
  refine (Mod.desk_foldl₃ (fun acc i => ?_) ..).trans ?_ <;> simp [hopen]
@[simp] theorem Mod.desk_writePage (m : Mod) (k t key : Nat) (b : List Byte) (member : Nat) (g : PageDesc)
    (at' n : Nat) (e : Ecc) :
    (m.writePage k t key b member g at' n e).2.desk = m.desk := by
  (unfold Mod.writePage; dsimp only; repeat' split) <;> simp
@[simp] theorem Mod.desk_unitRec (m : Mod) (k key : Nat) (mb : Member) (peg : Nat) (e : Ecc) :
    (m.unitRec k key mb peg e).2.2.desk = m.desk := by
  simp [Mod.unitRec]
@[simp] theorem Mod.desk_maskUnit (m : Mod) (k key : Nat) (d : Desc) (at' n : Nat) (e : Ecc) :
    (m.maskUnit k key d at' n e).2.desk = m.desk := by
  (unfold Mod.maskUnit; dsimp only; repeat' split) <;> simp
@[simp] theorem Mod.desk_acceptUnit (m : Mod) (k key : Nat) (d : Desc) (at' : Nat) (e : UnitEcc) :
    (m.acceptUnit k key d at' e).2.2.desk = m.desk := by
  (unfold Mod.acceptUnit; dsimp only; repeat' split) <;> simp
@[simp] theorem Mod.desk_readSide (m : Mod) (k ch : Nat) (d : Desc) (at' n : Nat) (e : UnitEcc) :
    (m.readSide k ch d at' n e).2.desk = m.desk := by
  unfold Mod.readSide; split <;> simp
@[simp] theorem Mod.desk_writeSide (m : Mod) (k ch : Nat) (d : Desc) (at' : Nat) (pc : Piece) (e : UnitEcc) :
    (m.writeSide k ch d at' pc e).2.desk = m.desk := by
  unfold Mod.writeSide; split <;> simp
@[simp] theorem Mod.desk_moveSides (m : Mod) (k ch : Nat) (d : Desc) (at' n : Nat) (e : UnitEcc) :
    (m.moveSides k ch d at' n e).2.2.desk = m.desk := by
  (unfold Mod.moveSides; dsimp only; repeat' split) <;> simp
@[simp] theorem Mod.desk_moveUnit (m : Mod) (k ch : Nat) (d : Desc) (at' : Nat) (e : UnitEcc) :
    (m.moveUnit k ch d at' e).2.2.desk = m.desk := by
  (unfold Mod.moveUnit; dsimp only; repeat' split) <;> simp
@[simp] theorem Mod.desk_dmaKeyEnd (m : Mod) (k ch : Nat) : (m.dmaKeyEnd k ch).desk = m.desk := by
  simp [Mod.dmaKeyEnd]
@[simp] theorem Mod.desk_ownerFails (m : Mod) (k ch : Nat) (d : Desc) (status detail : Nat) :
    (m.ownerFails k ch d status detail).desk = m.desk := by
  unfold Mod.ownerFails; split <;> simp
@[simp] theorem Mod.desk_issueAhead (m : Mod) (k ch : Nat) : (m.issueAhead k ch).desk = m.desk := by
  (unfold Mod.issueAhead; dsimp only; repeat' split) <;> simp
@[simp] theorem Mod.desk_dropHead (m : Mod) (k ch : Nat) (stuck : Bool) : (m.dropHead k ch stuck).desk = m.desk := by
  unfold Mod.dropHead
  extract_lets m1 h m2
  have h1 : m1.desk = m.desk := by
    unfold m1
    split <;> simp
  split
  · exact h1
  next d _ =>
    extract_lets n free
    have h2 : m2.desk = m.desk := (Mod.desk_orphanReads ..).trans h1
    clear_value m2
    generalize hx : (if free = 0 then (0, m2) else m2.draw) = x
    have h3 : x.2.desk = m2.desk := by
      subst hx
      split <;> simp
    obtain ⟨y, m3⟩ := x
    refine Eq.trans (b := Mod.desk (Mod.dmaKeyEnd _ k ch)) (Mod.desk_modPart _ _ fun _ => ?_)
      ((Mod.desk_dmaKeyEnd _ _ _).trans ?_)
    · rw [Partition.remains_iff, Partition.created_modChan]
    refine (Mod.desk_foldl₃ (fun acc i => ?_) _ _).trans (h3.trans h2)
    dsimp only
    split
    · exact Mod.desk_moveUnit ..
    · rfl
@[simp] theorem Mod.desk_scrubFrom (m : Mod) (k i : Nat) : (m.scrubFrom k i).desk = m.desk := by
  (unfold Mod.scrubFrom; dsimp only; repeat' split) <;> simp

@[simp] theorem Mod.desk_startAuth (m : Mod) (l : FwLoad) : (m.startAuth l).desk = m.desk := by
  unfold Mod.startAuth
  extract_lets n
  have hn : n.desk = m.desk := by
    unfold n
    split <;> rfl
  obtain ⟨out, pcie, hstage⟩ := Mod.setStage_eq { n with fwLoad := some { l with auth := true } } 7
  rw [hstage]
  exact hn

/-! ### What management's requests leave while none but they act -/

/-- From a module in which management's requests alone act and no binding stands, `n` is a module with the same notes, in which
management's requests alone act. -/
def Mod.Apart (m n : Mod) : Prop :=
  m.binds = [] → (∀ x ∈ m.acting, x.fn = .mgmt) → n.notes = m.notes ∧ ∀ x ∈ n.acting, x.fn = .mgmt

theorem Mod.binds_of_notes {m n : Mod} (h : n.notes = m.notes) : n.binds = m.binds :=
  congrArg (fun x => x.2.2.2.1) h

section
variable {m n : Mod}

theorem Mod.apart_of_desk (h : n.desk = m.desk) : m.Apart n := fun _ hacting => by
  obtain ⟨hnotes, hsame⟩ := Prod.mk.inj h
  exact ⟨hnotes, hsame ▸ hacting⟩

theorem Mod.Apart.refl (m : Mod) : m.Apart m := Mod.apart_of_desk rfl

theorem Mod.Apart.trans {l : Mod} (h : m.Apart n) (h' : n.Apart l) : m.Apart l := fun hbinds hacting => by
  obtain ⟨hn, hnacting⟩ := h hbinds hacting
  obtain ⟨hl, hlacting⟩ := h' ((Mod.binds_of_notes hn).trans hbinds) hnacting
  exact ⟨hl.trans hn, hlacting⟩

theorem Mod.apart_ite {c : Prop} [Decidable c] {l : Mod} (hn : m.Apart n) (hl : m.Apart l) : m.Apart (if c then n else l) := by
  split
  · exact hn
  · exact hl

theorem Mod.apart_forAll {α : Type} {f : Mod → α → Mod} {xs : List α} (h : ∀ (m : Mod), ∀ x ∈ xs, m.Apart (f m x)) (m : Mod) :
    m.Apart (m.forAll f xs) := by
  induction xs generalizing m with
  | nil => exact .refl m
  | cons x xs ih =>
    obtain ⟨hx, hxs⟩ : (∀ m : Mod, m.Apart (f m x)) ∧ ∀ m : Mod, ∀ y ∈ xs, m.Apart (f m y) :=
      ⟨fun m => h m x List.mem_cons_self, fun m y hy => h m y (List.mem_cons_of_mem _ hy)⟩
    rw [Mod.forAll_cons]
    exact (hx m).trans (ih hxs _)

end

section
variable (m : Mod) {r : Request} (hr : r.fn = .mgmt)
include hr

@[simp] theorem Mod.desk_respond (status detail : Nat) (payload : List Byte) :
    (m.respond r status detail payload).desk = m.desk := by
  rw [Mod.respond_mgmt _ _ _ _ _ hr]
  split <;> rfl

theorem Mod.apart_finish (status detail : Nat) (payload : List Byte) : m.Apart (m.finish r status detail payload) := by
  refine .trans ?_ (Mod.apart_of_desk (Mod.desk_respond _ hr ..))
  exact fun _ hacting => ⟨rfl, fun x hx => hacting x (List.mem_of_mem_filter hx)⟩

theorem Mod.apart_hold : m.Apart (m.hold r) := fun _ hacting =>
  ⟨rfl, fun x hx => (List.mem_append.mp hx).elim (hacting x) fun hx => List.mem_singleton.mp hx ▸ hr⟩

theorem Mod.apart_judge {bad : Option (Nat × Nat)} {ok : Mod → Mod} (hok : m.Apart (ok m)) : m.Apart (m.judge r bad ok) := by
  unfold Mod.judge
  split
  · exact Mod.apart_of_desk (Mod.desk_respond _ hr ..)
  · exact hok

end

section
variable (m : Mod) (slot : Nat)

theorem Mod.apart_endUser (u : KeyUse) : m.Apart (m.endUser slot u) := by
  cases u with
  | attest f =>
    dsimp only [Mod.endUser]
    split
    next r hr =>
      intro hbinds hacting
      have hf := hacting r (List.mem_of_find?_eq_some hr)
      exact (Mod.Apart.trans (Mod.apart_of_desk (by simp)) (Mod.apart_finish _ hf _ _ _)) hbinds hacting
    · exact .refl m
  | dma k ch =>
    dsimp only [Mod.endUser]
    refine Mod.apart_of_desk ?_
    split
    · rfl
    · split <;> simp
  | linkSend k c node member => exact Mod.apart_of_desk (by simp [Mod.endUser])
  | linkRecv k c q node member =>
    dsimp only [Mod.endUser]
    refine Mod.apart_of_desk ((Mod.desk_within _ _ _ _ fun n => ?_).trans (by simp))
    split
    · split <;> simp
    · simp
  | scrub k =>
    dsimp only [Mod.endUser]
    refine Mod.apart_of_desk ?_
    split <;> simp

/-- Where no binding stands, none ends with its key. -/
theorem Mod.apart_eraseBegin : m.Apart (m.eraseBegin slot) := fun hbinds hacting => by
  have hdesk : (m.eraseBegin slot).desk = m.desk := by
    unfold Mod.eraseBegin
    extract_lets m1 m2
    have h2 : m2.desk = m.desk := by
      refine (Mod.desk_forAll (fun n k => ?_) ..).trans (Mod.desk_modKey ..)
      split
      · exact Mod.desk_modPart _ _ fun _ => rfl
      · rfl
    have hb : m2.binds = [] := (Mod.binds_of_notes (Prod.mk.inj h2).1).trans hbinds
    clear_value m2
    rw [hb]
    exact h2
  exact Mod.apart_of_desk hdesk hbinds hacting

theorem Mod.apart_eraseNow : m.Apart (m.eraseNow slot) := by
  unfold Mod.eraseNow
  extract_lets m1 users hit m2 m3
  have h1 : m.Apart m1 := Mod.apart_ite (.refl m) (m.apart_eraseBegin slot)
  have h2 : m1.Apart m2 := Mod.apart_forAll (fun n u _ => n.apart_endUser slot u.2) m1
  have h3 : m2.Apart (m3.modKey slot fun s => { s with users := [] }) :=
    Mod.apart_of_desk ((Mod.desk_modKey ..).trans (Mod.desk_forAll (fun n k => by simp [Partition.flag]) ..))
  exact (h1.trans h2).trans h3

theorem Mod.apart_slotFree : m.Apart (m.slotFree slot) := by
  intro hbinds hacting
  refine (Mod.Apart.trans (Mod.apart_of_desk (by simp)) (Mod.apart_forAll (fun n r hr => ?_) _)) hbinds hacting
  split
  · exact n.apart_finish (hacting r hr) _ _ _
  · exact .refl n

theorem Mod.apart_settleErases : m.Apart m.settleErases := by
  refine Mod.apart_forAll (fun n e _ => ?_) m
  split
  · exact n.apart_slotFree e.1
  · exact .refl n

end

section
variable (m : Mod) {r : Request} (hr : r.fn = .mgmt)
include hr

theorem Mod.apart_keyErase : m.Apart (m.keyErase r) :=
  m.apart_judge hr ((m.apart_hold hr).trans (Mod.apart_eraseBegin _ _))

theorem Mod.apart_keyEraseNow : m.Apart (m.keyEraseNow r) :=
  m.apart_judge hr ((m.apart_hold hr).trans (Mod.apart_eraseNow _ _))

theorem Mod.apart_partReset : m.Apart (m.partReset r) :=
  m.apart_judge hr ((m.apart_hold hr).trans (Mod.apart_of_desk (Mod.desk_startReset ..)))

theorem Mod.apart_pwrSet : m.Apart (m.pwrSet r) := by
  unfold Mod.pwrSet
  exact m.apart_judge hr (Mod.apart_of_desk (by simp [hr]))

theorem Mod.apart_fwChunk : m.Apart (m.fwChunk r) := by
  have hrespond (l : Option FwLoad) (status detail : Nat) : m.Apart (({ m with fwLoad := l }).respond r status detail) :=
    Mod.apart_of_desk (Mod.desk_respond { m with fwLoad := l } hr ..)
  rw [Mod.fwChunk.eq_unfold]
  beta_reduce
  extract_lets off len data fromPf authing have' refuse first got l
  split
  · exact hrespond _ _ _
  split
  · exact hrespond _ _ _
  split
  · exact hrespond _ _ _
  split
  · exact hrespond _ _ _
  split
  · exact hrespond _ _ _
  split
  · exact (m.apart_hold hr).trans (Mod.apart_of_desk (Mod.desk_startAuth ..))
  · exact hrespond _ _ _

end

/-! ### The rows of the mailbox (02 R59) -/

/-- Command `c` runs operation `act` on a request of function `f` with opcode `op` and a sub-operation that meets `sub`, and then
`ends`; of the operations whose requests supersede others, management's leave the notes. -/
structure Row (c : Instr) (f : Fn) (op : Nat) (sub : Request → Bool) (act : Mod → Request → Mod) (ends : Mod → Mod) : Prop where
  own : ∀ r, mailboxRow c r = true ↔ r.fn = f ∧ r.opcode = op ∧ sub r = true
  run : ∀ s, exec c s = s.act fun m => ends (m.mbxRow f op sub act)
  settles : ends = id ∨ ends = Mod.settleErases
  apart : op ∈ [0x03, 0x11, 0x31, 0x80] → f = .mgmt → ∀ (m : Mod) r, r.fn = .mgmt → m.Apart (act m r)

section
variable {c : Instr} {f : Fn} {op : Nat} {sub : Request → Bool} {act : Mod → Request → Mod} {ends : Mod → Mod}

theorem Row.ofSub (hown : ∀ r, mailboxRow c r = (r.fn == f && r.opcode == op && sub r))
    (hrun : ∀ s, exec c s = s.act fun m => ends (m.mbxRow f op sub act)) (hends : ends = id ∨ ends = Mod.settleErases)
    (hapart : op ∈ [0x03, 0x11, 0x31, 0x80] → f = .mgmt → ∀ (m : Mod) r, r.fn = .mgmt → m.Apart (act m r)) :
    Row c f op sub act ends :=
  ⟨fun r => by simp only [hown, Bool.and_eq_true, beq_iff_eq, and_assoc], hrun, hends, hapart⟩

theorem Row.ofOpcode (hown : ∀ r, mailboxRow c r = (r.fn == f && r.opcode == op))
    (hrun : ∀ s, exec c s = s.act fun m => m.mbxRow f op (fun _ => true) act)
    (hapart : op ∈ [0x03, 0x11, 0x31, 0x80] → f = .mgmt → ∀ (m : Mod) r, r.fn = .mgmt → m.Apart (act m r)) :
    Row c f op (fun _ => true) act id :=
  .ofSub (fun r => (hown r).trans (Bool.and_true _).symm) hrun (.inl rfl) hapart

end

/-- Every command that has a row of the mailbox runs an operation on it. -/
theorem exists_row {c : Instr} (hc : ∃ r, mailboxRow c r = true) : ∃ f op sub act ends, Row c f op sub act ends := by
  obtain ⟨r, hr⟩ := hc
  have other {op : Nat} {P : Prop} (hop : [0x03, 0x11, 0x31, 0x80].contains op = false) (h : op ∈ [0x03, 0x11, 0x31, 0x80]) : P :=
    absurd (List.contains_iff_mem.mpr h) (by rw [hop]; decide)
  cases c with
  | identGet f =>
    exact ⟨f, 0x01, fun _ => true, fun m r => m.respond r stOk 0 (m.identity f), id,
      .ofOpcode (fun _ => rfl) (fun s => exec_identGet f s) (other rfl)⟩
  | healthGet f =>
    exact ⟨f, 0x02, fun _ => true, fun m r => m.respond r stOk 0 (m.health f), id,
      .ofOpcode (fun _ => rfl) (fun s => exec_healthGet f s) (other rfl)⟩
  | fwLoad =>
    exact ⟨.pf, 0x03, fun _ => true, Mod.fwLoadPf, id,
      .ofOpcode (fun _ => rfl) (fun s => exec_fwLoad s) (fun _ h => nomatch h)⟩
  | fwLoadChunk =>
    exact ⟨.mgmt, 0x03, fun _ => true, Mod.fwChunk, id,
      .ofOpcode (fun _ => rfl) (fun s => exec_fwLoadChunk s) (fun _ _ m _ hr => m.apart_fwChunk hr)⟩
  | partCreate f =>
    exact ⟨f, 0x10, fun r => pcOp r.payload != 2, Mod.partCreate, id,
      .ofSub (fun _ => rfl) (fun s => exec_partCreate f s) (.inl rfl) (other rfl)⟩
  | partDelete f =>
    exact ⟨f, 0x10, fun r => pcOp r.payload == 2, Mod.partDelete, id,
      .ofSub (fun _ => rfl) (fun s => exec_partDelete f s) (.inl rfl) (other rfl)⟩
  | partReset f =>
    exact ⟨f, 0x11, fun _ => true, Mod.partReset, id,
      .ofOpcode (fun _ => rfl) (fun s => exec_partReset f s) (fun _ _ m _ hr => m.apart_partReset hr)⟩
  | ctxCreate f =>
    exact ⟨f, 0x12, fun _ => true, Mod.ctxCreate, id,
      .ofOpcode (fun _ => rfl) (fun s => exec_ctxCreate f s) (other rfl)⟩
  | frameLoad f e =>
    exact ⟨f, 0x20, fun _ => true, fun m r => m.frameLoad r e, id,
      .ofOpcode (fun _ => rfl) (fun s => exec_frameLoad f e s) (other rfl)⟩
  | resvOpen f =>
    exact ⟨f, 0x21, fun _ => true, Mod.resvOpen, id,
      .ofOpcode (fun _ => rfl) (fun s => exec_resvOpen f s) (other rfl)⟩
  | resvClose f =>
    exact ⟨f, 0x22, fun _ => true, Mod.resvClose, id,
      .ofOpcode (fun _ => rfl) (fun s => exec_resvClose f s) (other rfl)⟩
  | keyLoadPlain f =>
    exact ⟨f, 0x30, fun r => !([2, 3, 4, 5].contains (klOp r.payload)), Mod.keyPlain, Mod.settleErases,
      .ofSub (fun _ => rfl) (fun s => exec_keyLoadPlain f s) (.inr rfl) (other rfl)⟩
  | keyLoadWrapped f =>
    exact ⟨f, 0x30, fun r => klOp r.payload == 2, Mod.keyQueue, Mod.settleErases,
      .ofSub (fun _ => rfl) (fun s => exec_keyLoadWrapped f s) (.inr rfl) (other rfl)⟩
  | keyLoadGenerate f =>
    exact ⟨f, 0x30, fun r => klOp r.payload == 3, Mod.keyQueue, Mod.settleErases,
      .ofSub (fun _ => rfl) (fun s => exec_keyLoadGenerate f s) (.inr rfl) (other rfl)⟩
  | keyBindMem f =>
    exact ⟨f, 0x30, fun r => klOp r.payload == 4, Mod.keyBind, Mod.settleErases,
      .ofSub (fun _ => rfl) (fun s => exec_keyBindMem f s) (.inr rfl) (other rfl)⟩
  | keyUnbindMem f =>
    exact ⟨f, 0x30, fun r => klOp r.payload == 5, Mod.keyUnbind, Mod.settleErases,
      .ofSub (fun _ => rfl) (fun s => exec_keyUnbindMem f s) (.inr rfl) (other rfl)⟩
  | keyErase f =>
    exact ⟨f, 0x31, fun r => !bit (fld r.payload 2 1) 0, Mod.keyErase, Mod.settleErases,
      .ofSub (fun _ => rfl) (fun s => exec_keyErase f s) (.inr rfl) (fun _ _ m _ hr => m.apart_keyErase hr)⟩
  | keyEraseNow f =>
    exact ⟨f, 0x31, fun r => bit (fld r.payload 2 1) 0, Mod.keyEraseNow, Mod.settleErases,
      .ofSub (fun _ => rfl) (fun s => exec_keyEraseNow f s) (.inr rfl) (fun _ _ m _ hr => m.apart_keyEraseNow hr)⟩
  | shardFetch f =>
    exact ⟨f, 0x40, fun r => shOp r.payload != 2 && shOp r.payload != 3, Mod.shardAttach, id,
      .ofSub (fun _ => Bool.and_assoc ..) (fun s => exec_shardFetch f s) (.inl rfl) (other rfl)⟩
  | shardCopy f =>
    exact ⟨f, 0x40, fun r => shOp r.payload == 2, Mod.shardAttach, id,
      .ofSub (fun _ => rfl) (fun s => exec_shardCopy f s) (.inl rfl) (other rfl)⟩
  | shardDetach f =>
    exact ⟨f, 0x40, fun r => shOp r.payload == 3, Mod.shardDetach, id,
      .ofSub (fun _ => rfl) (fun s => exec_shardDetach f s) (.inl rfl) (other rfl)⟩
  | linkGrant f =>
    exact ⟨f, 0x50, fun r => fld r.payload 0 1 != 2, Mod.linkGrant, id,
      .ofSub (fun _ => rfl) (fun s => exec_linkGrant f s) (.inl rfl) (other rfl)⟩
  | linkRelease f =>
    exact ⟨f, 0x50, fun r => fld r.payload 0 1 == 2, Mod.linkRelease, id,
      .ofSub (fun _ => rfl) (fun s => exec_linkRelease f s) (.inl rfl) (other rfl)⟩
  | sisterBind f =>
    exact ⟨f, 0x51, fun r => fld r.payload 0 1 != 2 && fld r.payload 0 1 != 3, Mod.sisterBind, id,
      .ofSub (fun _ => Bool.and_assoc ..) (fun s => exec_sisterBind f s) (.inl rfl) (other rfl)⟩
  | sisterUnbind f =>
    exact ⟨f, 0x51, fun r => fld r.payload 0 1 == 2, Mod.sisterUnbind, id,
      .ofSub (fun _ => rfl) (fun s => exec_sisterUnbind f s) (.inl rfl) (other rfl)⟩
  | sisterTakeover f =>
    exact ⟨f, 0x51, fun r => fld r.payload 0 1 == 3, Mod.sisterTakeover, id,
      .ofSub (fun _ => rfl) (fun s => exec_sisterTakeover f s) (.inl rfl) (other rfl)⟩
  | faultReadPartition f e =>
    exact ⟨f, 0x60, fun r => frKind r.payload != 2 && frKind r.payload != 3, fun m r => m.faultReadPart r e, id,
      .ofSub (fun _ => Bool.and_assoc ..) (fun s => exec_faultReadPartition f e s) (.inl rfl) (other rfl)⟩
  | faultReadModule f =>
    exact ⟨f, 0x60, fun r => frKind r.payload == 2, fun m r => m.faultReadList r m.modRecords 1, id,
      .ofSub (fun _ => rfl) (fun s => exec_faultReadModule f s) (.inl rfl) (other rfl)⟩
  | faultReadSupersedeLog f =>
    exact ⟨f, 0x60, fun r => frKind r.payload == 3, fun m r => m.faultReadList r m.supersede.reverse 127, id,
      .ofSub (fun _ => rfl) (fun s => exec_faultReadSupersedeLog f s) (.inl rfl) (other rfl)⟩
  | attestGet f =>
    exact ⟨f, 0x70, fun _ => true, Mod.attest, id,
      .ofOpcode (fun _ => rfl) (fun s => exec_attestGet f s) (other rfl)⟩
  | pwrSet f =>
    exact ⟨f, 0x80, fun _ => true, Mod.pwrSet, id,
      .ofOpcode (fun _ => rfl) (fun s => exec_pwrSet f s) (fun _ _ m _ hr => m.apart_pwrSet hr)⟩
  | _ => exact absurd hr Bool.false_ne_true

/-! ### A request in its turn that does not act (02 R59, 18 R405) -/

section
variable {c : Instr} {f : Fn} {op : Nat} {sub : Request → Bool} {act : Mod → Request → Mod} {ends : Mod → Mod}
  {s : State} {r : Request} {rest : List Request}

/-- With no key slot being erased none settles. -/
theorem Row.ends_of_noErase (h : Row c f op sub act ends) (hno : NoErase s) {m : Mod} (hkeys : m.keys = s.mod.keys) : ends m = m := by
  rcases h.settles with rfl | rfl
  · rfl
  · exact Mod.settleErases_idle fun e he hstate => absurd hstate (hno e (hkeys ▸ he))

/-- A row at its turn: the request acts where it is not refused, and supersedes those it contradicts. -/
theorem Row.mbxRow_front (h : Row c f op sub act ends) (ht : s.mod.taken = r :: rest) (hr : mailboxRow c r = true) :
    s.mod.mbxRow f op sub act =
      (if s.mod.orphan r then (turned s rest).respond r stNotPermitted 0x10
       else if s.mod.resetBlocks r then (turned s rest).respond r stNotPermitted 0x11
       else act (turned s rest) r).supersedeBy r := by
  rw [Mod.mbxRow, ht]
  exact if_pos ((h.own r).mp hr)

theorem Row.gives_refused (h : Row c f op sub act ends) (hon : On s) (hno : NoErase s) (hnone : ∀ x ∈ rest, supersedes r x = none)
    {detail : Nat} (hrow : s.mod.mbxRow f op sub act = ((turned s rest).respond r stNotPermitted detail).supersedeBy r) :
    Gives c s ((turned s rest).respond r stNotPermitted detail) := by
  have hgives := gives_of_act hon (h.run s)
  rwa [hrow, Mod.supersedeBy_of_none (by rwa [Mod.taken_respond]),
    h.ends_of_noErase hno (m := (turned s rest).respond r stNotPermitted detail) (Mod.keys_respond ..)] at hgives

theorem Row.gives_idle (h : Row c f op sub act ends) (hon : On s) (hno : NoErase s)
    (hother : ∀ r, s.mod.taken.head? = some r → mailboxRow c r = false) : Gives c s s.mod := by
  have hrow : s.mod.mbxRow f op sub act = s.mod := by
    unfold Mod.mbxRow
    split
    · rfl
    next r rest ht =>
      exact if_neg fun hr => Bool.false_ne_true ((hother r (by rw [ht]; rfl)).symm.trans ((h.own r).mpr hr))
  have hgives := gives_of_act hon (h.run s)
  rwa [hrow, h.ends_of_noErase hno rfl] at hgives

end

/-! ### A request of a host that management's supersedes (02 R60, R61) -/

/-- The entry of the supersede log for request `h`, which `r` supersedes for object `o`. -/
def supersedeEntry (m : Mod) (r h : Request) (o : Nat) : List Byte :=
  leBytes 8 m.devtime.toNat ++ leBytes 4 h.mtime ++ leBytes 2 r.opcode ++ leBytes 2 h.opcode ++
    leBytes 4 r.seq ++ leBytes 4 h.seq ++ leBytes 2 (fnCode h.fn) ++ leBytes 2 o ++ zeros 4

theorem fld_supersedeEntry (m : Mod) (r h : Request) (o : Nat) :
    fld (supersedeEntry m r h o) 0 8 = m.devtime.toNat ∧ fld (supersedeEntry m r h o) 12 2 = r.opcode % 65536 ∧
      fld (supersedeEntry m r h o) 14 2 = h.opcode % 65536 := by
  refine ⟨?_, ?_, ?_⟩ <;> simp [supersedeEntry, List.append_assoc, fld_append_right, fld_append_left, fld_leBytes]
  exact m.devtime.isLt

theorem fld_responseBytes_status (r : Request) (status detail : Nat) (payload post : List Byte) :
    fld (responseBytes r status detail payload ++ post) 12 2 = status % 65536 := by
  simp [responseBytes, List.append_assoc, fld_append_right, fld_append_left, fld_leBytes]

/-- A request supersedes another only as management's, of another function's, and with one of four opcodes. -/
theorem of_supersedes {r h : Request} {o : Nat} (hs : supersedes r h = some o) :
    r.fn = .mgmt ∧ h.fn ≠ .mgmt ∧ r.opcode ∈ [0x03, 0x11, 0x31, 0x80] := by
  unfold supersedes at hs
  split at hs
  next hfn =>
    obtain ⟨hr, hh, -⟩ := hfn
    refine ⟨hr, hh, ?_⟩
    unfold contradicts at hs
    split at hs
    next hop => simp [hop]
    next hop => simp [hop]
    next hop => simp [hop]
    next hop => simp [hop]
    · cases hs
  · cases hs

theorem opcode_mod_of_supersedes {r h : Request} {o : Nat} (hs : supersedes r h = some o) : r.opcode % 65536 = r.opcode := by
  obtain ⟨-, -, hop⟩ := of_supersedes hs
  simp only [List.mem_cons, List.not_mem_nil, or_false] at hop
  omega

section
variable {n : Mod} {r h : Request} {o : Nat}

/-- Superseding the one request behind: it is answered and logged. -/
theorem Mod.supersedeBy_one (hs : supersedes r h = some o) (ht : n.taken = [h]) (horphan : n.orphan h = false) :
    n.supersedeBy r = (({ n with taken := [] } : Mod).logSupersede r h o).respond h stSuperseded 0 := by
  have hrest : n.taken.filter (fun x => x.id != h.id) = [] := by simp [ht]
  have hgone : Mod.orphan { n with taken := [] } h = false := horphan
  rw [Mod.supersedeBy, ht, List.foldl_cons, List.foldl_nil, Mod.supersedeOne, hs]
  dsimp only
  rw [hrest, hgone]
  rfl

theorem Mod.supersedeBy_spec (hs : supersedes r h = some o) (ht : n.taken = [h]) (horphan : n.orphan h = false)
    (hcur : (n.mailbox (fnIdx h.fn)).cur = some h.id) :
    (n.supersedeBy r).taken = [] ∧ ((n.supersedeBy r).mailbox (fnIdx h.fn)).cur = none ∧
      fld ((n.supersedeBy r).mailbox (fnIdx h.fn)).respBuf 12 2 = stSuperseded ∧
      (n.supersedeBy r).supersede = (n.supersede ++ [supersedeEntry n r h o]).drop (n.supersede.length + 1 - 256) ∧
      (n.supersedeBy r).binds = n.binds ∧ (n.supersedeBy r).acting = n.acting := by
  rw [Mod.supersedeBy_one hs ht horphan]
  set l := ({ n with taken := [] } : Mod).logSupersede r h o with hl
  obtain ⟨out, pcie, hlog⟩ : ∃ out pcie, l = { n with
      taken := [], supersede := (n.supersede ++ [supersedeEntry n r h o]).drop (n.supersede.length + 1 - 256), out := out, pcie := pcie } := by
    obtain ⟨out, pcie, h⟩ := Mod.msix_eq _ .pf 2
    exact ⟨out, pcie, hl.trans (h.trans (by simp; rfl))⟩
  have hlcur : (l.mailbox (fnIdx h.fn)).cur = some h.id := hlog ▸ hcur
  have hmbx : (l.respond h stSuperseded 0).mailbox (fnIdx h.fn) = (l.mailbox (fnIdx h.fn)).answered h stSuperseded 0 [] := by
    rw [Mod.mailbox, l.mbx_respond_host h _ _ _ (of_supersedes hs).2.1 hlcur, Table.get_set_same]
  obtain ⟨out', pcie', mbx, busy, hrespond⟩ := l.respond_eq h stSuperseded 0 []
  rw [hmbx]
  refine ⟨?_, rfl, fld_responseBytes_status .., ?_, ?_, ?_⟩ <;> rw [hrespond, hlog]

end

section
variable {c : Instr} {f : Fn} {op : Nat} {sub : Request → Bool} {act : Mod → Request → Mod} {ends : Mod → Mod}
  {s : State} {r h : Request} {o : Nat}

theorem Row.apart_ends (hrow : Row c f op sub act ends) (m : Mod) : m.Apart (ends m) := by
  rcases hrow.settles with rfl | rfl
  · exact .refl m
  · exact m.apart_settleErases

/-- The row of management's request, before it supersedes what it contradicts. -/
theorem Row.apart_turn (hrow : Row c f op sub act ends) (hr : mailboxRow c r = true) (hs : supersedes r h = some o) :
    (turned s [h]).Apart (if s.mod.orphan r then (turned s [h]).respond r stNotPermitted 0x10
      else if s.mod.resetBlocks r then (turned s [h]).respond r stNotPermitted 0x11 else act (turned s [h]) r) := by
  obtain ⟨hfn, -, hopcode⟩ := of_supersedes hs
  obtain ⟨hf, hop, -⟩ := (hrow.own r).mp hr
  refine Mod.apart_ite (Mod.apart_of_desk (Mod.desk_respond _ hfn ..)) ?_
  exact Mod.apart_ite (Mod.apart_of_desk (Mod.desk_respond _ hfn ..)) (hrow.apart (hop ▸ hopcode) (hf ▸ hfn) _ r hfn)

theorem Row.supersedes_spec (hrow : Row c f op sub act ends) (hon : On s) (ht : s.mod.taken = [r, h]) (hr : mailboxRow c r = true)
    (hs : supersedes r h = some o) (horphan : s.mod.orphan h = false) (hacting : s.mod.acting = []) (hbinds : s.mod.binds = [])
    (hcur : (s.mod.mailbox (fnIdx h.fn)).cur = some h.id) :
    ∃ m entry, Gives c s m ∧ m.taken = [] ∧ (m.mailbox (fnIdx h.fn)).cur = none ∧
      fld (m.mailbox (fnIdx h.fn)).respBuf 12 2 = stSuperseded ∧
      m.supersede = (s.mod.supersede ++ [entry]).drop (s.mod.supersede.length + 1 - 256) ∧
      fld entry 0 8 = s.mod.devtime.toNat ∧ fld entry 12 2 = r.opcode ∧ fld entry 14 2 = h.opcode % 65536 := by
  have hgives := gives_of_act hon (hrow.run s)
  rw [hrow.mbxRow_front ht hr] at hgives
  have hturn := hrow.apart_turn (s := s) hr hs hbinds (by simp [turned, hacting])
  revert hgives hturn
  generalize (if s.mod.orphan r then (turned s [h]).respond r stNotPermitted 0x10
      else if s.mod.resetBlocks r then (turned s [h]).respond r stNotPermitted 0x11 else act (turned s [h]) r) = n
  intro hgives ⟨hnotes, hmgmt⟩
  simp only [Mod.notes, Prod.mk.injEq] at hnotes
  obtain ⟨hmbx, hlog, htime, hb, htaken, hcreated⟩ := hnotes
  have hnorphan : n.orphan h = false := by
    rw [← horphan]
    unfold Mod.orphan Mod.exists?
    split
    next k _ => rw [show (n.part k.val).created = _ from congrFun hcreated k.val]; rfl
    · rfl
  have hncur : (n.mailbox (fnIdx h.fn)).cur = some h.id := by rwa [Mod.mailbox, hmbx]
  obtain ⟨htaken', hcur', hstatus, hsupersede, hbinds', hacting'⟩ := Mod.supersedeBy_spec hs htaken hnorphan hncur
  obtain ⟨hends, -⟩ := hrow.apart_ends (n.supersedeBy r) (hbinds'.trans (hb.trans hbinds)) (hacting' ▸ hmgmt)
  simp only [Mod.notes, Prod.mk.injEq] at hends
  obtain ⟨hmbxE, hlogE, -, -, htakenE, -⟩ := hends
  obtain ⟨hf8, hf12, hf14⟩ := fld_supersedeEntry n r h o
  have hbox : (ends (n.supersedeBy r)).mailbox (fnIdx h.fn) = (n.supersedeBy r).mailbox (fnIdx h.fn) :=
    congrArg (Table.get Mailbox.reset _) hmbxE
  refine ⟨_, supersedeEntry n r h o, hgives, htakenE.trans htaken', ?_, ?_, ?_, ?_, ?_, hf14⟩
  · rw [hbox, hcur']
  · rw [hbox, hstatus]
  · rw [hlogE, hsupersede, hlog]; rfl
  · rw [hf8, htime]; rfl
  · exact hf12.trans (opcode_mod_of_supersedes hs)

end

/-- Settles O18: every command of the mailbox is a row, and a row runs its operation on the first request that waits, or refuses
it, and then supersedes what that contradicts; the operations that supersede leave the mailboxes and the log to it. -/
theorem blockedRequests : Obligations.BlockedRequests := by
  unfold Obligations.BlockedRequests
  refine ⟨fun s r rest c hon hno ht hnone hr => ?_, fun s c hon hno hc hother => ?_,
    fun s r h c o hon ht hr hs horphan hacting hbinds hcur => ?_⟩
  · obtain ⟨f, op, sub, act, ends, hrow⟩ := exists_row ⟨r, hr⟩
    have hfront := hrow.mbxRow_front ht hr
    refine ⟨fun horphan => hrow.gives_refused hon hno hnone ?_, fun horphan hblocks => hrow.gives_refused hon hno hnone ?_⟩
    · rw [hfront, if_pos horphan]
    · rw [hfront, if_neg (by rw [horphan]; decide), if_pos hblocks]
  · obtain ⟨f, op, sub, act, ends, hrow⟩ := exists_row hc
    exact hrow.gives_idle hon hno hother
  · obtain ⟨f, op, sub, act, ends, hrow⟩ := exists_row ⟨r, hr⟩
    exact hrow.supersedes_spec hon ht hr hs horphan hacting hbinds hcur

end Sys2Proof.Machine
end
